-- ==== Sys2Proof/Word.lean ====
section
/-! DEFINITION. The word types of the machine (R24, R50, R64, R4) and the helpers `wrap32`, `sat8` and `sat16` of R4. -/

namespace Sys2Proof

/-- The data half of a general register (R51). -/
abbrev Word := BitVec 64

/-- A scalar instruction word, a command word's part, a vector element (R25, R37, R64). -/
abbrev Word32 := BitVec 32

/-- The smallest addressable unit of memory (R24). -/
abbrev Byte := BitVec 8

/-- `wrap32(x)` of R4: x modulo 2^32, read as a two's-complement INT32. -/
def wrap32 (x : Int) : Int := (BitVec.ofInt 32 x).toInt

/-- Clamp of an integer to `[lo, hi]`. -/
def clampInt (lo hi x : Int) : Int := max lo (min hi x)

/-- `sat8(x)` of R4. -/
def sat8 (x : Int) : Int := clampInt (-128) 127 x

/-- `sat16(x)` of R4. -/
def sat16 (x : Int) : Int := clampInt (-32768) 32767 x

end Sys2Proof
end

