-- ==== Sys2Proof/Machine/Bits.lean ====
section
/-! DEFINITION. Bit fields, sign extension and byte order (R2, R24, R25): the helpers that decoding and the meanings share. -/

namespace Sys2Proof

/-- Bits [lo+len-1 : lo] of w as a number. -/
def bitsAt {n : Nat} (w : BitVec n) (lo len : Nat) : Nat := (w.extractLsb' lo len).toNat

/-- Bit i of w. -/
def bitAt {n : Nat} (w : BitVec n) (i : Nat) : Bool := w.getLsbD i

/-- w with bits [lo+len-1 : lo] replaced by the low len bits of x. -/
def setBits {n : Nat} (w : BitVec n) (lo len : Nat) (x : Nat) : BitVec n :=
  let mask := (BitVec.ofNat n (2 ^ len - 1)) <<< lo
  (w &&& ~~~mask) ||| ((BitVec.ofNat n x <<< lo) &&& mask)

/-- w with bit i replaced by b. -/
def setBit {n : Nat} (w : BitVec n) (i : Nat) (b : Bool) : BitVec n := setBits w i 1 b.toNat

/-- The signed value of a two's-complement field (R25). -/
def sextInt {n : Nat} (x : BitVec n) : Int := x.toInt

/-- A two's-complement field extended to a word (R25). -/
def sextW {n : Nat} (x : BitVec n) : Word := x.signExtend 64

/-- A field extended with zeros to a word. -/
def zextW {n : Nat} (x : BitVec n) : Word := x.setWidth 64

/-- The number whose little-endian bytes are bs (R24). -/
def leNat : List Byte → Nat
  | [] => 0
  | b :: r => b.toNat + 256 * leNat r

/-- The k little-endian bytes of x modulo 256^k (R24). -/
def leBytes : Nat → Nat → List Byte
  | 0, _ => []
  | k + 1, x => BitVec.ofNat 8 (x % 256) :: leBytes k (x / 256)

/-- ceil(a / b); 0 when b is 0. -/
def ceilDiv (a b : Nat) : Nat := (a + b - 1) / b

/-- The two's-complement reading of the low `bits` bits of a number. -/
def signedNat (bits x : Nat) : Int :=
  let m := x % 2 ^ bits
  if m < 2 ^ (bits - 1) then (m : Int) else (m : Int) - (2 ^ bits : Nat)

/-- The low `bits` bits of an integer, as a number. -/
def unsignedOf (bits : Nat) (x : Int) : Nat := (x % ((2 ^ bits : Nat) : Int)).toNat

end Sys2Proof
end

