-- ==== Sys2Proof/Syntax.lean ====
section
/-! DEFINITION. The instructions: one constructor for each row of the table of operations and events.
The rows with bits are the scalar and vector words of R25 to R36, `S` being the settle marker (R25, R72);
`loop` holds its step word beside it (R33). The rows without bits are the whole and indivisible steps of the
engines, the managers and the host that 95_what_each_step_holds.md lists; their operands say where the step takes place. -/

namespace Sys2Proof

/-- A core, by its module-wide index (R3): compute cores 0-2047, memory cores 0-127. -/
inductive CoreId where
  | comp (n : Nat)
  | mem (n : Nat)
  deriving DecidableEq, Repr

/-- The engines that queues feed, in the numbering of R37; `cascade` is the block the cascade fetcher runs (R251). -/
inductive Engine where
  | matrix | seed | copy | dipper | reduction | ring | cascade
  deriving DecidableEq, Repr

/-- What an access needs of a page-table leaf (R135): a read, an ordinary write, both for an atomic (R170), a G copy, TERN's write, a
cascade fetch. -/
inductive Need where
  | read | write | update | grant | tern | exec
  deriving DecidableEq, Repr

/-- The translators of R138; the cascade fetcher uses the memory core's. -/
inductive Translator where
  | memCore (m : Nat)
  | dipper (q : Nat)
  deriving DecidableEq, Repr

/-- What wakes a core parked by `wfi` (R114). -/
inductive Wake where
  | resume | place | kill
  deriving DecidableEq, Repr

/-- Who requests a pre-emption (R117): SOURCE 10 or SOURCE 12 (R101). -/
inductive Requester where
  | manager | management
  deriving DecidableEq, Repr

/-- The two kinds of arrival at a gang's Weir and the meeting of a `tlbinv` (R333, R319). -/
inductive WeirKind where
  | sync | windowOpen | invalidate
  deriving DecidableEq, Repr

/-- A Weir instance: its kind of arrival, its scope code 2-6 (R5) and the unit of that level it serves (for
`invalidate`, the executing core's key). -/
structure Weir where
  kind : WeirKind
  scope : Nat
  unit : Nat
  deriving DecidableEq, Repr

/-- The trap state a handler reports when it asks for a gang to be killed (R301, R342). -/
structure KillReport where
  cause : BitVec 64
  val : BitVec 64
  seq : BitVec 64
  core : CoreId
  deriving DecidableEq, Repr

/-- A stream-table entry as the STREAM service carries it (R303, R371). -/
structure StreamRequest where
  isOpen : Bool
  number : Nat
  context : Nat
  senderModule : Nat
  senderCore : Nat
  receiverModule : Nat
  receiverCore : Nat
  east : Bool
  share : Nat
  credit : Nat
  bound : Nat
  deriving DecidableEq, Repr

/-- The instructions, in the order of the table. -/
inductive Instr where
  /-- ADD (R81): Writes a + b modulo 2^64 to g_d. -/
  | add (S : Bool) (d a b : BitVec 5)
  /-- SUB (R81): Writes a - b modulo 2^64 to g_d. -/
  | sub (S : Bool) (d a b : BitVec 5)
  /-- AND (R81): Writes the bitwise and of a and b. -/
  | and (S : Bool) (d a b : BitVec 5)
  /-- OR (R81): Writes the bitwise or of a and b. -/
  | or (S : Bool) (d a b : BitVec 5)
  /-- XOR (R81): Writes the bitwise exclusive or of a and b. -/
  | xor (S : Bool) (d a b : BitVec 5)
  /-- ANDN (R81): Writes a and not b. -/
  | andn (S : Bool) (d a b : BitVec 5)
  /-- ORN (R81): Writes a or not b. -/
  | orn (S : Bool) (d a b : BitVec 5)
  /-- SHL (R81): Shifts a left by b and 63. -/
  | shl (S : Bool) (d a b : BitVec 5)
  /-- SHR (R81): Shifts a right by b and 63, zero-filled. -/
  | shr (S : Bool) (d a b : BitVec 5)
  /-- SRA (R81): Shifts a right by b and 63, filled with bit 63. -/
  | sra (S : Bool) (d a b : BitVec 5)
  /-- ROL (R81): Rotates a left by b and 63. -/
  | rol (S : Bool) (d a b : BitVec 5)
  /-- ROR (R81): Rotates a right by b and 63. -/
  | ror (S : Bool) (d a b : BitVec 5)
  /-- SLT (R81): Writes 1 if a is less than b signed, else 0. -/
  | slt (S : Bool) (d a b : BitVec 5)
  /-- SLTU (R81): Writes 1 if a is less than b unsigned, else 0. -/
  | sltu (S : Bool) (d a b : BitVec 5)
  /-- SEQ (R81): Writes 1 if a equals b, else 0. -/
  | seq (S : Bool) (d a b : BitVec 5)
  /-- SNE (R81): Writes 1 if a differs from b, else 0. -/
  | sne (S : Bool) (d a b : BitVec 5)
  /-- MIN (R81): Writes the signed minimum of a and b. -/
  | min (S : Bool) (d a b : BitVec 5)
  /-- MAX (R81): Writes the signed maximum of a and b. -/
  | max (S : Bool) (d a b : BitVec 5)
  /-- MINU (R81): Writes the unsigned minimum of a and b. -/
  | minu (S : Bool) (d a b : BitVec 5)
  /-- MAXU (R81): Writes the unsigned maximum of a and b. -/
  | maxu (S : Bool) (d a b : BitVec 5)
  /-- CLZ (R81): Counts zero bits above the highest 1 of a. -/
  | clz (S : Bool) (d a : BitVec 5)
  /-- CTZ (R81): Counts zero bits below the lowest 1 of a. -/
  | ctz (S : Bool) (d a : BitVec 5)
  /-- POPC (R81): Counts the 1 bits of a. -/
  | popc (S : Bool) (d a : BitVec 5)
  /-- BSWAP (R81): Reverses the eight bytes of a. -/
  | bswap (S : Bool) (d a : BitVec 5)
  /-- SEXT_B (R81): Sign-extends a[7:0]. -/
  | sextB (S : Bool) (d a : BitVec 5)
  /-- SEXT_H (R81): Sign-extends a[15:0]. -/
  | sextH (S : Bool) (d a : BitVec 5)
  /-- SEXT_W (R81): Sign-extends a[31:0]. -/
  | sextW (S : Bool) (d a : BitVec 5)
  /-- ZEXT_B (R81): Zero-extends a[7:0]. -/
  | zextB (S : Bool) (d a : BitVec 5)
  /-- ZEXT_H (R81): Zero-extends a[15:0]. -/
  | zextH (S : Bool) (d a : BitVec 5)
  /-- ZEXT_W (R81): Zero-extends a[31:0]. -/
  | zextW (S : Bool) (d a : BitVec 5)
  /-- MUL (R82): Writes bits [63:0] of a times b. -/
  | mul (S : Bool) (d a b : BitVec 5)
  /-- MULH (R82): Writes bits [127:64] of the signed product. -/
  | mulh (S : Bool) (d a b : BitVec 5)
  /-- MULHU (R82): Writes bits [127:64] of the unsigned product. -/
  | mulhu (S : Bool) (d a b : BitVec 5)
  /-- DIV (R82): Writes the signed quotient, with fixed results for zero divisor and overflow. -/
  | div (S : Bool) (d a b : BitVec 5)
  /-- DIVU (R82): Writes the unsigned quotient. -/
  | divu (S : Bool) (d a b : BitVec 5)
  /-- REM (R82): Writes the signed remainder. -/
  | rem (S : Bool) (d a b : BitVec 5)
  /-- REMU (R82): Writes the unsigned remainder. -/
  | remu (S : Bool) (d a b : BitVec 5)
  /-- CSEL (R85): Writes g_a or g_b untagged according to a condition on g_c. -/
  | csel (S : Bool) (d a b c : BitVec 5) (n : BitVec 4)
  /-- BFX (R86): Extracts a bit field sign-extended. -/
  | bfx (S : Bool) (d a : BitVec 5) (l : BitVec 6) (w : BitVec 7)
  /-- BFXZ (R86): Extracts a bit field zero-extended. -/
  | bfxz (S : Bool) (d a : BitVec 5) (l : BitVec 6) (w : BitVec 7)
  /-- BINS (R86): Inserts the low bits of a into a field of g_d. -/
  | bins (S : Bool) (d a : BitVec 5) (l : BitVec 6) (w : BitVec 7)
  /-- ADDI (R83): Writes a plus the sign-extended immediate. -/
  | addi (S : Bool) (d a : BitVec 5) (i : BitVec 14)
  /-- ANDI (R83): Writes a and the immediate. -/
  | andi (S : Bool) (d a : BitVec 5) (i : BitVec 14)
  /-- ORI (R83): Writes a or the immediate. -/
  | ori (S : Bool) (d a : BitVec 5) (i : BitVec 14)
  /-- XORI (R83): Writes a exclusive-or the immediate. -/
  | xori (S : Bool) (d a : BitVec 5) (i : BitVec 14)
  /-- SLTI (R83): Signed compare with the immediate. -/
  | slti (S : Bool) (d a : BitVec 5) (i : BitVec 14)
  /-- SLTIU (R83): Unsigned compare with the extended immediate. -/
  | sltiu (S : Bool) (d a : BitVec 5) (i : BitVec 14)
  /-- SHLI (R83): Shifts a left by the immediate. -/
  | shli (S : Bool) (d a : BitVec 5) (i : BitVec 14)
  /-- SHRI (R83): Shifts a right by the immediate, zero-filled. -/
  | shri (S : Bool) (d a : BitVec 5) (i : BitVec 14)
  /-- SRAI (R83): Shifts a right by the immediate, sign-filled. -/
  | srai (S : Bool) (d a : BitVec 5) (i : BitVec 14)
  /-- LUI (R84): Writes the sign-extended imm19 shifted left by 14. -/
  | lui (S : Bool) (d : BitVec 5) (i : BitVec 19)
  /-- ADDPC (R84): Writes the word address plus 4 times the immediate. -/
  | addpc (S : Bool) (d : BitVec 5) (i : BitVec 19)
  /-- BR (R87): Branches by off10 words when the condition on g_a and g_b holds. -/
  | br (S : Bool) (a b : BitVec 5) (c : BitVec 4) (o : BitVec 10)
  /-- J (R88): Jumps by off24 words. -/
  | j (S : Bool) (o : BitVec 24)
  /-- JAL (R88): Jumps by off24 words and links to g1. -/
  | jal (S : Bool) (o : BitVec 24)
  /-- JR (R89): Transfers to the address in g_a after alignment and execute checks, linking to g_d. -/
  | jr (S : Bool) (d a : BitVec 5)
  /-- SKIP (R90): Suppresses the next 1 to 8 words when the condition holds. -/
  | skip (S : Bool) (a b : BitVec 5) (c : BitVec 4) (n : BitVec 3)
  /-- LOOP (R91): Captures a body of up to 32 words and runs it count times with step rules. -/
  | loop (S : Bool) (a n : BitVec 5) (step : BitVec 32)
  /-- END (R92): Checks and then retires the core from its group after its commands complete. -/
  | endGroup (S : Bool)
  /-- TRAP (R115): Raises SYSCALL with imm19 in TRAPVAL. -/
  | trap (S : Bool) (i : BitVec 19)
  /-- CREAD_CUR (R93): Reads the cursor of g_a. -/
  | creadCur (S : Bool) (d a : BitVec 5)
  /-- CREAD_BASE (R93): Reads the base of g_a. -/
  | creadBase (S : Bool) (d a : BitVec 5)
  /-- CREAD_LEN (R93): Reads top minus base of g_a. -/
  | creadLen (S : Bool) (d a : BitVec 5)
  /-- CREAD_PERM (R93): Reads the permission bits of g_a. -/
  | creadPerm (S : Bool) (d a : BitVec 5)
  /-- CREAD_SPACE (R93): Reads the space field of g_a. -/
  | creadSpace (S : Bool) (d a : BitVec 5)
  /-- CREAD_OWNER (R93): Reads the owner field of g_a. -/
  | creadOwner (S : Bool) (d a : BitVec 5)
  /-- CREAD_TAG (R93): Reads the tag of g_a. -/
  | creadTag (S : Bool) (d a : BitVec 5)
  /-- CCOPY (R93): Copies g_a with its tag. -/
  | ccopy (S : Bool) (d a : BitVec 5)
  /-- CSTRIP (R93): Writes word 0 of g_a untagged. -/
  | cstrip (S : Bool) (d a : BitVec 5)
  /-- CSHIFT (R94): Moves the cursor by g_b, clearing the tag if not representable. -/
  | cshift (S : Bool) (d a b : BitVec 5)
  /-- CSHIFTI (R94): Moves the cursor by the immediate, clearing the tag if not representable. -/
  | cshifti (S : Bool) (d a : BitVec 5) (i : BitVec 14)
  /-- CNARROW (R95): Narrows a capability to len bytes from its cursor, rounded outwards. -/
  | cnarrow (S : Bool) (d a b : BitVec 5)
  /-- CMASK (R96): Clears permissions of a capability by a mask. -/
  | cmask (S : Bool) (d a m : BitVec 5)
  /-- CSPACE (R98): Classifies the address of g_a and reports tag and agreement. -/
  | cspace (S : Bool) (d a : BitVec 5)
  /-- CCAST (R99): Converts a capability between aliased and global windows, or yields null. -/
  | ccast (S : Bool) (d a : BitVec 5) (t : BitVec 2)
  /-- CDERIVE (R100): Creates a capability at system level from word images. -/
  | cderive (S : Bool) (d a b : BitVec 5)
  /-- LD_SB (R166): Loads a byte sign-extended. -/
  | ldSb (S : Bool) (d b : BitVec 5) (o : BitVec 14)
  /-- LD_ZB (R166): Loads a byte zero-extended. -/
  | ldZb (S : Bool) (d b : BitVec 5) (o : BitVec 14)
  /-- LD_SH (R166): Loads a half sign-extended. -/
  | ldSh (S : Bool) (d b : BitVec 5) (o : BitVec 14)
  /-- LD_ZH (R166): Loads a half zero-extended. -/
  | ldZh (S : Bool) (d b : BitVec 5) (o : BitVec 14)
  /-- LD_SW (R166): Loads a word sign-extended. -/
  | ldSw (S : Bool) (d b : BitVec 5) (o : BitVec 14)
  /-- LD_ZW (R166): Loads a word zero-extended. -/
  | ldZw (S : Bool) (d b : BitVec 5) (o : BitVec 14)
  /-- LD_D (R166): Loads a doubleword. -/
  | ldD (S : Bool) (d b : BitVec 5) (o : BitVec 14)
  /-- LD_C (R167): Loads a 16-byte granule with its tag as a capability. -/
  | ldC (S : Bool) (d b : BitVec 5) (o : BitVec 14)
  /-- ST_B (R166): Stores a byte through the store buffer. -/
  | stB (S : Bool) (d b : BitVec 5) (o : BitVec 14)
  /-- ST_H (R166): Stores a half. -/
  | stH (S : Bool) (d b : BitVec 5) (o : BitVec 14)
  /-- ST_W (R166): Stores a word. -/
  | stW (S : Bool) (d b : BitVec 5) (o : BitVec 14)
  /-- ST_D (R166): Stores a doubleword. -/
  | stD (S : Bool) (d b : BitVec 5) (o : BitVec 14)
  /-- ST_C (R167): Stores a capability and sets the granule tag. -/
  | stC (S : Bool) (d b : BitVec 5) (o : BitVec 14)
  /-- AMO_ADD (R169): Atomically adds data and returns the old value. -/
  | amoAdd (S : Bool) (d a b : BitVec 5) (z : BitVec 1)
  /-- AMO_AND (R169): Atomically ands data and returns the old value. -/
  | amoAnd (S : Bool) (d a b : BitVec 5) (z : BitVec 1)
  /-- AMO_OR (R169): Atomically ors data and returns the old value. -/
  | amoOr (S : Bool) (d a b : BitVec 5) (z : BitVec 1)
  /-- AMO_XOR (R169): Atomically exclusive-ors data and returns the old value. -/
  | amoXor (S : Bool) (d a b : BitVec 5) (z : BitVec 1)
  /-- AMO_SWAP (R169): Atomically swaps in data and returns the old value. -/
  | amoSwap (S : Bool) (d a b : BitVec 5) (z : BitVec 1)
  /-- AMO_SMAX (R169): Atomically keeps the signed maximum and returns the old value. -/
  | amoSmax (S : Bool) (d a b : BitVec 5) (z : BitVec 1)
  /-- AMO_SMIN (R169): Atomically keeps the signed minimum and returns the old value. -/
  | amoSmin (S : Bool) (d a b : BitVec 5) (z : BitVec 1)
  /-- AMO_CAS (R169): Atomically writes data if the old value equals g_d. -/
  | amoCas (S : Bool) (d a b : BitVec 5) (z : BitVec 1)
  /-- LD_ACQ (R169): Acquire load at a scope; later memory instructions wait for it. -/
  | ldAcq (S : Bool) (d a : BitVec 5) (z : BitVec 1) (p : BitVec 4)
  /-- ST_REL (R169): Release store at a scope. -/
  | stRel (S : Bool) (a b : BitVec 5) (z : BitVec 1) (p : BitVec 4)
  /-- FENCE_SL (R171): Orders earlier near stores before later loads. -/
  | fenceSl (S : Bool)
  /-- FENCE_ACQ (R171): Orders earlier loads before later accesses in scope. -/
  | fenceAcq (S : Bool) (p : BitVec 4)
  /-- FENCE_REL (R171): Orders earlier accesses in scope before later stores. -/
  | fenceRel (S : Bool) (p : BitVec 4)
  /-- FENCE_FULL (R171): Orders earlier accesses in scope before every later access. -/
  | fenceFull (S : Bool) (p : BitVec 4)
  /-- SBIND (R172): Binds an address generator to a register with a capability and descriptor. -/
  | sbind (S : Bool) (d a b : BitVec 5) (n : BitVec 2) (r : BitVec 1) (z : BitVec 2)
  /-- SUNBIND (R173): Releases a generator and returns its capability. -/
  | sunbind (S : Bool) (d : BitVec 5) (n : BitVec 2)
  /-- VINT_ADD (R265): Vector integer add modulo 2^w. -/
  | vintAdd (S : Bool) (d a b : BitVec 4) (m : BitVec 5) (t : BitVec 2)
  /-- VINT_SUB (R265): Vector integer subtract modulo 2^w. -/
  | vintSub (S : Bool) (d a b : BitVec 4) (m : BitVec 5) (t : BitVec 2)
  /-- VINT_ADDS (R265): Vector saturating add. -/
  | vintAdds (S : Bool) (d a b : BitVec 4) (m : BitVec 5) (t : BitVec 2)
  /-- VINT_SUBS (R265): Vector saturating subtract. -/
  | vintSubs (S : Bool) (d a b : BitVec 4) (m : BitVec 5) (t : BitVec 2)
  /-- VINT_MUL (R265): Vector multiply, low bits. -/
  | vintMul (S : Bool) (d a b : BitVec 4) (m : BitVec 5) (t : BitVec 2)
  /-- VINT_MULH (R265): Vector signed multiply, high bits. -/
  | vintMulh (S : Bool) (d a b : BitVec 4) (m : BitVec 5) (t : BitVec 2)
  /-- VINT_MIN (R265): Vector signed minimum. -/
  | vintMin (S : Bool) (d a b : BitVec 4) (m : BitVec 5) (t : BitVec 2)
  /-- VINT_MAX (R265): Vector signed maximum. -/
  | vintMax (S : Bool) (d a b : BitVec 4) (m : BitVec 5) (t : BitVec 2)
  /-- VINT_MINU (R265): Vector unsigned minimum. -/
  | vintMinu (S : Bool) (d a b : BitVec 4) (m : BitVec 5) (t : BitVec 2)
  /-- VINT_MAXU (R265): Vector unsigned maximum. -/
  | vintMaxu (S : Bool) (d a b : BitVec 4) (m : BitVec 5) (t : BitVec 2)
  /-- VINT_AND (R265): Vector bitwise and. -/
  | vintAnd (S : Bool) (d a b : BitVec 4) (m : BitVec 5) (t : BitVec 2)
  /-- VINT_OR (R265): Vector bitwise or. -/
  | vintOr (S : Bool) (d a b : BitVec 4) (m : BitVec 5) (t : BitVec 2)
  /-- VINT_XOR (R265): Vector bitwise exclusive or. -/
  | vintXor (S : Bool) (d a b : BitVec 4) (m : BitVec 5) (t : BitVec 2)
  /-- VINT_SHL (R265): Vector shift left. -/
  | vintShl (S : Bool) (d a b : BitVec 4) (m : BitVec 5) (t : BitVec 2)
  /-- VINT_SHR (R265): Vector logical shift right. -/
  | vintShr (S : Bool) (d a b : BitVec 4) (m : BitVec 5) (t : BitVec 2)
  /-- VINT_SRA (R265): Vector arithmetic shift right. -/
  | vintSra (S : Bool) (d a b : BitVec 4) (m : BitVec 5) (t : BitVec 2)
  /-- VINT_ABS (R265): Vector absolute value modulo 2^w. -/
  | vintAbs (S : Bool) (d a : BitVec 4) (m : BitVec 5) (t : BitVec 2)
  /-- VINT_NEG (R265): Vector negation modulo 2^w. -/
  | vintNeg (S : Bool) (d a : BitVec 4) (m : BitVec 5) (t : BitVec 2)
  /-- VFP_ADD (R266): Vector FP32 add. -/
  | vfpAdd (S : Bool) (d a b : BitVec 4) (m : BitVec 5)
  /-- VFP_SUB (R266): Vector FP32 subtract. -/
  | vfpSub (S : Bool) (d a b : BitVec 4) (m : BitVec 5)
  /-- VFP_MUL (R266): Vector FP32 multiply. -/
  | vfpMul (S : Bool) (d a b : BitVec 4) (m : BitVec 5)
  /-- VFP_FMA (R266): Vector fused multiply-add rounded once. -/
  | vfpFma (S : Bool) (d a b : BitVec 4) (m : BitVec 5)
  /-- VFP_MIN (R266): Vector FP32 minimum. -/
  | vfpMin (S : Bool) (d a b : BitVec 4) (m : BitVec 5)
  /-- VFP_MAX (R266): Vector FP32 maximum. -/
  | vfpMax (S : Bool) (d a b : BitVec 4) (m : BitVec 5)
  /-- VFP_ABS (R266): Vector FP32 absolute value. -/
  | vfpAbs (S : Bool) (d a : BitVec 4) (m : BitVec 5)
  /-- VFP_NEG (R266): Vector FP32 negation. -/
  | vfpNeg (S : Bool) (d a : BitVec 4) (m : BitVec 5)
  /-- VFP_EXP2 (R266): Vector approximate base-2 exponential. -/
  | vfpExp2 (S : Bool) (d a : BitVec 4) (m : BitVec 5)
  /-- VFP_LOG2 (R266): Vector approximate base-2 logarithm. -/
  | vfpLog2 (S : Bool) (d a : BitVec 4) (m : BitVec 5)
  /-- VFP_RECIP (R266): Vector approximate reciprocal. -/
  | vfpRecip (S : Bool) (d a : BitVec 4) (m : BitVec 5)
  /-- VFP_RSQRT (R266): Vector approximate reciprocal square root. -/
  | vfpRsqrt (S : Bool) (d a : BitVec 4) (m : BitVec 5)
  /-- VCMP (R267): Compares elements and writes a bit mask to g_d. -/
  | vcmp (S : Bool) (a b : BitVec 4) (d : BitVec 5) (t : BitVec 2) (c : BitVec 5)
  /-- VSEL (R268): Selects elements of va or vb by a mask. -/
  | vsel (S : Bool) (d a b : BitVec 4) (m : BitVec 5)
  /-- VPERM (R268): Permutes va by indices in vb. -/
  | vperm (S : Bool) (d a b : BitVec 4) (m : BitVec 5)
  /-- VBCAST (R268): Broadcasts g_s[31:0] to the elements below VL. -/
  | vbcast (S : Bool) (d : BitVec 4) (g : BitVec 5)
  /-- VSLIDE (R268): Slides elements up or down by a register amount. -/
  | vslide (S : Bool) (d a : BitVec 4) (g : BitVec 5) (u : BitVec 1)
  /-- VRED_SUM_I32 (R269): Reduces active elements by wrapping sum into vd[0]. -/
  | vredSumI32 (S : Bool) (d a : BitVec 4) (m : BitVec 5)
  /-- VRED_MIN_I32 (R269): Reduces by signed minimum. -/
  | vredMinI32 (S : Bool) (d a : BitVec 4) (m : BitVec 5)
  /-- VRED_MAX_I32 (R269): Reduces by signed maximum. -/
  | vredMaxI32 (S : Bool) (d a : BitVec 4) (m : BitVec 5)
  /-- VRED_SUM_F32 (R269): Reduces by FP32 sum in ascending order. -/
  | vredSumF32 (S : Bool) (d a : BitVec 4) (m : BitVec 5)
  /-- VRED_MIN_F32 (R269): Reduces by FP32 minimum. -/
  | vredMinF32 (S : Bool) (d a : BitVec 4) (m : BitVec 5)
  /-- VRED_MAX_F32 (R269): Reduces by FP32 maximum. -/
  | vredMaxF32 (S : Bool) (d a : BitVec 4) (m : BitVec 5)
  /-- VTOPK (R270): Keeps the best k elements with their indices and returns a mask. -/
  | vtopk (S : Bool) (d a : BitVec 4) (k : BitVec 5) (u : BitVec 1) (t : BitVec 4)
  /-- VCVT_TOBF (R271): Converts FP32 to BF16. -/
  | vcvtTobf (S : Bool) (d a : BitVec 4) (m : BitVec 5)
  /-- VCVT_FROMBF (R271): Widens BF16 to FP32. -/
  | vcvtFrombf (S : Bool) (d a : BitVec 4) (m : BitVec 5)
  /-- VCVT_ITOF (R271): Converts INT32 to FP32. -/
  | vcvtItof (S : Bool) (d a : BitVec 4) (m : BitVec 5)
  /-- VCVT_FTOI (R271): Converts FP32 to INT32 with saturation. -/
  | vcvtFtoi (S : Bool) (d a : BitVec 4) (m : BitVec 5)
  /-- VCVT_SAT8 (R271): Saturates INT32 to INT8. -/
  | vcvtSat8 (S : Bool) (d a : BitVec 4) (m : BitVec 5)
  /-- VCVT_SAT16 (R271): Saturates INT32 to INT16. -/
  | vcvtSat16 (S : Bool) (d a : BitVec 4) (m : BitVec 5)
  /-- VCVT_MXQ (R272): Quantises blocks to MXINT8 with scales to vb. -/
  | vcvtMxq (S : Bool) (d a b : BitVec 4)
  /-- VCVT_MXD (R272): Dequantises MXINT8 using scales from vb. -/
  | vcvtMxd (S : Bool) (d a b : BitVec 4)
  /-- VCVT_TDEC (R271): Decodes 8-bit codes through the decode table. -/
  | vcvtTdec (S : Bool) (d a : BitVec 4) (m : BitVec 5)
  /-- VCVT_TENC (R273): Encodes FP32 values to table codes. -/
  | vcvtTenc (S : Bool) (d a : BitVec 4) (m : BitVec 5)
  /-- VLD (R274): Loads active vector elements from memory. -/
  | vld (S : Bool) (d : BitVec 4) (b m : BitVec 5) (z : BitVec 2)
  /-- VST (R274): Stores active vector elements to memory. -/
  | vst (S : Bool) (d : BitVec 4) (b m : BitVec 5) (z : BitVec 2)
  /-- VSETVL (R275): Sets VL and returns it. -/
  | vsetvl (S : Bool) (d a : BitVec 5)
  /-- VMOVG_TO_G (R275): Moves one vector element to a g register. -/
  | vmovgToG (S : Bool) (d : BitVec 5) (v : BitVec 4) (b : BitVec 5)
  /-- VMOVG_TO_V (R275): Moves g_a[31:0] into one vector element. -/
  | vmovgToV (S : Bool) (v : BitVec 4) (a b : BitVec 5)
  /-- VECTOR_BIND (R208): The arbiter binds a queued vector instruction to a lane group, which executes it and writes results. -/
  | vectorBind (q l : Nat)
  /-- KCLR (R201): Zeroes a command register. -/
  | kclr (S : Bool) (k : BitVec 3)
  /-- KSET (R202): Writes g_a plus imm10 into a part of a command register. -/
  | kset (S : Bool) (k : BitVec 3) (a : BitVec 5) (f : BitVec 6) (i : BitVec 10)
  /-- KCAP (R203): Writes an operand slot word into a command register. -/
  | kcap (S : Bool) (k : BitVec 3) (a : BitVec 5) (w : BitVec 3) (i : BitVec 10)
  /-- PUSH (R204): Checks a command, waits for overlapping accesses and room, queues it and registers its ranges. -/
  | push (S : Bool) (k : BitVec 3) (a : BitVec 5)
  /-- GISSUE_WIDE (R237): Queues one part of a wide joint operation of the quad. -/
  | gissueWide (S : Bool) (k : BitVec 3)
  /-- GISSUE_DEEP (R237): Queues one part of a deep joint operation of the quad. -/
  | gissueDeep (S : Bool) (k : BitVec 3)
  /-- JOINT_OPERATION (R240): The joint array starts when all four parts stand at their heads, or at the common W1. -/
  | jointOperation (q : Nat)
  /-- CASCADE (R246): Enters Cascade mode at the block the capability names. -/
  | cascade (S : Bool) (a : BitVec 5)
  /-- QSAVE (R112): Saves held queues, k registers and banks into the context area. -/
  | qsave (S : Bool)
  /-- QLOAD (R112): Restores k registers, banks, FMT record and queues from the context area. -/
  | qload (S : Bool)
  /-- EVSET (R328): Sets an event bit of the own cluster as a cluster-scope release. -/
  | evset (S : Bool) (e : BitVec 8)
  /-- EVCLR (R328): Clears an event bit of the own cluster. -/
  | evclr (S : Bool) (e : BitVec 8)
  /-- EVPOST (R328): Sets an event bit of a named cluster as a module-scope release. -/
  | evpost (S : Bool) (a : BitVec 5) (e : BitVec 8)
  /-- EVENT_BIT_UPDATE (R327): Sets and clears that land on a cycle update the cluster event bits. -/
  | eventBitUpdate (q : Nat)
  /-- EVWAIT (R329): Stalls until an event bit is 1, then acquires at cluster scope. -/
  | evwait (S : Bool) (e : BitVec 8)
  /-- WSYNC (R334): Fences and arrives at the Weir of a scope, waiting for release. -/
  | wsync (S : Bool) (p : BitVec 4)
  /-- WEIR_RELEASE (R6): A Weir releases every participant after the last arrival. -/
  | weirRelease (gang : Nat) (w : Weir)
  /-- TBEGIN (R209): Waits for idle engines and arrives at the gang Weir to open a timed window. -/
  | tbegin (S : Bool)
  /-- TEND (R210): Closes the timed window in the executing core after its timed work ends. -/
  | tend (S : Bool)
  /-- TSEND (R211): Places a timed flit on the T-plane. -/
  | tsend (S : Bool) (a : BitVec 5) (c : BitVec 4) (n : BitVec 7)
  /-- TRECV (R212): Posts a timed receive on a channel. -/
  | trecv (S : Bool) (d : BitVec 5) (c : BitVec 4) (n : BitVec 7)
  /-- TIMED_FLIT_ARRIVAL (R212): A timed flit arrives and writes its posted register, or raises TIMING. -/
  | timedFlitArrival (c n : Nat)
  /-- SEND (R214): Sends an untimed message and waits for acceptance or refusal. -/
  | send (S : Bool) (a b : BitVec 5) (c : BitVec 4)
  /-- RECV (R215): Waits for and removes the head message of a channel. -/
  | recv (S : Bool) (d : BitVec 5) (c : BitVec 4)
  /-- BWAIT (R332): Stalls until a barrier object reaches the target count, then acquires. -/
  | bwait (S : Bool) (a b : BitVec 5)
  /-- BALLOC (R174): Allocates the lowest free Basin bank handle. -/
  | balloc (S : Bool) (d : BitVec 5)
  /-- BANK_ZEROING_END (R174): A newly allocated bank reads zero 16 cycles after balloc. -/
  | bankZeroingEnd (c h : Nat)
  /-- BFREE (R175): Frees a bank after the commands naming it complete. -/
  | bfree (S : Bool) (a : BitVec 5)
  /-- LAUNCH (R294): Checks a launch record and deposits a copy in a task queue. -/
  | launch (S : Bool) (d a : BitVec 5)
  /-- TASK_DEPOSIT (R295): Deposits reach the task queue manager and are ranked on their cycle. -/
  | taskDeposit (d : Nat) (ids : List Nat)
  /-- DTLOAD (R318): Loads the narrow-format decode table from an image. -/
  | dtload (S : Bool) (a : BitVec 5)
  /-- SYSRD (R116): Reads a system register into g_d. -/
  | sysrd (S : Bool) (d : BitVec 5) (n : BitVec 14)
  /-- SYSWR (R116): Writes a system register that has no row of its own. -/
  | syswr (S : Bool) (a : BitVec 5) (n : BitVec 14)
  /-- SYSWR_STATUS (R62): Writes STATUS; a set bound bit loads the generator capability from the named register. -/
  | syswrStatus (S : Bool) (a : BitVec 5)
  /-- SYSWR_PRIV (R67): Writes PRIV; clearing bit 0 drops to program level from the next word. -/
  | syswrPriv (S : Bool) (a : BitVec 5)
  /-- SYSWR_PRIVSZ (R71): Moves the private-scratch boundary, updates CTXAREA and every window-table copy. -/
  | syswrPrivsz (S : Bool) (a : BitVec 5)
  /-- SYSWR_XBASE (R131): Sets the weight-frame base and updates every window-table copy. -/
  | syswrXbase (S : Bool) (a : BitVec 5)
  /-- SYSWR_XLIMIT (R131): Sets the weight-frame limit and updates every window-table copy. -/
  | syswrXlimit (S : Bool) (a : BitVec 5)
  /-- ERET (R113): Releases held queues and returns to the interrupted level, cascade or loop. -/
  | eret (S : Bool)
  /-- TLBINV_CTX (R319): Drops every translation of a context in the scope. -/
  | tlbinvCtx (S : Bool) (a : BitVec 5) (p : BitVec 1)
  /-- TLBINV_PAGE (R319): Drops translations covering one virtual page of a context. -/
  | tlbinvPage (S : Bool) (a : BitVec 5) (p : BitVec 1)
  /-- TLBINV_ALL (R319): Drops every translation in the scope. -/
  | tlbinvAll (S : Bool) (p : BitVec 1)
  /-- WFI (R114): Parks the core at system level until a wake. -/
  | wfi (S : Bool)
  /-- WFI_WAKE (R114): A resumption, placement or kill wake restarts a parked core. -/
  | wfiWake (c : CoreId) (w : Wake)
  /-- BRK (R115): Raises BREAK with imm19 in TRAPVAL. -/
  | brk (S : Bool) (i : BitVec 19)
  /-- DLD (R176): Loads 8 bytes from the global external window on a memory core. -/
  | dld (S : Bool) (d b : BitVec 5) (o : BitVec 14)
  /-- DST (R176): Stores 8 bytes to external memory through the replay queue. -/
  | dst (S : Bool) (d b : BitVec 5) (o : BitVec 14)
  /-- DFENCE (R177): Waits until earlier dld and dst have completed. -/
  | dfence (S : Bool)
  /-- REPLAY_WALK_DONE (R178): A replay-queue walk completes: the entry performs or parks and is reported. -/
  | replayWalkDone (m : Nat)
  /-- STORE_PERFORM (R182): The store buffer performs a store or append at its home. -/
  | storePerform (c : CoreId) (n : Nat)
  /-- LOAD_RETURN (R72): A long-latency result returns and is written unless overtaken. -/
  | loadReturn (c : CoreId) (n : Nat)
  /-- TRANSLATION_WALK (R135): The walker resolves a TLB miss, sets A and D, or raises XLATE. -/
  | translationWalk (t : Translator) (va : Nat) (need : Need)
  /-- MM_T (R228): Accepted MM.T multiplies activation rows by a packed ternary tile into the Basin. -/
  | mmT (c : Nat)
  /-- MM_S (R229): Accepted MM.S multiplies activation rows by a seeded tile. -/
  | mmS (c : Nat)
  /-- DRAIN (R230): Accepted DRAIN converts cells and writes them to a slice, fold bank or Rill stream. -/
  | drain (c : Nat)
  /-- STEST (R232): Runs the slice self-test and fences failing quarters. -/
  | stest (c : Nat) (bad : BitVec 4)
  /-- SELF_TEST_INJECTION (R233): The sequencer injects a self-test between untimed operations. -/
  | selfTestInjection (c : Nat) (bad : BitVec 4)
  /-- SRCH (R235): Scores candidate seeds against an INT16 tile and writes the best. -/
  | srch (c : Nat)
  /-- RESID (R235): Subtracts one seeded term from an INT16 tile in place. -/
  | resid (c : Nat)
  /-- COPY (R277): Copies bytes between ranges in ascending lines. -/
  | copy (c : CoreId)
  /-- FILL (R277): Fills a destination with a 32-bit pattern. -/
  | fill (c : CoreId)
  /-- XFORM_PACK_TRITS (R281): Packs the signs of INT8 rows into trits. -/
  | xformPackTrits (c : CoreId)
  /-- XFORM_UNPACK (R281): Unpacks trits to INT8 values. -/
  | xformUnpack (c : CoreId)
  /-- XFORM_SWIZZLE (R281): Writes rows in the swizzled layout. -/
  | xformSwizzle (c : CoreId)
  /-- XFORM_TRANSPOSE (R281): Transposes rows and elements. -/
  | xformTranspose (c : CoreId)
  /-- XFORM_SPARSE_ENCODE (R281): Writes a sparse-chunk buffer with header and offset table. -/
  | xformSparseEncode (c : CoreId)
  /-- XFORM_SPARSE_DECODE (R282): Expands a compressed buffer at this engine's level. -/
  | xformSparseDecode (c : CoreId)
  /-- XFORM_MXINT8_QUANTISE (R281): Quantises FP32 rows to MXINT8 with a scale array. -/
  | xformMxint8Quantise (c : CoreId)
  /-- XFORM_BF16_WIDEN (R281): Widens BF16 rows to FP32. -/
  | xformBf16Widen (c : CoreId)
  /-- TERN (R283): Re-ternarises BF16 latents into packed trits and group scales in weight frames. -/
  | tern (c : CoreId)
  /-- COPY_CHUNK (R279): A copy engine finishes a chunk, counts it on the barrier, or stops there. -/
  | copyChunk (c : CoreId)
  /-- GATHER (R286): Copies indexed table rows to a destination. -/
  | gather (c : Nat)
  /-- SCATTER (R287): Writes source rows to indexed table rows. -/
  | scatter (c : Nat)
  /-- SCADD (R287): Adds source rows into indexed rows of a private copy. -/
  | scadd (c : Nat)
  /-- PAGES (R288): Fetches whole external pages through a summary side table. -/
  | pages (c : Nat)
  /-- DIPPER_BATCH (R285): The Dipper completes a batch of up to 8 entries and adds its counts. -/
  | dipperBatch (q : Nat)
  /-- MERGE (R289): Sums private copies into a destination. -/
  | merge (c : Nat)
  /-- RSEND (R304): Sends bytes as beats on a Rill stream. -/
  | rsend (c : Nat)
  /-- RRECV (R304): Writes the next bytes of a Rill stream to a destination. -/
  | rrecv (c : Nat)
  /-- RILL_BEAT_ARRIVAL (R304): A beat reaches the receiving buffer. -/
  | rillBeatArrival (sn : Nat) (beat : List (BitVec 8))
  /-- RILL_CREDIT_RETURN (R304): A unit of credit returns to the sender. -/
  | rillCreditReturn (sn : Nat)
  /-- ENGINE_COMPLETION (R225): A command completes: Sluice entries clear and its event bit is set. -/
  | engineCompletion (c : CoreId) (e : Engine) (sq : BitVec 32)
  /-- TIMING_FAULT (R206): A timed command not started by its W1 raises TIMING. -/
  | timingFault (c : Nat) (e : Engine)
  /-- GCYC_LIMIT (R209): GCYC passing 0xFFFF_FFFE in a window raises TIMING. -/
  | gcycLimit (c : Nat)
  /-- CASCADE_BLOCK_LOAD (R250): The fetcher loads and checks the next block of the chain. -/
  | cascadeBlockLoad (c : Nat)
  /-- BLOCK_MM_T (R253): An MM.T block multiplies with its payload tile. -/
  | blockMmT (c : Nat)
  /-- BLOCK_MM_S (R253): An MM.S block multiplies with its payload descriptor. -/
  | blockMmS (c : Nat)
  /-- BLOCK_DRAIN (R254): A DRAIN block drains by its routing kind. -/
  | blockDrain (c : Nat)
  /-- BLOCK_BRANCH (R255): A BRANCH block selects its successor by an event bit. -/
  | blockBranch (c : Nat)
  /-- BLOCK_YIELD (R256): A YIELD block leaves Cascade mode with g4 and g5 set. -/
  | blockYield (c : Nat)
  /-- BLOCK_END (R257): An END block frees banks and retires the core. -/
  | blockEnd (c : Nat)
  /-- BLOCK_PAD (R258): A PAD block does nothing for one cycle. -/
  | blockPad (c : Nat)
  /-- BLOCK_EVSET (R258): An EVSET block sets an event bit as a release. -/
  | blockEvset (c : Nat)
  /-- IMPRECISE_FAULT (R105): An engine fault reaches the issuing core at its next boundary. -/
  | impreciseFault (c : CoreId)
  /-- TRAP_ENTRY (R106): The core settles, holds its queues and enters the handler at TRAPVEC. -/
  | trapEntry (c : CoreId)
  /-- SINGLE_STEP (R122): STEP is taken after a word issued at program level. -/
  | singleStep (c : CoreId)
  /-- PREEMPTION_REQUEST (R117): A pre-emption request is taken as PREEMPT or answered RETIRED. -/
  | preemptionRequest (c : CoreId) (src : Requester)
  /-- GROUP_FREEZE (R119): A trap in a timed window freezes every member at cycle F. -/
  | groupFreeze (gang : Nat)
  /-- GROUP_RELEASE (R119): Resumed members are released together with GCYC at G_F. -/
  | groupRelease (gang : Nat)
  /-- FATAL_KILL (R120): The gang is killed when the faulting core waits or 65536 cycles pass. -/
  | fatalKill (gang : Nat)
  /-- PAIRDIV (R123): A checked-pair mismatch or unmatched store kills and requeues or fences the pair. -/
  | pairdiv (c addr : Nat)
  /-- CORE_RETIRE (R92): After its commands complete the core unbinds, discards messages and retires. -/
  | coreRetire (c : CoreId)
  /-- GANG_LAUNCH (R297): The manager chooses a launchable record, places its groups and starts the members. -/
  | gangLaunch (d : Nat)
  /-- STARVATION_GUARD (R297): A record ready 65536 cycles without placement becomes blocking. -/
  | starvationGuard (d queue : Nat)
  /-- GANG_RETIRE (R300): A gang retires, ORs SET into the event bits and frees its cores. -/
  | gangRetire (gang : Nat)
  /-- WATCHDOG_T1 (R302): T1 expiry requests pre-emption of every member. -/
  | watchdogT1 (gang : Nat)
  /-- WATCHDOG_T2 (R302): T2 expiry kills the gang with status 2. -/
  | watchdogT2 (gang : Nat)
  /-- WATCHDOG_T3 (R302): T3 expiry fences members that have not stopped. -/
  | watchdogT3 (gang : Nat)
  /-- GANG_RESUME (R302): The manager resumes a suspended gang. -/
  | gangResume (gang : Nat)
  /-- RING_RESERVE (R306): A launchable ring record reserves cores and sends a reservation. -/
  | ringReserve (d queue : Nat)
  /-- RING_COMMIT (R306): At tick D each module counts reservations and commits or reports status 3. -/
  | ringCommit (gang : Nat)
  /-- RING_START (R306): A committed ring gang launches at tick S. -/
  | ringStart (gang : Nat)
  /-- FAILURE_RECORD (R308): A module whose part fails sends a failure record. -/
  | failureRecord (gang : Nat)
  /-- GANGABORT (R308): On tick t+2 modules raise GANGABORT and kill their parts. -/
  | gangabort (gang : Nat)
  /-- UNCORRECTABLE_ERROR (R141): An uncorrectable error traps to the memory manager, which retires or recovers the block. -/
  | uncorrectableError (home : Nat) (c : CoreId)
  /-- ECC_RECOVERY (R141): Recovery of a block completes and the held access replays. -/
  | eccRecovery (home : Nat)
  /-- SUBMIT (R295): The host deposits a launch record into a die. -/
  | submit (d : Nat) (record : List (BitVec 8))
  /-- MREAD (R369): The host reads LPDDR6 or SRAM through the alias. -/
  | mread (pa n : Nat)
  /-- MWRITE (R369): The host writes LPDDR6 or SRAM through the alias, clearing tags. -/
  | mwrite (pa : Nat) (data : List (BitVec 8))
  /-- TORHAR_BAD_TRANSACTION (R369): An unknown transaction code is refused with BAD. -/
  | torharBadTransaction (code : Nat)
  /-- QSET (R371): Writes a queue's completion ring, limits and clears HALT. -/
  | qset (d queue qcomp t1 t2 t3 : Nat)
  /-- UNFENCE (R371): Clears a core's fence bit and MSTAT.FENCED. -/
  | unfence (d : Nat) (c : CoreId)
  /-- ROOT (R371): Writes a context's root entry. -/
  | root (d ctx frame : Nat) (valid : Bool)
  /-- CLEAN (R371): Registers a clean backing copy. -/
  | clean (d base len backing : Nat)
  /-- STREAM (R303): Opens or closes a Rill stream by admission. -/
  | stream (d : Nat) (entry : StreamRequest)
  /-- CLOCK (R375): Requests a clock point change for named dies. -/
  | clock (d : Nat) (mask : BitVec 16) (point : Nat)
  /-- CLOCK_CHANGE (R21): A die changes clock point once no timed window is open. -/
  | clockChange (d : Nat)
  /-- RINGRD (R371): Returns a command-ring entry. -/
  | ringrd (d : Nat) (c : CoreId) (sq : BitVec 32)
  /-- EVCLR_SERVICE (R371): Clears event bits of a cluster by mask between contexts. -/
  | evclrService (d cluster : Nat) (mask : BitVec 256)
  /-- HWIN (R370): Sets the base and length of a host window. -/
  | hwin (d win hbase hlen : Nat)
  /-- ATTEST (R374): Returns the signed attestation report. -/
  | attest (d : Nat) (nonce : BitVec 256)
  /-- SERVICE_UNKNOWN (R371): A service request with an unknown code gets status 1. -/
  | serviceUnknown (d code : Nat)
  /-- POWER_CHECK (R376): Every 10 ms power and temperature are checked and acted on. -/
  | powerCheck (watts : Nat) (temps : List Nat) (inlet : Nat)
  /-- MODULE_RESET (R373): Each management core runs its boot ROM and firmware steps. -/
  | moduleReset
  /-- SYSTEM_KILL_REQUEST (R342): System software, for instance the resident trap handler, asks the task queue manager to kill a gang, which then ends with completion status 1 and the reported trap state. -/
  | systemKillRequest (gang : Nat) (report : Option KillReport)
  deriving DecidableEq, Repr

end Sys2Proof
end

