-- ==== Sys2Proof/WellFormed.lean ====
section
/-! DEFINITION. Which instructions are well formed: the limits that R26 and the rules of each word put on its fields
beyond their widths. A word whose fields break them names no instruction and raises ILLEGAL (R26, R45). For the steps
without bits: indices of cores, dies, clusters and quads that the module has (R3). -/

namespace Sys2Proof

/-- R30: conditions 8-15 do not exist; conditions 6 and 7 require b = 0 in `br` and `skip`. -/
def condOk (c : BitVec 4) (b : BitVec 5) : Bool := decide (c.toNat < 8) && (decide (c.toNat < 6) || b == 0)

/-- R86: width 1-64 and lsb + width at most 64. -/
def fieldOk (l : BitVec 6) (w : BitVec 7) : Bool :=
  decide (1 ≤ w.toNat) && decide (w.toNat ≤ 64) && decide (l.toNat + w.toNat ≤ 64)

/-- R169, R171: a scope code 1-6 (R5). -/
def scopeOk (p : BitVec 4) : Bool := decide (1 ≤ p.toNat) && decide (p.toNat ≤ 6)

/-- Rule r of a step word (R33): its body index and kind. -/
def stepRule (step : BitVec 32) (r : Nat) : Nat × Nat := (bitsAt step (8 * r + 3) 5, bitsAt step (8 * r) 3)

/-- R33: a rule of kind 0 has index 0, and every index is less than the body length n + 1. -/
def stepWordOk (n : BitVec 5) (step : BitVec 32) : Bool :=
  [0, 1, 2, 3].all fun r =>
    let k := stepRule step r
    (k.2 != 0 || k.1 == 0) && decide (k.1 ≤ n.toNat)

/-- The system register numbers of R36. -/
def sysNumOk (n : Nat) : Bool :=
  decide (n ≤ 0x006) || (decide (0x010 ≤ n) && decide (n ≤ 0x015)) || (decide (0x020 ≤ n) && decide (n ≤ 0x022)) ||
    (decide (0x024 ≤ n) && decide (n ≤ 0x027)) || (decide (0x030 ≤ n) && decide (n ≤ 0x032)) || n == 0x040 || n == 0x041

/-- The numbers whose writes have a row of their own: STATUS, PRIV, PRIVSZ, XBASE, XLIMIT. -/
def sysOwnRow (n : Nat) : Bool := n == 0 || n == 1 || n == 0x013 || n == 0x040 || n == 0x041

/-- The module has this core (R3). -/
def CoreId.wf : CoreId → Bool
  | .comp n => decide (n < 2048)
  | .mem n => decide (n < 128)

/-- Every field of the instruction within the limits of its rule. -/
def Instr.wf : Instr → Bool
  | .add _ _ _ _ => true
  | .sub _ _ _ _ => true
  | .and _ _ _ _ => true
  | .or _ _ _ _ => true
  | .xor _ _ _ _ => true
  | .andn _ _ _ _ => true
  | .orn _ _ _ _ => true
  | .shl _ _ _ _ => true
  | .shr _ _ _ _ => true
  | .sra _ _ _ _ => true
  | .rol _ _ _ _ => true
  | .ror _ _ _ _ => true
  | .slt _ _ _ _ => true
  | .sltu _ _ _ _ => true
  | .seq _ _ _ _ => true
  | .sne _ _ _ _ => true
  | .min _ _ _ _ => true
  | .max _ _ _ _ => true
  | .minu _ _ _ _ => true
  | .maxu _ _ _ _ => true
  | .clz _ _ _ => true
  | .ctz _ _ _ => true
  | .popc _ _ _ => true
  | .bswap _ _ _ => true
  | .sextB _ _ _ => true
  | .sextH _ _ _ => true
  | .sextW _ _ _ => true
  | .zextB _ _ _ => true
  | .zextH _ _ _ => true
  | .zextW _ _ _ => true
  | .mul _ _ _ _ => true
  | .mulh _ _ _ _ => true
  | .mulhu _ _ _ _ => true
  | .div _ _ _ _ => true
  | .divu _ _ _ _ => true
  | .rem _ _ _ _ => true
  | .remu _ _ _ _ => true
  | .csel _ _ _ _ _ n => decide (n.toNat < 8)
  | .bfx _ _ _ l w => fieldOk l w
  | .bfxz _ _ _ l w => fieldOk l w
  | .bins _ _ _ l w => fieldOk l w
  | .addi _ _ _ _ => true
  | .andi _ _ _ _ => true
  | .ori _ _ _ _ => true
  | .xori _ _ _ _ => true
  | .slti _ _ _ _ => true
  | .sltiu _ _ _ _ => true
  | .shli _ _ _ i => decide (i.toNat < 64)
  | .shri _ _ _ i => decide (i.toNat < 64)
  | .srai _ _ _ i => decide (i.toNat < 64)
  | .lui _ _ _ => true
  | .addpc _ _ _ => true
  | .br _ _ b c _ => condOk c b
  | .j _ _ => true
  | .jal _ _ => true
  | .jr _ _ _ => true
  | .skip _ _ b c _ => condOk c b
  | .loop _ _ n step => stepWordOk n step
  | .endGroup _ => true
  | .trap _ _ => true
  | .creadCur _ _ _ => true
  | .creadBase _ _ _ => true
  | .creadLen _ _ _ => true
  | .creadPerm _ _ _ => true
  | .creadSpace _ _ _ => true
  | .creadOwner _ _ _ => true
  | .creadTag _ _ _ => true
  | .ccopy _ _ _ => true
  | .cstrip _ _ _ => true
  | .cshift _ _ _ _ => true
  | .cshifti _ _ _ _ => true
  | .cnarrow _ _ _ _ => true
  | .cmask _ _ _ _ => true
  | .cspace _ _ _ => true
  | .ccast _ _ _ _ => true
  | .cderive _ _ _ _ => true
  | .ldSb _ _ _ _ => true
  | .ldZb _ _ _ _ => true
  | .ldSh _ _ _ _ => true
  | .ldZh _ _ _ _ => true
  | .ldSw _ _ _ _ => true
  | .ldZw _ _ _ _ => true
  | .ldD _ _ _ _ => true
  | .ldC _ _ _ _ => true
  | .stB _ _ _ _ => true
  | .stH _ _ _ _ => true
  | .stW _ _ _ _ => true
  | .stD _ _ _ _ => true
  | .stC _ _ _ _ => true
  | .amoAdd _ _ _ _ _ => true
  | .amoAnd _ _ _ _ _ => true
  | .amoOr _ _ _ _ _ => true
  | .amoXor _ _ _ _ _ => true
  | .amoSwap _ _ _ _ _ => true
  | .amoSmax _ _ _ _ _ => true
  | .amoSmin _ _ _ _ _ => true
  | .amoCas _ _ _ _ _ => true
  | .ldAcq _ _ _ _ p => scopeOk p
  | .stRel _ _ _ _ p => scopeOk p
  | .fenceSl _ => true
  | .fenceAcq _ p => scopeOk p
  | .fenceRel _ p => scopeOk p
  | .fenceFull _ p => scopeOk p
  | .sbind _ d _ _ _ _ _ => decide (24 ≤ d.toNat)
  | .sunbind _ d _ => decide (24 ≤ d.toNat)
  | .vintAdd _ _ _ _ _ t => t != 3
  | .vintSub _ _ _ _ _ t => t != 3
  | .vintAdds _ _ _ _ _ t => t != 3
  | .vintSubs _ _ _ _ _ t => t != 3
  | .vintMul _ _ _ _ _ t => t != 3
  | .vintMulh _ _ _ _ _ t => t != 3
  | .vintMin _ _ _ _ _ t => t != 3
  | .vintMax _ _ _ _ _ t => t != 3
  | .vintMinu _ _ _ _ _ t => t != 3
  | .vintMaxu _ _ _ _ _ t => t != 3
  | .vintAnd _ _ _ _ _ t => t != 3
  | .vintOr _ _ _ _ _ t => t != 3
  | .vintXor _ _ _ _ _ t => t != 3
  | .vintShl _ _ _ _ _ t => t != 3
  | .vintShr _ _ _ _ _ t => t != 3
  | .vintSra _ _ _ _ _ t => t != 3
  | .vintAbs _ _ _ _ t => t != 3
  | .vintNeg _ _ _ _ t => t != 3
  | .vfpAdd _ _ _ _ _ => true
  | .vfpSub _ _ _ _ _ => true
  | .vfpMul _ _ _ _ _ => true
  | .vfpFma _ _ _ _ _ => true
  | .vfpMin _ _ _ _ _ => true
  | .vfpMax _ _ _ _ _ => true
  | .vfpAbs _ _ _ _ => true
  | .vfpNeg _ _ _ _ => true
  | .vfpExp2 _ _ _ _ => true
  | .vfpLog2 _ _ _ _ => true
  | .vfpRecip _ _ _ _ => true
  | .vfpRsqrt _ _ _ _ => true
  | .vcmp _ _ _ _ t c => (t == 0 && decide (c.toNat < 8)) || (t == 1 && decide (c.toNat < 6))
  | .vsel _ _ _ _ _ => true
  | .vperm _ _ _ _ _ => true
  | .vbcast _ _ _ => true
  | .vslide _ _ _ _ _ => true
  | .vredSumI32 _ _ _ _ => true
  | .vredMinI32 _ _ _ _ => true
  | .vredMaxI32 _ _ _ _ => true
  | .vredSumF32 _ _ _ _ => true
  | .vredMinF32 _ _ _ _ => true
  | .vredMaxF32 _ _ _ _ => true
  | .vtopk _ d _ _ _ t => decide (t.toNat < 2) && decide (d.toNat % 2 = 0) && decide (d.toNat ≤ 12)
  | .vcvtTobf _ _ _ _ => true
  | .vcvtFrombf _ _ _ _ => true
  | .vcvtItof _ _ _ _ => true
  | .vcvtFtoi _ _ _ _ => true
  | .vcvtSat8 _ _ _ _ => true
  | .vcvtSat16 _ _ _ _ => true
  | .vcvtMxq _ d _ b => b != d
  | .vcvtMxd _ d _ b => b != d
  | .vcvtTdec _ _ _ _ => true
  | .vcvtTenc _ _ _ _ => true
  | .vld _ _ _ _ z => z != 3
  | .vst _ _ _ _ z => z != 3
  | .vsetvl _ _ _ => true
  | .vmovgToG _ _ _ _ => true
  | .vmovgToV _ _ _ _ => true
  | .vectorBind q l => decide (q < 512) && decide (l < 4)
  | .kclr _ _ => true
  | .kset _ _ _ f _ => decide (f.toNat % 8 ≠ 7)
  | .kcap _ _ _ w _ => decide (2 ≤ w.toNat)
  | .push _ _ _ => true
  | .gissueWide _ _ => true
  | .gissueDeep _ _ => true
  | .jointOperation q => decide (q < 512)
  | .cascade _ _ => true
  | .qsave _ => true
  | .qload _ => true
  | .evset _ _ => true
  | .evclr _ _ => true
  | .evpost _ _ _ => true
  | .eventBitUpdate q => decide (q < 128)
  | .evwait _ _ => true
  | .wsync _ p => decide (2 ≤ p.toNat) && decide (p.toNat ≤ 6)
  | .weirRelease _ _ => true
  | .tbegin _ => true
  | .tend _ => true
  | .tsend _ _ _ _ => true
  | .trecv _ _ _ _ => true
  | .timedFlitArrival c _ => decide (c < 2048)
  | .send _ _ _ _ => true
  | .recv _ _ _ => true
  | .bwait _ _ _ => true
  | .balloc _ _ => true
  | .bankZeroingEnd c h => decide (c < 2048) && decide (h < 32)
  | .bfree _ _ => true
  | .launch _ _ _ => true
  | .taskDeposit d _ => decide (d < 16)
  | .dtload _ _ => true
  | .sysrd _ _ n => sysNumOk n.toNat
  | .syswr _ _ n => sysNumOk n.toNat && !sysOwnRow n.toNat
  | .syswrStatus _ _ => true
  | .syswrPriv _ _ => true
  | .syswrPrivsz _ _ => true
  | .syswrXbase _ _ => true
  | .syswrXlimit _ _ => true
  | .eret _ => true
  | .tlbinvCtx _ _ _ => true
  | .tlbinvPage _ _ _ => true
  | .tlbinvAll _ _ => true
  | .wfi _ => true
  | .wfiWake c _ => c.wf
  | .brk _ _ => true
  | .dld _ _ _ _ => true
  | .dst _ _ _ _ => true
  | .dfence _ => true
  | .replayWalkDone m => decide (m < 128)
  | .storePerform c _ => c.wf
  | .loadReturn c _ => c.wf
  | .translationWalk _ _ _ => true
  | .mmT c => decide (c < 2048)
  | .mmS c => decide (c < 2048)
  | .drain c => decide (c < 2048)
  | .stest c _ => decide (c < 2048)
  | .selfTestInjection c _ => decide (c < 2048)
  | .srch c => decide (c < 2048)
  | .resid c => decide (c < 2048)
  | .copy c => c.wf
  | .fill c => c.wf
  | .xformPackTrits c => c.wf
  | .xformUnpack c => c.wf
  | .xformSwizzle c => c.wf
  | .xformTranspose c => c.wf
  | .xformSparseEncode c => c.wf
  | .xformSparseDecode c => c.wf
  | .xformMxint8Quantise c => c.wf
  | .xformBf16Widen c => c.wf
  | .tern c => c.wf
  | .copyChunk c => c.wf
  | .gather c => decide (c < 2048)
  | .scatter c => decide (c < 2048)
  | .scadd c => decide (c < 2048)
  | .pages c => decide (c < 2048)
  | .dipperBatch q => decide (q < 128)
  | .merge c => decide (c < 2048)
  | .rsend c => decide (c < 2048)
  | .rrecv c => decide (c < 2048)
  | .rillBeatArrival sn beat => decide (sn < 65536) && decide (beat.length = 64)
  | .rillCreditReturn sn => decide (sn < 65536)
  | .engineCompletion c _ _ => c.wf
  | .timingFault c _ => decide (c < 2048)
  | .gcycLimit c => decide (c < 2048)
  | .cascadeBlockLoad c => decide (c < 2048)
  | .blockMmT c => decide (c < 2048)
  | .blockMmS c => decide (c < 2048)
  | .blockDrain c => decide (c < 2048)
  | .blockBranch c => decide (c < 2048)
  | .blockYield c => decide (c < 2048)
  | .blockEnd c => decide (c < 2048)
  | .blockPad c => decide (c < 2048)
  | .blockEvset c => decide (c < 2048)
  | .impreciseFault c => c.wf
  | .trapEntry c => c.wf
  | .singleStep c => c.wf
  | .preemptionRequest c _ => c.wf
  | .groupFreeze _ => true
  | .groupRelease _ => true
  | .fatalKill _ => true
  | .pairdiv c _ => decide (c < 2048)
  | .coreRetire c => c.wf
  | .gangLaunch d => decide (d < 16)
  | .starvationGuard d queue => decide (d < 16) && decide (queue < 16)
  | .gangRetire _ => true
  | .watchdogT1 _ => true
  | .watchdogT2 _ => true
  | .watchdogT3 _ => true
  | .gangResume _ => true
  | .ringReserve d queue => decide (d < 16) && decide (queue < 16)
  | .ringCommit _ => true
  | .ringStart _ => true
  | .failureRecord _ => true
  | .gangabort _ => true
  | .uncorrectableError _ c => c.wf
  | .eccRecovery _ => true
  | .submit d record => decide (d < 16) && decide (record.length = 128)
  | .mread _ _ => true
  | .mwrite _ _ => true
  | .torharBadTransaction _ => true
  | .qset d _ _ _ _ _ => decide (d < 16)
  | .unfence d c => decide (d < 16) && c.wf
  | .root d _ _ _ => decide (d < 16)
  | .clean d _ _ _ => decide (d < 16)
  | .stream d _ => decide (d < 16)
  | .clock d _ _ => decide (d < 16)
  | .clockChange d => decide (d < 16)
  | .ringrd d c _ => decide (d < 16) && c.wf
  | .evclrService d _ _ => decide (d < 16)
  | .hwin d _ _ _ => decide (d < 16)
  | .attest d _ => decide (d < 16)
  | .serviceUnknown d _ => decide (d < 16)
  | .powerCheck _ _ _ => true
  | .moduleReset => true
  | .systemKillRequest _ _ => true

/-- The row is a word of a program (R24, R33), not a step of an engine, a manager or the host. -/
def Instr.isWord : Instr → Bool
  | .add _ _ _ _ => true
  | .sub _ _ _ _ => true
  | .and _ _ _ _ => true
  | .or _ _ _ _ => true
  | .xor _ _ _ _ => true
  | .andn _ _ _ _ => true
  | .orn _ _ _ _ => true
  | .shl _ _ _ _ => true
  | .shr _ _ _ _ => true
  | .sra _ _ _ _ => true
  | .rol _ _ _ _ => true
  | .ror _ _ _ _ => true
  | .slt _ _ _ _ => true
  | .sltu _ _ _ _ => true
  | .seq _ _ _ _ => true
  | .sne _ _ _ _ => true
  | .min _ _ _ _ => true
  | .max _ _ _ _ => true
  | .minu _ _ _ _ => true
  | .maxu _ _ _ _ => true
  | .clz _ _ _ => true
  | .ctz _ _ _ => true
  | .popc _ _ _ => true
  | .bswap _ _ _ => true
  | .sextB _ _ _ => true
  | .sextH _ _ _ => true
  | .sextW _ _ _ => true
  | .zextB _ _ _ => true
  | .zextH _ _ _ => true
  | .zextW _ _ _ => true
  | .mul _ _ _ _ => true
  | .mulh _ _ _ _ => true
  | .mulhu _ _ _ _ => true
  | .div _ _ _ _ => true
  | .divu _ _ _ _ => true
  | .rem _ _ _ _ => true
  | .remu _ _ _ _ => true
  | .csel _ _ _ _ _ _ => true
  | .bfx _ _ _ _ _ => true
  | .bfxz _ _ _ _ _ => true
  | .bins _ _ _ _ _ => true
  | .addi _ _ _ _ => true
  | .andi _ _ _ _ => true
  | .ori _ _ _ _ => true
  | .xori _ _ _ _ => true
  | .slti _ _ _ _ => true
  | .sltiu _ _ _ _ => true
  | .shli _ _ _ _ => true
  | .shri _ _ _ _ => true
  | .srai _ _ _ _ => true
  | .lui _ _ _ => true
  | .addpc _ _ _ => true
  | .br _ _ _ _ _ => true
  | .j _ _ => true
  | .jal _ _ => true
  | .jr _ _ _ => true
  | .skip _ _ _ _ _ => true
  | .loop _ _ _ _ => true
  | .endGroup _ => true
  | .trap _ _ => true
  | .creadCur _ _ _ => true
  | .creadBase _ _ _ => true
  | .creadLen _ _ _ => true
  | .creadPerm _ _ _ => true
  | .creadSpace _ _ _ => true
  | .creadOwner _ _ _ => true
  | .creadTag _ _ _ => true
  | .ccopy _ _ _ => true
  | .cstrip _ _ _ => true
  | .cshift _ _ _ _ => true
  | .cshifti _ _ _ _ => true
  | .cnarrow _ _ _ _ => true
  | .cmask _ _ _ _ => true
  | .cspace _ _ _ => true
  | .ccast _ _ _ _ => true
  | .cderive _ _ _ _ => true
  | .ldSb _ _ _ _ => true
  | .ldZb _ _ _ _ => true
  | .ldSh _ _ _ _ => true
  | .ldZh _ _ _ _ => true
  | .ldSw _ _ _ _ => true
  | .ldZw _ _ _ _ => true
  | .ldD _ _ _ _ => true
  | .ldC _ _ _ _ => true
  | .stB _ _ _ _ => true
  | .stH _ _ _ _ => true
  | .stW _ _ _ _ => true
  | .stD _ _ _ _ => true
  | .stC _ _ _ _ => true
  | .amoAdd _ _ _ _ _ => true
  | .amoAnd _ _ _ _ _ => true
  | .amoOr _ _ _ _ _ => true
  | .amoXor _ _ _ _ _ => true
  | .amoSwap _ _ _ _ _ => true
  | .amoSmax _ _ _ _ _ => true
  | .amoSmin _ _ _ _ _ => true
  | .amoCas _ _ _ _ _ => true
  | .ldAcq _ _ _ _ _ => true
  | .stRel _ _ _ _ _ => true
  | .fenceSl _ => true
  | .fenceAcq _ _ => true
  | .fenceRel _ _ => true
  | .fenceFull _ _ => true
  | .sbind _ _ _ _ _ _ _ => true
  | .sunbind _ _ _ => true
  | .vintAdd _ _ _ _ _ _ => true
  | .vintSub _ _ _ _ _ _ => true
  | .vintAdds _ _ _ _ _ _ => true
  | .vintSubs _ _ _ _ _ _ => true
  | .vintMul _ _ _ _ _ _ => true
  | .vintMulh _ _ _ _ _ _ => true
  | .vintMin _ _ _ _ _ _ => true
  | .vintMax _ _ _ _ _ _ => true
  | .vintMinu _ _ _ _ _ _ => true
  | .vintMaxu _ _ _ _ _ _ => true
  | .vintAnd _ _ _ _ _ _ => true
  | .vintOr _ _ _ _ _ _ => true
  | .vintXor _ _ _ _ _ _ => true
  | .vintShl _ _ _ _ _ _ => true
  | .vintShr _ _ _ _ _ _ => true
  | .vintSra _ _ _ _ _ _ => true
  | .vintAbs _ _ _ _ _ => true
  | .vintNeg _ _ _ _ _ => true
  | .vfpAdd _ _ _ _ _ => true
  | .vfpSub _ _ _ _ _ => true
  | .vfpMul _ _ _ _ _ => true
  | .vfpFma _ _ _ _ _ => true
  | .vfpMin _ _ _ _ _ => true
  | .vfpMax _ _ _ _ _ => true
  | .vfpAbs _ _ _ _ => true
  | .vfpNeg _ _ _ _ => true
  | .vfpExp2 _ _ _ _ => true
  | .vfpLog2 _ _ _ _ => true
  | .vfpRecip _ _ _ _ => true
  | .vfpRsqrt _ _ _ _ => true
  | .vcmp _ _ _ _ _ _ => true
  | .vsel _ _ _ _ _ => true
  | .vperm _ _ _ _ _ => true
  | .vbcast _ _ _ => true
  | .vslide _ _ _ _ _ => true
  | .vredSumI32 _ _ _ _ => true
  | .vredMinI32 _ _ _ _ => true
  | .vredMaxI32 _ _ _ _ => true
  | .vredSumF32 _ _ _ _ => true
  | .vredMinF32 _ _ _ _ => true
  | .vredMaxF32 _ _ _ _ => true
  | .vtopk _ _ _ _ _ _ => true
  | .vcvtTobf _ _ _ _ => true
  | .vcvtFrombf _ _ _ _ => true
  | .vcvtItof _ _ _ _ => true
  | .vcvtFtoi _ _ _ _ => true
  | .vcvtSat8 _ _ _ _ => true
  | .vcvtSat16 _ _ _ _ => true
  | .vcvtMxq _ _ _ _ => true
  | .vcvtMxd _ _ _ _ => true
  | .vcvtTdec _ _ _ _ => true
  | .vcvtTenc _ _ _ _ => true
  | .vld _ _ _ _ _ => true
  | .vst _ _ _ _ _ => true
  | .vsetvl _ _ _ => true
  | .vmovgToG _ _ _ _ => true
  | .vmovgToV _ _ _ _ => true
  | .vectorBind _ _ => false
  | .kclr _ _ => true
  | .kset _ _ _ _ _ => true
  | .kcap _ _ _ _ _ => true
  | .push _ _ _ => true
  | .gissueWide _ _ => true
  | .gissueDeep _ _ => true
  | .jointOperation _ => false
  | .cascade _ _ => true
  | .qsave _ => true
  | .qload _ => true
  | .evset _ _ => true
  | .evclr _ _ => true
  | .evpost _ _ _ => true
  | .eventBitUpdate _ => false
  | .evwait _ _ => true
  | .wsync _ _ => true
  | .weirRelease _ _ => false
  | .tbegin _ => true
  | .tend _ => true
  | .tsend _ _ _ _ => true
  | .trecv _ _ _ _ => true
  | .timedFlitArrival _ _ => false
  | .send _ _ _ _ => true
  | .recv _ _ _ => true
  | .bwait _ _ _ => true
  | .balloc _ _ => true
  | .bankZeroingEnd _ _ => false
  | .bfree _ _ => true
  | .launch _ _ _ => true
  | .taskDeposit _ _ => false
  | .dtload _ _ => true
  | .sysrd _ _ _ => true
  | .syswr _ _ _ => true
  | .syswrStatus _ _ => true
  | .syswrPriv _ _ => true
  | .syswrPrivsz _ _ => true
  | .syswrXbase _ _ => true
  | .syswrXlimit _ _ => true
  | .eret _ => true
  | .tlbinvCtx _ _ _ => true
  | .tlbinvPage _ _ _ => true
  | .tlbinvAll _ _ => true
  | .wfi _ => true
  | .wfiWake _ _ => false
  | .brk _ _ => true
  | .dld _ _ _ _ => true
  | .dst _ _ _ _ => true
  | .dfence _ => true
  | .replayWalkDone _ => false
  | .storePerform _ _ => false
  | .loadReturn _ _ => false
  | .translationWalk _ _ _ => false
  | .mmT _ => false
  | .mmS _ => false
  | .drain _ => false
  | .stest _ _ => false
  | .selfTestInjection _ _ => false
  | .srch _ => false
  | .resid _ => false
  | .copy _ => false
  | .fill _ => false
  | .xformPackTrits _ => false
  | .xformUnpack _ => false
  | .xformSwizzle _ => false
  | .xformTranspose _ => false
  | .xformSparseEncode _ => false
  | .xformSparseDecode _ => false
  | .xformMxint8Quantise _ => false
  | .xformBf16Widen _ => false
  | .tern _ => false
  | .copyChunk _ => false
  | .gather _ => false
  | .scatter _ => false
  | .scadd _ => false
  | .pages _ => false
  | .dipperBatch _ => false
  | .merge _ => false
  | .rsend _ => false
  | .rrecv _ => false
  | .rillBeatArrival _ _ => false
  | .rillCreditReturn _ => false
  | .engineCompletion _ _ _ => false
  | .timingFault _ _ => false
  | .gcycLimit _ => false
  | .cascadeBlockLoad _ => false
  | .blockMmT _ => false
  | .blockMmS _ => false
  | .blockDrain _ => false
  | .blockBranch _ => false
  | .blockYield _ => false
  | .blockEnd _ => false
  | .blockPad _ => false
  | .blockEvset _ => false
  | .impreciseFault _ => false
  | .trapEntry _ => false
  | .singleStep _ => false
  | .preemptionRequest _ _ => false
  | .groupFreeze _ => false
  | .groupRelease _ => false
  | .fatalKill _ => false
  | .pairdiv _ _ => false
  | .coreRetire _ => false
  | .gangLaunch _ => false
  | .starvationGuard _ _ => false
  | .gangRetire _ => false
  | .watchdogT1 _ => false
  | .watchdogT2 _ => false
  | .watchdogT3 _ => false
  | .gangResume _ => false
  | .ringReserve _ _ => false
  | .ringCommit _ => false
  | .ringStart _ => false
  | .failureRecord _ => false
  | .gangabort _ => false
  | .uncorrectableError _ _ => false
  | .eccRecovery _ => false
  | .submit _ _ => false
  | .mread _ _ => false
  | .mwrite _ _ => false
  | .torharBadTransaction _ => false
  | .qset _ _ _ _ _ _ => false
  | .unfence _ _ => false
  | .root _ _ _ _ => false
  | .clean _ _ _ _ => false
  | .stream _ _ => false
  | .clock _ _ _ => false
  | .clockChange _ => false
  | .ringrd _ _ _ => false
  | .evclrService _ _ _ => false
  | .hwin _ _ _ _ => false
  | .attest _ _ => false
  | .serviceUnknown _ _ => false
  | .powerCheck _ _ _ => false
  | .moduleReset => false
  | .systemKillRequest _ _ => false

end Sys2Proof
end

