-- ==== Sys2Proof/Decode.lean ====
section
/-! DEFINITION. Decoding a word of a program (R24 to R36) and the encoder beside it. A word that names nothing assigned,
or breaks a limit of `Instr.wf`, is refused by name and raises ILLEGAL where it issues (R26, R45). -/

namespace Sys2Proof

/-- Why a word names no instruction (R26, R45). -/
inductive DecodeError where
  /-- The opcode is absent from the table of R28. -/
  | opcode
  /-- The opcode exists, and its function, sub-op or must-be-zero fields name nothing (R26). -/
  | field
  /-- A field is outside the limits of its rule (`Instr.wf`). -/
  | limit
  deriving DecidableEq, Repr

/-- The words of opcode 0x01: ADD, SUB, AND, OR and others (R28). -/
def decodeOp01 (w : BitVec 32) : Option Instr :=
  if w.extractLsb' 0 9 = 0x0#9 then some (.add (w.getLsbD 31) (w.extractLsb' 19 5) (w.extractLsb' 14 5) (w.extractLsb' 9 5)) else
  if w.extractLsb' 0 9 = 0x1#9 then some (.sub (w.getLsbD 31) (w.extractLsb' 19 5) (w.extractLsb' 14 5) (w.extractLsb' 9 5)) else
  if w.extractLsb' 0 9 = 0x2#9 then some (.and (w.getLsbD 31) (w.extractLsb' 19 5) (w.extractLsb' 14 5) (w.extractLsb' 9 5)) else
  if w.extractLsb' 0 9 = 0x3#9 then some (.or (w.getLsbD 31) (w.extractLsb' 19 5) (w.extractLsb' 14 5) (w.extractLsb' 9 5)) else
  if w.extractLsb' 0 9 = 0x4#9 then some (.xor (w.getLsbD 31) (w.extractLsb' 19 5) (w.extractLsb' 14 5) (w.extractLsb' 9 5)) else
  if w.extractLsb' 0 9 = 0x5#9 then some (.andn (w.getLsbD 31) (w.extractLsb' 19 5) (w.extractLsb' 14 5) (w.extractLsb' 9 5)) else
  if w.extractLsb' 0 9 = 0x6#9 then some (.orn (w.getLsbD 31) (w.extractLsb' 19 5) (w.extractLsb' 14 5) (w.extractLsb' 9 5)) else
  if w.extractLsb' 0 9 = 0x7#9 then some (.shl (w.getLsbD 31) (w.extractLsb' 19 5) (w.extractLsb' 14 5) (w.extractLsb' 9 5)) else
  if w.extractLsb' 0 9 = 0x8#9 then some (.shr (w.getLsbD 31) (w.extractLsb' 19 5) (w.extractLsb' 14 5) (w.extractLsb' 9 5)) else
  if w.extractLsb' 0 9 = 0x9#9 then some (.sra (w.getLsbD 31) (w.extractLsb' 19 5) (w.extractLsb' 14 5) (w.extractLsb' 9 5)) else
  if w.extractLsb' 0 9 = 0xA#9 then some (.rol (w.getLsbD 31) (w.extractLsb' 19 5) (w.extractLsb' 14 5) (w.extractLsb' 9 5)) else
  if w.extractLsb' 0 9 = 0xB#9 then some (.ror (w.getLsbD 31) (w.extractLsb' 19 5) (w.extractLsb' 14 5) (w.extractLsb' 9 5)) else
  if w.extractLsb' 0 9 = 0xC#9 then some (.slt (w.getLsbD 31) (w.extractLsb' 19 5) (w.extractLsb' 14 5) (w.extractLsb' 9 5)) else
  if w.extractLsb' 0 9 = 0xD#9 then some (.sltu (w.getLsbD 31) (w.extractLsb' 19 5) (w.extractLsb' 14 5) (w.extractLsb' 9 5)) else
  if w.extractLsb' 0 9 = 0xE#9 then some (.seq (w.getLsbD 31) (w.extractLsb' 19 5) (w.extractLsb' 14 5) (w.extractLsb' 9 5)) else
  if w.extractLsb' 0 9 = 0xF#9 then some (.sne (w.getLsbD 31) (w.extractLsb' 19 5) (w.extractLsb' 14 5) (w.extractLsb' 9 5)) else
  if w.extractLsb' 0 9 = 0x10#9 then some (.min (w.getLsbD 31) (w.extractLsb' 19 5) (w.extractLsb' 14 5) (w.extractLsb' 9 5)) else
  if w.extractLsb' 0 9 = 0x11#9 then some (.max (w.getLsbD 31) (w.extractLsb' 19 5) (w.extractLsb' 14 5) (w.extractLsb' 9 5)) else
  if w.extractLsb' 0 9 = 0x12#9 then some (.minu (w.getLsbD 31) (w.extractLsb' 19 5) (w.extractLsb' 14 5) (w.extractLsb' 9 5)) else
  if w.extractLsb' 0 9 = 0x13#9 then some (.maxu (w.getLsbD 31) (w.extractLsb' 19 5) (w.extractLsb' 14 5) (w.extractLsb' 9 5)) else
  if w.extractLsb' 0 9 = 0x14#9 ∧ w.extractLsb' 9 5 = 0x0#5 then some (.clz (w.getLsbD 31) (w.extractLsb' 19 5) (w.extractLsb' 14 5)) else
  if w.extractLsb' 0 9 = 0x15#9 ∧ w.extractLsb' 9 5 = 0x0#5 then some (.ctz (w.getLsbD 31) (w.extractLsb' 19 5) (w.extractLsb' 14 5)) else
  if w.extractLsb' 0 9 = 0x16#9 ∧ w.extractLsb' 9 5 = 0x0#5 then some (.popc (w.getLsbD 31) (w.extractLsb' 19 5) (w.extractLsb' 14 5)) else
  if w.extractLsb' 0 9 = 0x17#9 ∧ w.extractLsb' 9 5 = 0x0#5 then some (.bswap (w.getLsbD 31) (w.extractLsb' 19 5) (w.extractLsb' 14 5)) else
  if w.extractLsb' 0 9 = 0x18#9 ∧ w.extractLsb' 9 5 = 0x0#5 then some (.sextB (w.getLsbD 31) (w.extractLsb' 19 5) (w.extractLsb' 14 5)) else
  if w.extractLsb' 0 9 = 0x19#9 ∧ w.extractLsb' 9 5 = 0x0#5 then some (.sextH (w.getLsbD 31) (w.extractLsb' 19 5) (w.extractLsb' 14 5)) else
  if w.extractLsb' 0 9 = 0x1A#9 ∧ w.extractLsb' 9 5 = 0x0#5 then some (.sextW (w.getLsbD 31) (w.extractLsb' 19 5) (w.extractLsb' 14 5)) else
  if w.extractLsb' 0 9 = 0x1B#9 ∧ w.extractLsb' 9 5 = 0x0#5 then some (.zextB (w.getLsbD 31) (w.extractLsb' 19 5) (w.extractLsb' 14 5)) else
  if w.extractLsb' 0 9 = 0x1C#9 ∧ w.extractLsb' 9 5 = 0x0#5 then some (.zextH (w.getLsbD 31) (w.extractLsb' 19 5) (w.extractLsb' 14 5)) else
  if w.extractLsb' 0 9 = 0x1D#9 ∧ w.extractLsb' 9 5 = 0x0#5 then some (.zextW (w.getLsbD 31) (w.extractLsb' 19 5) (w.extractLsb' 14 5)) else
  none

/-- The words of opcode 0x02: MUL, MULH, MULHU, DIV and others (R28). -/
def decodeOp02 (w : BitVec 32) : Option Instr :=
  if w.extractLsb' 0 9 = 0x0#9 then some (.mul (w.getLsbD 31) (w.extractLsb' 19 5) (w.extractLsb' 14 5) (w.extractLsb' 9 5)) else
  if w.extractLsb' 0 9 = 0x1#9 then some (.mulh (w.getLsbD 31) (w.extractLsb' 19 5) (w.extractLsb' 14 5) (w.extractLsb' 9 5)) else
  if w.extractLsb' 0 9 = 0x2#9 then some (.mulhu (w.getLsbD 31) (w.extractLsb' 19 5) (w.extractLsb' 14 5) (w.extractLsb' 9 5)) else
  if w.extractLsb' 0 9 = 0x3#9 then some (.div (w.getLsbD 31) (w.extractLsb' 19 5) (w.extractLsb' 14 5) (w.extractLsb' 9 5)) else
  if w.extractLsb' 0 9 = 0x4#9 then some (.divu (w.getLsbD 31) (w.extractLsb' 19 5) (w.extractLsb' 14 5) (w.extractLsb' 9 5)) else
  if w.extractLsb' 0 9 = 0x5#9 then some (.rem (w.getLsbD 31) (w.extractLsb' 19 5) (w.extractLsb' 14 5) (w.extractLsb' 9 5)) else
  if w.extractLsb' 0 9 = 0x6#9 then some (.remu (w.getLsbD 31) (w.extractLsb' 19 5) (w.extractLsb' 14 5) (w.extractLsb' 9 5)) else
  none

/-- The words of opcode 0x03: CSEL (R28). -/
def decodeOp03 (w : BitVec 32) : Option Instr :=
  some (.csel (w.getLsbD 31) (w.extractLsb' 19 5) (w.extractLsb' 14 5) (w.extractLsb' 9 5) (w.extractLsb' 4 5) (w.extractLsb' 0 4))

/-- The words of opcode 0x04: BFX (R28). -/
def decodeOp04 (w : BitVec 32) : Option Instr :=
  if w.extractLsb' 7 1 = 0x0#1 then some (.bfx (w.getLsbD 31) (w.extractLsb' 19 5) (w.extractLsb' 14 5) (w.extractLsb' 8 6) (w.extractLsb' 0 7)) else
  none

/-- The words of opcode 0x05: BFXZ (R28). -/
def decodeOp05 (w : BitVec 32) : Option Instr :=
  if w.extractLsb' 7 1 = 0x0#1 then some (.bfxz (w.getLsbD 31) (w.extractLsb' 19 5) (w.extractLsb' 14 5) (w.extractLsb' 8 6) (w.extractLsb' 0 7)) else
  none

/-- The words of opcode 0x06: BINS (R28). -/
def decodeOp06 (w : BitVec 32) : Option Instr :=
  if w.extractLsb' 7 1 = 0x0#1 then some (.bins (w.getLsbD 31) (w.extractLsb' 19 5) (w.extractLsb' 14 5) (w.extractLsb' 8 6) (w.extractLsb' 0 7)) else
  none

/-- The words of opcode 0x08: ADDI (R28). -/
def decodeOp08 (w : BitVec 32) : Option Instr :=
  some (.addi (w.getLsbD 31) (w.extractLsb' 19 5) (w.extractLsb' 14 5) (w.extractLsb' 0 14))

/-- The words of opcode 0x09: ANDI (R28). -/
def decodeOp09 (w : BitVec 32) : Option Instr :=
  some (.andi (w.getLsbD 31) (w.extractLsb' 19 5) (w.extractLsb' 14 5) (w.extractLsb' 0 14))

/-- The words of opcode 0x0A: ORI (R28). -/
def decodeOp0A (w : BitVec 32) : Option Instr :=
  some (.ori (w.getLsbD 31) (w.extractLsb' 19 5) (w.extractLsb' 14 5) (w.extractLsb' 0 14))

/-- The words of opcode 0x0B: XORI (R28). -/
def decodeOp0B (w : BitVec 32) : Option Instr :=
  some (.xori (w.getLsbD 31) (w.extractLsb' 19 5) (w.extractLsb' 14 5) (w.extractLsb' 0 14))

/-- The words of opcode 0x0C: SLTI (R28). -/
def decodeOp0C (w : BitVec 32) : Option Instr :=
  some (.slti (w.getLsbD 31) (w.extractLsb' 19 5) (w.extractLsb' 14 5) (w.extractLsb' 0 14))

/-- The words of opcode 0x0D: SLTIU (R28). -/
def decodeOp0D (w : BitVec 32) : Option Instr :=
  some (.sltiu (w.getLsbD 31) (w.extractLsb' 19 5) (w.extractLsb' 14 5) (w.extractLsb' 0 14))

/-- The words of opcode 0x0E: SHLI (R28). -/
def decodeOp0E (w : BitVec 32) : Option Instr :=
  some (.shli (w.getLsbD 31) (w.extractLsb' 19 5) (w.extractLsb' 14 5) (w.extractLsb' 0 14))

/-- The words of opcode 0x0F: SHRI (R28). -/
def decodeOp0F (w : BitVec 32) : Option Instr :=
  some (.shri (w.getLsbD 31) (w.extractLsb' 19 5) (w.extractLsb' 14 5) (w.extractLsb' 0 14))

/-- The words of opcode 0x10: SRAI (R28). -/
def decodeOp10 (w : BitVec 32) : Option Instr :=
  some (.srai (w.getLsbD 31) (w.extractLsb' 19 5) (w.extractLsb' 14 5) (w.extractLsb' 0 14))

/-- The words of opcode 0x11: LUI (R28). -/
def decodeOp11 (w : BitVec 32) : Option Instr :=
  some (.lui (w.getLsbD 31) (w.extractLsb' 19 5) (w.extractLsb' 0 19))

/-- The words of opcode 0x12: ADDPC (R28). -/
def decodeOp12 (w : BitVec 32) : Option Instr :=
  some (.addpc (w.getLsbD 31) (w.extractLsb' 19 5) (w.extractLsb' 0 19))

/-- The words of opcode 0x18: BR (R28). -/
def decodeOp18 (w : BitVec 32) : Option Instr :=
  some (.br (w.getLsbD 31) (w.extractLsb' 19 5) (w.extractLsb' 14 5) (w.extractLsb' 10 4) (w.extractLsb' 0 10))

/-- The words of opcode 0x19: J (R28). -/
def decodeOp19 (w : BitVec 32) : Option Instr :=
  some (.j (w.getLsbD 31) (w.extractLsb' 0 24))

/-- The words of opcode 0x1A: JAL (R28). -/
def decodeOp1A (w : BitVec 32) : Option Instr :=
  some (.jal (w.getLsbD 31) (w.extractLsb' 0 24))

/-- The words of opcode 0x1B: JR (R28). -/
def decodeOp1B (w : BitVec 32) : Option Instr :=
  if w.extractLsb' 0 14 = 0x0#14 then some (.jr (w.getLsbD 31) (w.extractLsb' 19 5) (w.extractLsb' 14 5)) else
  none

/-- The words of opcode 0x1C: SKIP (R28). -/
def decodeOp1C (w : BitVec 32) : Option Instr :=
  if w.extractLsb' 3 7 = 0x0#7 then some (.skip (w.getLsbD 31) (w.extractLsb' 19 5) (w.extractLsb' 14 5) (w.extractLsb' 10 4) (w.extractLsb' 0 3)) else
  none

/-- The words of opcode 0x1D: LOOP (R28). -/
def decodeOp1D (w w2 : BitVec 32) : Option Instr :=
  if w.extractLsb' 5 9 = 0x0#9 ∧ w.extractLsb' 19 5 = 0x0#5 then some (.loop (w.getLsbD 31) (w.extractLsb' 14 5) (w.extractLsb' 0 5) w2) else
  none

/-- The words of opcode 0x1E: END (R28). -/
def decodeOp1E (w : BitVec 32) : Option Instr :=
  if w.extractLsb' 0 24 = 0x0#24 then some (.endGroup (w.getLsbD 31)) else
  none

/-- The words of opcode 0x1F: TRAP (R28). -/
def decodeOp1F (w : BitVec 32) : Option Instr :=
  if w.extractLsb' 19 5 = 0x0#5 then some (.trap (w.getLsbD 31) (w.extractLsb' 0 19)) else
  none

/-- The words of opcode 0x20: CREAD_CUR, CREAD_BASE, CREAD_LEN, CREAD_PERM and others (R28). -/
def decodeOp20 (w : BitVec 32) : Option Instr :=
  if w.extractLsb' 0 9 = 0x0#9 ∧ w.extractLsb' 9 5 = 0x0#5 then some (.creadCur (w.getLsbD 31) (w.extractLsb' 19 5) (w.extractLsb' 14 5)) else
  if w.extractLsb' 0 9 = 0x1#9 ∧ w.extractLsb' 9 5 = 0x0#5 then some (.creadBase (w.getLsbD 31) (w.extractLsb' 19 5) (w.extractLsb' 14 5)) else
  if w.extractLsb' 0 9 = 0x2#9 ∧ w.extractLsb' 9 5 = 0x0#5 then some (.creadLen (w.getLsbD 31) (w.extractLsb' 19 5) (w.extractLsb' 14 5)) else
  if w.extractLsb' 0 9 = 0x3#9 ∧ w.extractLsb' 9 5 = 0x0#5 then some (.creadPerm (w.getLsbD 31) (w.extractLsb' 19 5) (w.extractLsb' 14 5)) else
  if w.extractLsb' 0 9 = 0x4#9 ∧ w.extractLsb' 9 5 = 0x0#5 then some (.creadSpace (w.getLsbD 31) (w.extractLsb' 19 5) (w.extractLsb' 14 5)) else
  if w.extractLsb' 0 9 = 0x5#9 ∧ w.extractLsb' 9 5 = 0x0#5 then some (.creadOwner (w.getLsbD 31) (w.extractLsb' 19 5) (w.extractLsb' 14 5)) else
  if w.extractLsb' 0 9 = 0x6#9 ∧ w.extractLsb' 9 5 = 0x0#5 then some (.creadTag (w.getLsbD 31) (w.extractLsb' 19 5) (w.extractLsb' 14 5)) else
  if w.extractLsb' 0 9 = 0x7#9 ∧ w.extractLsb' 9 5 = 0x0#5 then some (.ccopy (w.getLsbD 31) (w.extractLsb' 19 5) (w.extractLsb' 14 5)) else
  if w.extractLsb' 0 9 = 0x8#9 ∧ w.extractLsb' 9 5 = 0x0#5 then some (.cstrip (w.getLsbD 31) (w.extractLsb' 19 5) (w.extractLsb' 14 5)) else
  none

/-- The words of opcode 0x21: CSHIFT (R28). -/
def decodeOp21 (w : BitVec 32) : Option Instr :=
  if w.extractLsb' 0 9 = 0x0#9 then some (.cshift (w.getLsbD 31) (w.extractLsb' 19 5) (w.extractLsb' 14 5) (w.extractLsb' 9 5)) else
  none

/-- The words of opcode 0x22: CSHIFTI (R28). -/
def decodeOp22 (w : BitVec 32) : Option Instr :=
  some (.cshifti (w.getLsbD 31) (w.extractLsb' 19 5) (w.extractLsb' 14 5) (w.extractLsb' 0 14))

/-- The words of opcode 0x23: CNARROW (R28). -/
def decodeOp23 (w : BitVec 32) : Option Instr :=
  if w.extractLsb' 0 9 = 0x0#9 then some (.cnarrow (w.getLsbD 31) (w.extractLsb' 19 5) (w.extractLsb' 14 5) (w.extractLsb' 9 5)) else
  none

/-- The words of opcode 0x24: CMASK (R28). -/
def decodeOp24 (w : BitVec 32) : Option Instr :=
  if w.extractLsb' 5 9 = 0x0#9 then some (.cmask (w.getLsbD 31) (w.extractLsb' 19 5) (w.extractLsb' 14 5) (w.extractLsb' 0 5)) else
  none

/-- The words of opcode 0x25: CSPACE (R28). -/
def decodeOp25 (w : BitVec 32) : Option Instr :=
  if w.extractLsb' 0 14 = 0x0#14 then some (.cspace (w.getLsbD 31) (w.extractLsb' 19 5) (w.extractLsb' 14 5)) else
  none

/-- The words of opcode 0x26: CCAST (R28). -/
def decodeOp26 (w : BitVec 32) : Option Instr :=
  if w.extractLsb' 2 12 = 0x0#12 then some (.ccast (w.getLsbD 31) (w.extractLsb' 19 5) (w.extractLsb' 14 5) (w.extractLsb' 0 2)) else
  none

/-- The words of opcode 0x27: CDERIVE (R28). -/
def decodeOp27 (w : BitVec 32) : Option Instr :=
  if w.extractLsb' 0 9 = 0x0#9 then some (.cderive (w.getLsbD 31) (w.extractLsb' 19 5) (w.extractLsb' 14 5) (w.extractLsb' 9 5)) else
  none

/-- The words of opcode 0x30: LD_SB (R28). -/
def decodeOp30 (w : BitVec 32) : Option Instr :=
  some (.ldSb (w.getLsbD 31) (w.extractLsb' 19 5) (w.extractLsb' 14 5) (w.extractLsb' 0 14))

/-- The words of opcode 0x31: LD_ZB (R28). -/
def decodeOp31 (w : BitVec 32) : Option Instr :=
  some (.ldZb (w.getLsbD 31) (w.extractLsb' 19 5) (w.extractLsb' 14 5) (w.extractLsb' 0 14))

/-- The words of opcode 0x32: LD_SH (R28). -/
def decodeOp32 (w : BitVec 32) : Option Instr :=
  some (.ldSh (w.getLsbD 31) (w.extractLsb' 19 5) (w.extractLsb' 14 5) (w.extractLsb' 0 14))

/-- The words of opcode 0x33: LD_ZH (R28). -/
def decodeOp33 (w : BitVec 32) : Option Instr :=
  some (.ldZh (w.getLsbD 31) (w.extractLsb' 19 5) (w.extractLsb' 14 5) (w.extractLsb' 0 14))

/-- The words of opcode 0x34: LD_SW (R28). -/
def decodeOp34 (w : BitVec 32) : Option Instr :=
  some (.ldSw (w.getLsbD 31) (w.extractLsb' 19 5) (w.extractLsb' 14 5) (w.extractLsb' 0 14))

/-- The words of opcode 0x35: LD_ZW (R28). -/
def decodeOp35 (w : BitVec 32) : Option Instr :=
  some (.ldZw (w.getLsbD 31) (w.extractLsb' 19 5) (w.extractLsb' 14 5) (w.extractLsb' 0 14))

/-- The words of opcode 0x36: LD_D (R28). -/
def decodeOp36 (w : BitVec 32) : Option Instr :=
  some (.ldD (w.getLsbD 31) (w.extractLsb' 19 5) (w.extractLsb' 14 5) (w.extractLsb' 0 14))

/-- The words of opcode 0x37: LD_C (R28). -/
def decodeOp37 (w : BitVec 32) : Option Instr :=
  some (.ldC (w.getLsbD 31) (w.extractLsb' 19 5) (w.extractLsb' 14 5) (w.extractLsb' 0 14))

/-- The words of opcode 0x38: ST_B (R28). -/
def decodeOp38 (w : BitVec 32) : Option Instr :=
  some (.stB (w.getLsbD 31) (w.extractLsb' 19 5) (w.extractLsb' 14 5) (w.extractLsb' 0 14))

/-- The words of opcode 0x39: ST_H (R28). -/
def decodeOp39 (w : BitVec 32) : Option Instr :=
  some (.stH (w.getLsbD 31) (w.extractLsb' 19 5) (w.extractLsb' 14 5) (w.extractLsb' 0 14))

/-- The words of opcode 0x3A: ST_W (R28). -/
def decodeOp3A (w : BitVec 32) : Option Instr :=
  some (.stW (w.getLsbD 31) (w.extractLsb' 19 5) (w.extractLsb' 14 5) (w.extractLsb' 0 14))

/-- The words of opcode 0x3B: ST_D (R28). -/
def decodeOp3B (w : BitVec 32) : Option Instr :=
  some (.stD (w.getLsbD 31) (w.extractLsb' 19 5) (w.extractLsb' 14 5) (w.extractLsb' 0 14))

/-- The words of opcode 0x3C: ST_C (R28). -/
def decodeOp3C (w : BitVec 32) : Option Instr :=
  some (.stC (w.getLsbD 31) (w.extractLsb' 19 5) (w.extractLsb' 14 5) (w.extractLsb' 0 14))

/-- The words of opcode 0x3D: AMO_ADD, AMO_AND, AMO_OR, AMO_XOR and others (R28). -/
def decodeOp3D (w : BitVec 32) : Option Instr :=
  if w.extractLsb' 0 4 = 0x0#4 ∧ w.extractLsb' 4 4 = 0x0#4 then some (.amoAdd (w.getLsbD 31) (w.extractLsb' 19 5) (w.extractLsb' 14 5) (w.extractLsb' 9 5) (w.extractLsb' 8 1)) else
  if w.extractLsb' 0 4 = 0x1#4 ∧ w.extractLsb' 4 4 = 0x0#4 then some (.amoAnd (w.getLsbD 31) (w.extractLsb' 19 5) (w.extractLsb' 14 5) (w.extractLsb' 9 5) (w.extractLsb' 8 1)) else
  if w.extractLsb' 0 4 = 0x2#4 ∧ w.extractLsb' 4 4 = 0x0#4 then some (.amoOr (w.getLsbD 31) (w.extractLsb' 19 5) (w.extractLsb' 14 5) (w.extractLsb' 9 5) (w.extractLsb' 8 1)) else
  if w.extractLsb' 0 4 = 0x3#4 ∧ w.extractLsb' 4 4 = 0x0#4 then some (.amoXor (w.getLsbD 31) (w.extractLsb' 19 5) (w.extractLsb' 14 5) (w.extractLsb' 9 5) (w.extractLsb' 8 1)) else
  if w.extractLsb' 0 4 = 0x4#4 ∧ w.extractLsb' 4 4 = 0x0#4 then some (.amoSwap (w.getLsbD 31) (w.extractLsb' 19 5) (w.extractLsb' 14 5) (w.extractLsb' 9 5) (w.extractLsb' 8 1)) else
  if w.extractLsb' 0 4 = 0x5#4 ∧ w.extractLsb' 4 4 = 0x0#4 then some (.amoSmax (w.getLsbD 31) (w.extractLsb' 19 5) (w.extractLsb' 14 5) (w.extractLsb' 9 5) (w.extractLsb' 8 1)) else
  if w.extractLsb' 0 4 = 0x6#4 ∧ w.extractLsb' 4 4 = 0x0#4 then some (.amoSmin (w.getLsbD 31) (w.extractLsb' 19 5) (w.extractLsb' 14 5) (w.extractLsb' 9 5) (w.extractLsb' 8 1)) else
  if w.extractLsb' 0 4 = 0x7#4 ∧ w.extractLsb' 4 4 = 0x0#4 then some (.amoCas (w.getLsbD 31) (w.extractLsb' 19 5) (w.extractLsb' 14 5) (w.extractLsb' 9 5) (w.extractLsb' 8 1)) else
  if w.extractLsb' 0 4 = 0x8#4 ∧ w.extractLsb' 9 5 = 0x0#5 then some (.ldAcq (w.getLsbD 31) (w.extractLsb' 19 5) (w.extractLsb' 14 5) (w.extractLsb' 8 1) (w.extractLsb' 4 4)) else
  if w.extractLsb' 0 4 = 0x9#4 ∧ w.extractLsb' 19 5 = 0x0#5 then some (.stRel (w.getLsbD 31) (w.extractLsb' 14 5) (w.extractLsb' 9 5) (w.extractLsb' 8 1) (w.extractLsb' 4 4)) else
  none

/-- The words of opcode 0x3E: FENCE_SL, FENCE_ACQ, FENCE_REL, FENCE_FULL (R28). -/
def decodeOp3E (w : BitVec 32) : Option Instr :=
  if w.extractLsb' 0 4 = 0x0#4 ∧ w.extractLsb' 4 4 = 0x0#4 ∧ w.extractLsb' 8 16 = 0x0#16 then some (.fenceSl (w.getLsbD 31)) else
  if w.extractLsb' 0 4 = 0x1#4 ∧ w.extractLsb' 8 16 = 0x0#16 then some (.fenceAcq (w.getLsbD 31) (w.extractLsb' 4 4)) else
  if w.extractLsb' 0 4 = 0x2#4 ∧ w.extractLsb' 8 16 = 0x0#16 then some (.fenceRel (w.getLsbD 31) (w.extractLsb' 4 4)) else
  if w.extractLsb' 0 4 = 0x3#4 ∧ w.extractLsb' 8 16 = 0x0#16 then some (.fenceFull (w.getLsbD 31) (w.extractLsb' 4 4)) else
  none

/-- The words of opcode 0x3F: SBIND, SUNBIND (R28). -/
def decodeOp3F (w : BitVec 32) : Option Instr :=
  if w.extractLsb' 5 3 = 0x0#3 ∧ w.extractLsb' 8 1 = 0x0#1 then some (.sbind (w.getLsbD 31) (w.extractLsb' 19 5) (w.extractLsb' 14 5) (w.extractLsb' 9 5) (w.extractLsb' 3 2) (w.extractLsb' 2 1) (w.extractLsb' 0 2)) else
  if w.extractLsb' 0 3 = 0x0#3 ∧ w.extractLsb' 5 3 = 0x0#3 ∧ w.extractLsb' 8 1 = 0x1#1 ∧ w.extractLsb' 9 10 = 0x0#10 then some (.sunbind (w.getLsbD 31) (w.extractLsb' 19 5) (w.extractLsb' 3 2)) else
  none

/-- The words of opcode 0x40: VINT_ADD, VINT_SUB, VINT_ADDS, VINT_SUBS and others (R28). -/
def decodeOp40 (w : BitVec 32) : Option Instr :=
  if w.extractLsb' 0 5 = 0x0#5 then some (.vintAdd (w.getLsbD 31) (w.extractLsb' 20 4) (w.extractLsb' 16 4) (w.extractLsb' 12 4) (w.extractLsb' 7 5) (w.extractLsb' 5 2)) else
  if w.extractLsb' 0 5 = 0x1#5 then some (.vintSub (w.getLsbD 31) (w.extractLsb' 20 4) (w.extractLsb' 16 4) (w.extractLsb' 12 4) (w.extractLsb' 7 5) (w.extractLsb' 5 2)) else
  if w.extractLsb' 0 5 = 0x2#5 then some (.vintAdds (w.getLsbD 31) (w.extractLsb' 20 4) (w.extractLsb' 16 4) (w.extractLsb' 12 4) (w.extractLsb' 7 5) (w.extractLsb' 5 2)) else
  if w.extractLsb' 0 5 = 0x3#5 then some (.vintSubs (w.getLsbD 31) (w.extractLsb' 20 4) (w.extractLsb' 16 4) (w.extractLsb' 12 4) (w.extractLsb' 7 5) (w.extractLsb' 5 2)) else
  if w.extractLsb' 0 5 = 0x4#5 then some (.vintMul (w.getLsbD 31) (w.extractLsb' 20 4) (w.extractLsb' 16 4) (w.extractLsb' 12 4) (w.extractLsb' 7 5) (w.extractLsb' 5 2)) else
  if w.extractLsb' 0 5 = 0x5#5 then some (.vintMulh (w.getLsbD 31) (w.extractLsb' 20 4) (w.extractLsb' 16 4) (w.extractLsb' 12 4) (w.extractLsb' 7 5) (w.extractLsb' 5 2)) else
  if w.extractLsb' 0 5 = 0x6#5 then some (.vintMin (w.getLsbD 31) (w.extractLsb' 20 4) (w.extractLsb' 16 4) (w.extractLsb' 12 4) (w.extractLsb' 7 5) (w.extractLsb' 5 2)) else
  if w.extractLsb' 0 5 = 0x7#5 then some (.vintMax (w.getLsbD 31) (w.extractLsb' 20 4) (w.extractLsb' 16 4) (w.extractLsb' 12 4) (w.extractLsb' 7 5) (w.extractLsb' 5 2)) else
  if w.extractLsb' 0 5 = 0x8#5 then some (.vintMinu (w.getLsbD 31) (w.extractLsb' 20 4) (w.extractLsb' 16 4) (w.extractLsb' 12 4) (w.extractLsb' 7 5) (w.extractLsb' 5 2)) else
  if w.extractLsb' 0 5 = 0x9#5 then some (.vintMaxu (w.getLsbD 31) (w.extractLsb' 20 4) (w.extractLsb' 16 4) (w.extractLsb' 12 4) (w.extractLsb' 7 5) (w.extractLsb' 5 2)) else
  if w.extractLsb' 0 5 = 0xA#5 then some (.vintAnd (w.getLsbD 31) (w.extractLsb' 20 4) (w.extractLsb' 16 4) (w.extractLsb' 12 4) (w.extractLsb' 7 5) (w.extractLsb' 5 2)) else
  if w.extractLsb' 0 5 = 0xB#5 then some (.vintOr (w.getLsbD 31) (w.extractLsb' 20 4) (w.extractLsb' 16 4) (w.extractLsb' 12 4) (w.extractLsb' 7 5) (w.extractLsb' 5 2)) else
  if w.extractLsb' 0 5 = 0xC#5 then some (.vintXor (w.getLsbD 31) (w.extractLsb' 20 4) (w.extractLsb' 16 4) (w.extractLsb' 12 4) (w.extractLsb' 7 5) (w.extractLsb' 5 2)) else
  if w.extractLsb' 0 5 = 0xD#5 then some (.vintShl (w.getLsbD 31) (w.extractLsb' 20 4) (w.extractLsb' 16 4) (w.extractLsb' 12 4) (w.extractLsb' 7 5) (w.extractLsb' 5 2)) else
  if w.extractLsb' 0 5 = 0xE#5 then some (.vintShr (w.getLsbD 31) (w.extractLsb' 20 4) (w.extractLsb' 16 4) (w.extractLsb' 12 4) (w.extractLsb' 7 5) (w.extractLsb' 5 2)) else
  if w.extractLsb' 0 5 = 0xF#5 then some (.vintSra (w.getLsbD 31) (w.extractLsb' 20 4) (w.extractLsb' 16 4) (w.extractLsb' 12 4) (w.extractLsb' 7 5) (w.extractLsb' 5 2)) else
  if w.extractLsb' 0 5 = 0x10#5 ∧ w.extractLsb' 12 4 = 0x0#4 then some (.vintAbs (w.getLsbD 31) (w.extractLsb' 20 4) (w.extractLsb' 16 4) (w.extractLsb' 7 5) (w.extractLsb' 5 2)) else
  if w.extractLsb' 0 5 = 0x11#5 ∧ w.extractLsb' 12 4 = 0x0#4 then some (.vintNeg (w.getLsbD 31) (w.extractLsb' 20 4) (w.extractLsb' 16 4) (w.extractLsb' 7 5) (w.extractLsb' 5 2)) else
  none

/-- The words of opcode 0x41: VFP_ADD, VFP_SUB, VFP_MUL, VFP_FMA and others (R28). -/
def decodeOp41 (w : BitVec 32) : Option Instr :=
  if w.extractLsb' 0 7 = 0x0#7 then some (.vfpAdd (w.getLsbD 31) (w.extractLsb' 20 4) (w.extractLsb' 16 4) (w.extractLsb' 12 4) (w.extractLsb' 7 5)) else
  if w.extractLsb' 0 7 = 0x1#7 then some (.vfpSub (w.getLsbD 31) (w.extractLsb' 20 4) (w.extractLsb' 16 4) (w.extractLsb' 12 4) (w.extractLsb' 7 5)) else
  if w.extractLsb' 0 7 = 0x2#7 then some (.vfpMul (w.getLsbD 31) (w.extractLsb' 20 4) (w.extractLsb' 16 4) (w.extractLsb' 12 4) (w.extractLsb' 7 5)) else
  if w.extractLsb' 0 7 = 0x3#7 then some (.vfpFma (w.getLsbD 31) (w.extractLsb' 20 4) (w.extractLsb' 16 4) (w.extractLsb' 12 4) (w.extractLsb' 7 5)) else
  if w.extractLsb' 0 7 = 0x4#7 then some (.vfpMin (w.getLsbD 31) (w.extractLsb' 20 4) (w.extractLsb' 16 4) (w.extractLsb' 12 4) (w.extractLsb' 7 5)) else
  if w.extractLsb' 0 7 = 0x5#7 then some (.vfpMax (w.getLsbD 31) (w.extractLsb' 20 4) (w.extractLsb' 16 4) (w.extractLsb' 12 4) (w.extractLsb' 7 5)) else
  if w.extractLsb' 0 7 = 0x6#7 ∧ w.extractLsb' 12 4 = 0x0#4 then some (.vfpAbs (w.getLsbD 31) (w.extractLsb' 20 4) (w.extractLsb' 16 4) (w.extractLsb' 7 5)) else
  if w.extractLsb' 0 7 = 0x7#7 ∧ w.extractLsb' 12 4 = 0x0#4 then some (.vfpNeg (w.getLsbD 31) (w.extractLsb' 20 4) (w.extractLsb' 16 4) (w.extractLsb' 7 5)) else
  if w.extractLsb' 0 7 = 0x8#7 ∧ w.extractLsb' 12 4 = 0x0#4 then some (.vfpExp2 (w.getLsbD 31) (w.extractLsb' 20 4) (w.extractLsb' 16 4) (w.extractLsb' 7 5)) else
  if w.extractLsb' 0 7 = 0x9#7 ∧ w.extractLsb' 12 4 = 0x0#4 then some (.vfpLog2 (w.getLsbD 31) (w.extractLsb' 20 4) (w.extractLsb' 16 4) (w.extractLsb' 7 5)) else
  if w.extractLsb' 0 7 = 0xA#7 ∧ w.extractLsb' 12 4 = 0x0#4 then some (.vfpRecip (w.getLsbD 31) (w.extractLsb' 20 4) (w.extractLsb' 16 4) (w.extractLsb' 7 5)) else
  if w.extractLsb' 0 7 = 0xB#7 ∧ w.extractLsb' 12 4 = 0x0#4 then some (.vfpRsqrt (w.getLsbD 31) (w.extractLsb' 20 4) (w.extractLsb' 16 4) (w.extractLsb' 7 5)) else
  none

/-- The words of opcode 0x42: VCMP (R28). -/
def decodeOp42 (w : BitVec 32) : Option Instr :=
  if w.extractLsb' 20 4 = 0x0#4 then some (.vcmp (w.getLsbD 31) (w.extractLsb' 16 4) (w.extractLsb' 12 4) (w.extractLsb' 7 5) (w.extractLsb' 5 2) (w.extractLsb' 0 5)) else
  none

/-- The words of opcode 0x43: VSEL, VPERM, VBCAST, VSLIDE (R28). -/
def decodeOp43 (w : BitVec 32) : Option Instr :=
  if w.extractLsb' 0 4 = 0x0#4 ∧ w.extractLsb' 4 1 = 0x0#1 ∧ w.extractLsb' 5 2 = 0x0#2 then some (.vsel (w.getLsbD 31) (w.extractLsb' 20 4) (w.extractLsb' 16 4) (w.extractLsb' 12 4) (w.extractLsb' 7 5)) else
  if w.extractLsb' 0 4 = 0x0#4 ∧ w.extractLsb' 4 1 = 0x0#1 ∧ w.extractLsb' 5 2 = 0x1#2 then some (.vperm (w.getLsbD 31) (w.extractLsb' 20 4) (w.extractLsb' 16 4) (w.extractLsb' 12 4) (w.extractLsb' 7 5)) else
  if w.extractLsb' 0 4 = 0x0#4 ∧ w.extractLsb' 4 1 = 0x0#1 ∧ w.extractLsb' 5 2 = 0x2#2 ∧ w.extractLsb' 12 8 = 0x0#8 then some (.vbcast (w.getLsbD 31) (w.extractLsb' 20 4) (w.extractLsb' 7 5)) else
  if w.extractLsb' 0 4 = 0x0#4 ∧ w.extractLsb' 5 2 = 0x3#2 ∧ w.extractLsb' 12 4 = 0x0#4 then some (.vslide (w.getLsbD 31) (w.extractLsb' 20 4) (w.extractLsb' 16 4) (w.extractLsb' 7 5) (w.extractLsb' 4 1)) else
  none

/-- The words of opcode 0x44: VRED_SUM_I32, VRED_MIN_I32, VRED_MAX_I32, VRED_SUM_F32 and others (R28). -/
def decodeOp44 (w : BitVec 32) : Option Instr :=
  if w.extractLsb' 0 5 = 0x0#5 ∧ w.extractLsb' 5 2 = 0x0#2 ∧ w.extractLsb' 12 4 = 0x0#4 then some (.vredSumI32 (w.getLsbD 31) (w.extractLsb' 20 4) (w.extractLsb' 16 4) (w.extractLsb' 7 5)) else
  if w.extractLsb' 0 5 = 0x4#5 ∧ w.extractLsb' 5 2 = 0x0#2 ∧ w.extractLsb' 12 4 = 0x0#4 then some (.vredMinI32 (w.getLsbD 31) (w.extractLsb' 20 4) (w.extractLsb' 16 4) (w.extractLsb' 7 5)) else
  if w.extractLsb' 0 5 = 0x8#5 ∧ w.extractLsb' 5 2 = 0x0#2 ∧ w.extractLsb' 12 4 = 0x0#4 then some (.vredMaxI32 (w.getLsbD 31) (w.extractLsb' 20 4) (w.extractLsb' 16 4) (w.extractLsb' 7 5)) else
  if w.extractLsb' 0 5 = 0xD#5 ∧ w.extractLsb' 5 2 = 0x0#2 ∧ w.extractLsb' 12 4 = 0x0#4 then some (.vredSumF32 (w.getLsbD 31) (w.extractLsb' 20 4) (w.extractLsb' 16 4) (w.extractLsb' 7 5)) else
  if w.extractLsb' 0 5 = 0x11#5 ∧ w.extractLsb' 5 2 = 0x0#2 ∧ w.extractLsb' 12 4 = 0x0#4 then some (.vredMinF32 (w.getLsbD 31) (w.extractLsb' 20 4) (w.extractLsb' 16 4) (w.extractLsb' 7 5)) else
  if w.extractLsb' 0 5 = 0x15#5 ∧ w.extractLsb' 5 2 = 0x0#2 ∧ w.extractLsb' 12 4 = 0x0#4 then some (.vredMaxF32 (w.getLsbD 31) (w.extractLsb' 20 4) (w.extractLsb' 16 4) (w.extractLsb' 7 5)) else
  if w.extractLsb' 5 2 = 0x1#2 ∧ w.extractLsb' 12 4 = 0x0#4 then some (.vtopk (w.getLsbD 31) (w.extractLsb' 20 4) (w.extractLsb' 16 4) (w.extractLsb' 7 5) (w.extractLsb' 4 1) (w.extractLsb' 0 4)) else
  none

/-- The words of opcode 0x45: VCVT_TOBF, VCVT_FROMBF, VCVT_ITOF, VCVT_FTOI and others (R28). -/
def decodeOp45 (w : BitVec 32) : Option Instr :=
  if w.extractLsb' 0 7 = 0x0#7 ∧ w.extractLsb' 12 4 = 0x0#4 then some (.vcvtTobf (w.getLsbD 31) (w.extractLsb' 20 4) (w.extractLsb' 16 4) (w.extractLsb' 7 5)) else
  if w.extractLsb' 0 7 = 0x1#7 ∧ w.extractLsb' 12 4 = 0x0#4 then some (.vcvtFrombf (w.getLsbD 31) (w.extractLsb' 20 4) (w.extractLsb' 16 4) (w.extractLsb' 7 5)) else
  if w.extractLsb' 0 7 = 0x2#7 ∧ w.extractLsb' 12 4 = 0x0#4 then some (.vcvtItof (w.getLsbD 31) (w.extractLsb' 20 4) (w.extractLsb' 16 4) (w.extractLsb' 7 5)) else
  if w.extractLsb' 0 7 = 0x3#7 ∧ w.extractLsb' 12 4 = 0x0#4 then some (.vcvtFtoi (w.getLsbD 31) (w.extractLsb' 20 4) (w.extractLsb' 16 4) (w.extractLsb' 7 5)) else
  if w.extractLsb' 0 7 = 0x4#7 ∧ w.extractLsb' 12 4 = 0x0#4 then some (.vcvtSat8 (w.getLsbD 31) (w.extractLsb' 20 4) (w.extractLsb' 16 4) (w.extractLsb' 7 5)) else
  if w.extractLsb' 0 7 = 0x5#7 ∧ w.extractLsb' 12 4 = 0x0#4 then some (.vcvtSat16 (w.getLsbD 31) (w.extractLsb' 20 4) (w.extractLsb' 16 4) (w.extractLsb' 7 5)) else
  if w.extractLsb' 0 12 = 0x6#12 then some (.vcvtMxq (w.getLsbD 31) (w.extractLsb' 20 4) (w.extractLsb' 16 4) (w.extractLsb' 12 4)) else
  if w.extractLsb' 0 12 = 0x7#12 then some (.vcvtMxd (w.getLsbD 31) (w.extractLsb' 20 4) (w.extractLsb' 16 4) (w.extractLsb' 12 4)) else
  if w.extractLsb' 0 7 = 0x8#7 ∧ w.extractLsb' 12 4 = 0x0#4 then some (.vcvtTdec (w.getLsbD 31) (w.extractLsb' 20 4) (w.extractLsb' 16 4) (w.extractLsb' 7 5)) else
  if w.extractLsb' 0 7 = 0x9#7 ∧ w.extractLsb' 12 4 = 0x0#4 then some (.vcvtTenc (w.getLsbD 31) (w.extractLsb' 20 4) (w.extractLsb' 16 4) (w.extractLsb' 7 5)) else
  none

/-- The words of opcode 0x46: VLD, VST (R28). -/
def decodeOp46 (w : BitVec 32) : Option Instr :=
  if w.extractLsb' 0 4 = 0x0#4 ∧ w.extractLsb' 6 1 = 0x0#1 ∧ w.extractLsb' 12 3 = 0x0#3 then some (.vld (w.getLsbD 31) (w.extractLsb' 20 4) (w.extractLsb' 15 5) (w.extractLsb' 7 5) (w.extractLsb' 4 2)) else
  if w.extractLsb' 0 4 = 0x0#4 ∧ w.extractLsb' 6 1 = 0x1#1 ∧ w.extractLsb' 12 3 = 0x0#3 then some (.vst (w.getLsbD 31) (w.extractLsb' 20 4) (w.extractLsb' 15 5) (w.extractLsb' 7 5) (w.extractLsb' 4 2)) else
  none

/-- The words of opcode 0x47: VSETVL, VMOVG_TO_G, VMOVG_TO_V (R28). -/
def decodeOp47 (w : BitVec 32) : Option Instr :=
  if w.extractLsb' 0 9 = 0x0#9 ∧ w.extractLsb' 9 5 = 0x0#5 then some (.vsetvl (w.getLsbD 31) (w.extractLsb' 19 5) (w.extractLsb' 14 5)) else
  if w.extractLsb' 0 9 = 0x1#9 ∧ w.extractLsb' 18 1 = 0x0#1 then some (.vmovgToG (w.getLsbD 31) (w.extractLsb' 19 5) (w.extractLsb' 14 4) (w.extractLsb' 9 5)) else
  if w.extractLsb' 0 9 = 0x2#9 ∧ w.extractLsb' 23 1 = 0x0#1 then some (.vmovgToV (w.getLsbD 31) (w.extractLsb' 19 4) (w.extractLsb' 14 5) (w.extractLsb' 9 5)) else
  none

/-- The words of opcode 0x50: KCLR (R28). -/
def decodeOp50 (w : BitVec 32) : Option Instr :=
  if w.extractLsb' 0 21 = 0x0#21 then some (.kclr (w.getLsbD 31) (w.extractLsb' 21 3)) else
  none

/-- The words of opcode 0x51: KSET (R28). -/
def decodeOp51 (w : BitVec 32) : Option Instr :=
  some (.kset (w.getLsbD 31) (w.extractLsb' 21 3) (w.extractLsb' 16 5) (w.extractLsb' 10 6) (w.extractLsb' 0 10))

/-- The words of opcode 0x52: KCAP (R28). -/
def decodeOp52 (w : BitVec 32) : Option Instr :=
  if w.extractLsb' 10 3 = 0x0#3 then some (.kcap (w.getLsbD 31) (w.extractLsb' 21 3) (w.extractLsb' 16 5) (w.extractLsb' 13 3) (w.extractLsb' 0 10)) else
  none

/-- The words of opcode 0x53: PUSH (R28). -/
def decodeOp53 (w : BitVec 32) : Option Instr :=
  if w.extractLsb' 0 16 = 0x0#16 then some (.push (w.getLsbD 31) (w.extractLsb' 21 3) (w.extractLsb' 16 5)) else
  none

/-- The words of opcode 0x54: GISSUE_WIDE, GISSUE_DEEP (R28). -/
def decodeOp54 (w : BitVec 32) : Option Instr :=
  if w.extractLsb' 0 10 = 0x0#10 ∧ w.extractLsb' 10 6 = 0x0#6 ∧ w.extractLsb' 16 5 = 0x0#5 then some (.gissueWide (w.getLsbD 31) (w.extractLsb' 21 3)) else
  if w.extractLsb' 0 10 = 0x0#10 ∧ w.extractLsb' 10 6 = 0x1#6 ∧ w.extractLsb' 16 5 = 0x0#5 then some (.gissueDeep (w.getLsbD 31) (w.extractLsb' 21 3)) else
  none

/-- The words of opcode 0x55: CASCADE (R28). -/
def decodeOp55 (w : BitVec 32) : Option Instr :=
  if w.extractLsb' 0 14 = 0x0#14 ∧ w.extractLsb' 19 5 = 0x0#5 then some (.cascade (w.getLsbD 31) (w.extractLsb' 14 5)) else
  none

/-- The words of opcode 0x56: QSAVE (R28). -/
def decodeOp56 (w : BitVec 32) : Option Instr :=
  if w.extractLsb' 0 24 = 0x0#24 then some (.qsave (w.getLsbD 31)) else
  none

/-- The words of opcode 0x57: QLOAD (R28). -/
def decodeOp57 (w : BitVec 32) : Option Instr :=
  if w.extractLsb' 0 24 = 0x0#24 then some (.qload (w.getLsbD 31)) else
  none

/-- The words of opcode 0x58: EVSET, EVCLR, EVPOST (R28). -/
def decodeOp58 (w : BitVec 32) : Option Instr :=
  if w.extractLsb' 8 6 = 0x0#6 ∧ w.extractLsb' 14 5 = 0x0#5 ∧ w.extractLsb' 19 5 = 0x0#5 then some (.evset (w.getLsbD 31) (w.extractLsb' 0 8)) else
  if w.extractLsb' 8 6 = 0x10#6 ∧ w.extractLsb' 14 5 = 0x0#5 ∧ w.extractLsb' 19 5 = 0x0#5 then some (.evclr (w.getLsbD 31) (w.extractLsb' 0 8)) else
  if w.extractLsb' 8 6 = 0x20#6 ∧ w.extractLsb' 19 5 = 0x0#5 then some (.evpost (w.getLsbD 31) (w.extractLsb' 14 5) (w.extractLsb' 0 8)) else
  none

/-- The words of opcode 0x59: EVWAIT (R28). -/
def decodeOp59 (w : BitVec 32) : Option Instr :=
  if w.extractLsb' 8 16 = 0x0#16 then some (.evwait (w.getLsbD 31) (w.extractLsb' 0 8)) else
  none

/-- The words of opcode 0x5A: WSYNC (R28). -/
def decodeOp5A (w : BitVec 32) : Option Instr :=
  if w.extractLsb' 4 20 = 0x0#20 then some (.wsync (w.getLsbD 31) (w.extractLsb' 0 4)) else
  none

/-- The words of opcode 0x5B: TBEGIN, TEND (R28). -/
def decodeOp5B (w : BitVec 32) : Option Instr :=
  if w.extractLsb' 0 9 = 0x0#9 ∧ w.extractLsb' 9 15 = 0x0#15 then some (.tbegin (w.getLsbD 31)) else
  if w.extractLsb' 0 9 = 0x1#9 ∧ w.extractLsb' 9 15 = 0x0#15 then some (.tend (w.getLsbD 31)) else
  none

/-- The words of opcode 0x5C: TSEND (R28). -/
def decodeOp5C (w : BitVec 32) : Option Instr :=
  if w.extractLsb' 11 3 = 0x0#3 ∧ w.extractLsb' 19 5 = 0x0#5 then some (.tsend (w.getLsbD 31) (w.extractLsb' 14 5) (w.extractLsb' 7 4) (w.extractLsb' 0 7)) else
  none

/-- The words of opcode 0x5D: TRECV (R28). -/
def decodeOp5D (w : BitVec 32) : Option Instr :=
  if w.extractLsb' 11 8 = 0x0#8 then some (.trecv (w.getLsbD 31) (w.extractLsb' 19 5) (w.extractLsb' 7 4) (w.extractLsb' 0 7)) else
  none

/-- The words of opcode 0x5E: SEND, RECV (R28). -/
def decodeOp5E (w : BitVec 32) : Option Instr :=
  if w.extractLsb' 0 5 = 0x0#5 ∧ w.extractLsb' 19 5 = 0x0#5 then some (.send (w.getLsbD 31) (w.extractLsb' 14 5) (w.extractLsb' 9 5) (w.extractLsb' 5 4)) else
  if w.extractLsb' 0 5 = 0x1#5 ∧ w.extractLsb' 9 10 = 0x0#10 then some (.recv (w.getLsbD 31) (w.extractLsb' 19 5) (w.extractLsb' 5 4)) else
  none

/-- The words of opcode 0x5F: BWAIT (R28). -/
def decodeOp5F (w : BitVec 32) : Option Instr :=
  if w.extractLsb' 0 9 = 0x0#9 ∧ w.extractLsb' 19 5 = 0x0#5 then some (.bwait (w.getLsbD 31) (w.extractLsb' 14 5) (w.extractLsb' 9 5)) else
  none

/-- The words of opcode 0x60: BALLOC (R28). -/
def decodeOp60 (w : BitVec 32) : Option Instr :=
  if w.extractLsb' 0 19 = 0x0#19 then some (.balloc (w.getLsbD 31) (w.extractLsb' 19 5)) else
  none

/-- The words of opcode 0x61: BFREE (R28). -/
def decodeOp61 (w : BitVec 32) : Option Instr :=
  if w.extractLsb' 0 14 = 0x0#14 ∧ w.extractLsb' 19 5 = 0x0#5 then some (.bfree (w.getLsbD 31) (w.extractLsb' 14 5)) else
  none

/-- The words of opcode 0x62: LAUNCH (R28). -/
def decodeOp62 (w : BitVec 32) : Option Instr :=
  if w.extractLsb' 0 14 = 0x0#14 then some (.launch (w.getLsbD 31) (w.extractLsb' 19 5) (w.extractLsb' 14 5)) else
  none

/-- The words of opcode 0x63: DTLOAD (R28). -/
def decodeOp63 (w : BitVec 32) : Option Instr :=
  if w.extractLsb' 0 14 = 0x0#14 ∧ w.extractLsb' 19 5 = 0x0#5 then some (.dtload (w.getLsbD 31) (w.extractLsb' 14 5)) else
  none

/-- The words of opcode 0x68: SYSRD (R28). -/
def decodeOp68 (w : BitVec 32) : Option Instr :=
  if w.extractLsb' 14 5 = 0x0#5 then some (.sysrd (w.getLsbD 31) (w.extractLsb' 19 5) (w.extractLsb' 0 14)) else
  none

/-- The words of opcode 0x69: SYSWR, SYSWR_STATUS, SYSWR_PRIV, SYSWR_PRIVSZ and others (R28). -/
def decodeOp69 (w : BitVec 32) : Option Instr :=
  if w.extractLsb' 0 14 = 0x0#14 ∧ w.extractLsb' 19 5 = 0x0#5 then some (.syswrStatus (w.getLsbD 31) (w.extractLsb' 14 5)) else
  if w.extractLsb' 0 14 = 0x1#14 ∧ w.extractLsb' 19 5 = 0x0#5 then some (.syswrPriv (w.getLsbD 31) (w.extractLsb' 14 5)) else
  if w.extractLsb' 0 14 = 0x13#14 ∧ w.extractLsb' 19 5 = 0x0#5 then some (.syswrPrivsz (w.getLsbD 31) (w.extractLsb' 14 5)) else
  if w.extractLsb' 0 14 = 0x40#14 ∧ w.extractLsb' 19 5 = 0x0#5 then some (.syswrXbase (w.getLsbD 31) (w.extractLsb' 14 5)) else
  if w.extractLsb' 0 14 = 0x41#14 ∧ w.extractLsb' 19 5 = 0x0#5 then some (.syswrXlimit (w.getLsbD 31) (w.extractLsb' 14 5)) else
  if w.extractLsb' 19 5 = 0x0#5 then some (.syswr (w.getLsbD 31) (w.extractLsb' 14 5) (w.extractLsb' 0 14)) else
  none

/-- The words of opcode 0x6A: ERET (R28). -/
def decodeOp6A (w : BitVec 32) : Option Instr :=
  if w.extractLsb' 0 24 = 0x0#24 then some (.eret (w.getLsbD 31)) else
  none

/-- The words of opcode 0x6B: TLBINV_CTX, TLBINV_PAGE, TLBINV_ALL (R28). -/
def decodeOp6B (w : BitVec 32) : Option Instr :=
  if w.extractLsb' 0 2 = 0x0#2 ∧ w.extractLsb' 3 11 = 0x0#11 ∧ w.extractLsb' 19 5 = 0x0#5 then some (.tlbinvCtx (w.getLsbD 31) (w.extractLsb' 14 5) (w.extractLsb' 2 1)) else
  if w.extractLsb' 0 2 = 0x1#2 ∧ w.extractLsb' 3 11 = 0x0#11 ∧ w.extractLsb' 19 5 = 0x0#5 then some (.tlbinvPage (w.getLsbD 31) (w.extractLsb' 14 5) (w.extractLsb' 2 1)) else
  if w.extractLsb' 0 2 = 0x2#2 ∧ w.extractLsb' 3 11 = 0x0#11 ∧ w.extractLsb' 14 5 = 0x0#5 ∧ w.extractLsb' 19 5 = 0x0#5 then some (.tlbinvAll (w.getLsbD 31) (w.extractLsb' 2 1)) else
  none

/-- The words of opcode 0x6C: WFI (R28). -/
def decodeOp6C (w : BitVec 32) : Option Instr :=
  if w.extractLsb' 0 24 = 0x0#24 then some (.wfi (w.getLsbD 31)) else
  none

/-- The words of opcode 0x6D: BRK (R28). -/
def decodeOp6D (w : BitVec 32) : Option Instr :=
  if w.extractLsb' 19 5 = 0x0#5 then some (.brk (w.getLsbD 31) (w.extractLsb' 0 19)) else
  none

/-- The words of opcode 0x70: DLD (R28). -/
def decodeOp70 (w : BitVec 32) : Option Instr :=
  some (.dld (w.getLsbD 31) (w.extractLsb' 19 5) (w.extractLsb' 14 5) (w.extractLsb' 0 14))

/-- The words of opcode 0x71: DST (R28). -/
def decodeOp71 (w : BitVec 32) : Option Instr :=
  some (.dst (w.getLsbD 31) (w.extractLsb' 19 5) (w.extractLsb' 14 5) (w.extractLsb' 0 14))

/-- The words of opcode 0x72: DFENCE (R28). -/
def decodeOp72 (w : BitVec 32) : Option Instr :=
  if w.extractLsb' 0 24 = 0x0#24 then some (.dfence (w.getLsbD 31)) else
  none

/-- The opcode map of R28: which words an opcode has. -/
def decodeBy (op : Nat) (w w2 : BitVec 32) : Except DecodeError Instr :=
  let r (o : Option Instr) : Except DecodeError Instr := o.elim (.error .field) .ok
  match op with
  | 0x01 => r (decodeOp01 w)
  | 0x02 => r (decodeOp02 w)
  | 0x03 => r (decodeOp03 w)
  | 0x04 => r (decodeOp04 w)
  | 0x05 => r (decodeOp05 w)
  | 0x06 => r (decodeOp06 w)
  | 0x08 => r (decodeOp08 w)
  | 0x09 => r (decodeOp09 w)
  | 0x0A => r (decodeOp0A w)
  | 0x0B => r (decodeOp0B w)
  | 0x0C => r (decodeOp0C w)
  | 0x0D => r (decodeOp0D w)
  | 0x0E => r (decodeOp0E w)
  | 0x0F => r (decodeOp0F w)
  | 0x10 => r (decodeOp10 w)
  | 0x11 => r (decodeOp11 w)
  | 0x12 => r (decodeOp12 w)
  | 0x18 => r (decodeOp18 w)
  | 0x19 => r (decodeOp19 w)
  | 0x1A => r (decodeOp1A w)
  | 0x1B => r (decodeOp1B w)
  | 0x1C => r (decodeOp1C w)
  | 0x1D => r (decodeOp1D w w2)
  | 0x1E => r (decodeOp1E w)
  | 0x1F => r (decodeOp1F w)
  | 0x20 => r (decodeOp20 w)
  | 0x21 => r (decodeOp21 w)
  | 0x22 => r (decodeOp22 w)
  | 0x23 => r (decodeOp23 w)
  | 0x24 => r (decodeOp24 w)
  | 0x25 => r (decodeOp25 w)
  | 0x26 => r (decodeOp26 w)
  | 0x27 => r (decodeOp27 w)
  | 0x30 => r (decodeOp30 w)
  | 0x31 => r (decodeOp31 w)
  | 0x32 => r (decodeOp32 w)
  | 0x33 => r (decodeOp33 w)
  | 0x34 => r (decodeOp34 w)
  | 0x35 => r (decodeOp35 w)
  | 0x36 => r (decodeOp36 w)
  | 0x37 => r (decodeOp37 w)
  | 0x38 => r (decodeOp38 w)
  | 0x39 => r (decodeOp39 w)
  | 0x3A => r (decodeOp3A w)
  | 0x3B => r (decodeOp3B w)
  | 0x3C => r (decodeOp3C w)
  | 0x3D => r (decodeOp3D w)
  | 0x3E => r (decodeOp3E w)
  | 0x3F => r (decodeOp3F w)
  | 0x40 => r (decodeOp40 w)
  | 0x41 => r (decodeOp41 w)
  | 0x42 => r (decodeOp42 w)
  | 0x43 => r (decodeOp43 w)
  | 0x44 => r (decodeOp44 w)
  | 0x45 => r (decodeOp45 w)
  | 0x46 => r (decodeOp46 w)
  | 0x47 => r (decodeOp47 w)
  | 0x50 => r (decodeOp50 w)
  | 0x51 => r (decodeOp51 w)
  | 0x52 => r (decodeOp52 w)
  | 0x53 => r (decodeOp53 w)
  | 0x54 => r (decodeOp54 w)
  | 0x55 => r (decodeOp55 w)
  | 0x56 => r (decodeOp56 w)
  | 0x57 => r (decodeOp57 w)
  | 0x58 => r (decodeOp58 w)
  | 0x59 => r (decodeOp59 w)
  | 0x5A => r (decodeOp5A w)
  | 0x5B => r (decodeOp5B w)
  | 0x5C => r (decodeOp5C w)
  | 0x5D => r (decodeOp5D w)
  | 0x5E => r (decodeOp5E w)
  | 0x5F => r (decodeOp5F w)
  | 0x60 => r (decodeOp60 w)
  | 0x61 => r (decodeOp61 w)
  | 0x62 => r (decodeOp62 w)
  | 0x63 => r (decodeOp63 w)
  | 0x68 => r (decodeOp68 w)
  | 0x69 => r (decodeOp69 w)
  | 0x6A => r (decodeOp6A w)
  | 0x6B => r (decodeOp6B w)
  | 0x6C => r (decodeOp6C w)
  | 0x6D => r (decodeOp6D w)
  | 0x70 => r (decodeOp70 w)
  | 0x71 => r (decodeOp71 w)
  | 0x72 => r (decodeOp72 w)
  | _ => .error .opcode

/-- The instruction that a word's fields name, before the limits of `Instr.wf`; `w2` is the word that follows, which a
`loop` consumes as its step word (R33). -/
def decodeRaw (w w2 : BitVec 32) : Except DecodeError Instr := decodeBy (w.extractLsb' 24 7).toNat w w2

/-- Decoding, total on any pair of words: the instruction, or the reason there is none. -/
def decode (w w2 : BitVec 32) : Except DecodeError Instr :=
  match decodeRaw w w2 with
  | .ok i => if i.wf then .ok i else .error .limit
  | .error e => .error e

/-- R33: a `loop` occupies two words, every other word one. -/
def takesStepWord (w : BitVec 32) : Bool := w.extractLsb' 24 7 == 0x1D#7

/-- A field's value at its place in the word. -/
def place {n : Nat} (x : BitVec n) (lo : Nat) : Nat := x.toNat * 2 ^ lo

/-- A word from its settle marker, its opcode and what stands in its bits [23:0] (R25). -/
def wordOf (S : Bool) (op bits : Nat) : BitVec 32 :=
  BitVec.ofNat 32 (S.toNat * 2 ^ 31 + op * 2 ^ 24 + bits)

/-- The word of an instruction from the formats of R25, R34 and the opcode map R28, settle marker and opcode first; `none`
for the steps that have no bits. -/
def encodeWord : Instr → Option (BitVec 32)
  | .add S d a b => some (wordOf S 0x01 (place d 19 + place a 14 + place b 9))
  | .sub S d a b => some (wordOf S 0x01 (place d 19 + place a 14 + place b 9 + 0x1))
  | .and S d a b => some (wordOf S 0x01 (place d 19 + place a 14 + place b 9 + 0x2))
  | .or S d a b => some (wordOf S 0x01 (place d 19 + place a 14 + place b 9 + 0x3))
  | .xor S d a b => some (wordOf S 0x01 (place d 19 + place a 14 + place b 9 + 0x4))
  | .andn S d a b => some (wordOf S 0x01 (place d 19 + place a 14 + place b 9 + 0x5))
  | .orn S d a b => some (wordOf S 0x01 (place d 19 + place a 14 + place b 9 + 0x6))
  | .shl S d a b => some (wordOf S 0x01 (place d 19 + place a 14 + place b 9 + 0x7))
  | .shr S d a b => some (wordOf S 0x01 (place d 19 + place a 14 + place b 9 + 0x8))
  | .sra S d a b => some (wordOf S 0x01 (place d 19 + place a 14 + place b 9 + 0x9))
  | .rol S d a b => some (wordOf S 0x01 (place d 19 + place a 14 + place b 9 + 0xA))
  | .ror S d a b => some (wordOf S 0x01 (place d 19 + place a 14 + place b 9 + 0xB))
  | .slt S d a b => some (wordOf S 0x01 (place d 19 + place a 14 + place b 9 + 0xC))
  | .sltu S d a b => some (wordOf S 0x01 (place d 19 + place a 14 + place b 9 + 0xD))
  | .seq S d a b => some (wordOf S 0x01 (place d 19 + place a 14 + place b 9 + 0xE))
  | .sne S d a b => some (wordOf S 0x01 (place d 19 + place a 14 + place b 9 + 0xF))
  | .min S d a b => some (wordOf S 0x01 (place d 19 + place a 14 + place b 9 + 0x10))
  | .max S d a b => some (wordOf S 0x01 (place d 19 + place a 14 + place b 9 + 0x11))
  | .minu S d a b => some (wordOf S 0x01 (place d 19 + place a 14 + place b 9 + 0x12))
  | .maxu S d a b => some (wordOf S 0x01 (place d 19 + place a 14 + place b 9 + 0x13))
  | .clz S d a => some (wordOf S 0x01 (place d 19 + place a 14 + 0x14))
  | .ctz S d a => some (wordOf S 0x01 (place d 19 + place a 14 + 0x15))
  | .popc S d a => some (wordOf S 0x01 (place d 19 + place a 14 + 0x16))
  | .bswap S d a => some (wordOf S 0x01 (place d 19 + place a 14 + 0x17))
  | .sextB S d a => some (wordOf S 0x01 (place d 19 + place a 14 + 0x18))
  | .sextH S d a => some (wordOf S 0x01 (place d 19 + place a 14 + 0x19))
  | .sextW S d a => some (wordOf S 0x01 (place d 19 + place a 14 + 0x1A))
  | .zextB S d a => some (wordOf S 0x01 (place d 19 + place a 14 + 0x1B))
  | .zextH S d a => some (wordOf S 0x01 (place d 19 + place a 14 + 0x1C))
  | .zextW S d a => some (wordOf S 0x01 (place d 19 + place a 14 + 0x1D))
  | .mul S d a b => some (wordOf S 0x02 (place d 19 + place a 14 + place b 9))
  | .mulh S d a b => some (wordOf S 0x02 (place d 19 + place a 14 + place b 9 + 0x1))
  | .mulhu S d a b => some (wordOf S 0x02 (place d 19 + place a 14 + place b 9 + 0x2))
  | .div S d a b => some (wordOf S 0x02 (place d 19 + place a 14 + place b 9 + 0x3))
  | .divu S d a b => some (wordOf S 0x02 (place d 19 + place a 14 + place b 9 + 0x4))
  | .rem S d a b => some (wordOf S 0x02 (place d 19 + place a 14 + place b 9 + 0x5))
  | .remu S d a b => some (wordOf S 0x02 (place d 19 + place a 14 + place b 9 + 0x6))
  | .csel S d a b c n => some (wordOf S 0x03 (place d 19 + place a 14 + place b 9 + place c 4 + place n 0))
  | .bfx S d a l w => some (wordOf S 0x04 (place d 19 + place a 14 + place l 8 + place w 0))
  | .bfxz S d a l w => some (wordOf S 0x05 (place d 19 + place a 14 + place l 8 + place w 0))
  | .bins S d a l w => some (wordOf S 0x06 (place d 19 + place a 14 + place l 8 + place w 0))
  | .addi S d a i => some (wordOf S 0x08 (place d 19 + place a 14 + place i 0))
  | .andi S d a i => some (wordOf S 0x09 (place d 19 + place a 14 + place i 0))
  | .ori S d a i => some (wordOf S 0x0A (place d 19 + place a 14 + place i 0))
  | .xori S d a i => some (wordOf S 0x0B (place d 19 + place a 14 + place i 0))
  | .slti S d a i => some (wordOf S 0x0C (place d 19 + place a 14 + place i 0))
  | .sltiu S d a i => some (wordOf S 0x0D (place d 19 + place a 14 + place i 0))
  | .shli S d a i => some (wordOf S 0x0E (place d 19 + place a 14 + place i 0))
  | .shri S d a i => some (wordOf S 0x0F (place d 19 + place a 14 + place i 0))
  | .srai S d a i => some (wordOf S 0x10 (place d 19 + place a 14 + place i 0))
  | .lui S d i => some (wordOf S 0x11 (place d 19 + place i 0))
  | .addpc S d i => some (wordOf S 0x12 (place d 19 + place i 0))
  | .br S a b c o => some (wordOf S 0x18 (place a 19 + place b 14 + place c 10 + place o 0))
  | .j S o => some (wordOf S 0x19 (place o 0))
  | .jal S o => some (wordOf S 0x1A (place o 0))
  | .jr S d a => some (wordOf S 0x1B (place d 19 + place a 14))
  | .skip S a b c n => some (wordOf S 0x1C (place a 19 + place b 14 + place c 10 + place n 0))
  | .loop S a n _ => some (wordOf S 0x1D (place a 14 + place n 0))
  | .endGroup S => some (wordOf S 0x1E 0)
  | .trap S i => some (wordOf S 0x1F (place i 0))
  | .creadCur S d a => some (wordOf S 0x20 (place d 19 + place a 14))
  | .creadBase S d a => some (wordOf S 0x20 (place d 19 + place a 14 + 0x1))
  | .creadLen S d a => some (wordOf S 0x20 (place d 19 + place a 14 + 0x2))
  | .creadPerm S d a => some (wordOf S 0x20 (place d 19 + place a 14 + 0x3))
  | .creadSpace S d a => some (wordOf S 0x20 (place d 19 + place a 14 + 0x4))
  | .creadOwner S d a => some (wordOf S 0x20 (place d 19 + place a 14 + 0x5))
  | .creadTag S d a => some (wordOf S 0x20 (place d 19 + place a 14 + 0x6))
  | .ccopy S d a => some (wordOf S 0x20 (place d 19 + place a 14 + 0x7))
  | .cstrip S d a => some (wordOf S 0x20 (place d 19 + place a 14 + 0x8))
  | .cshift S d a b => some (wordOf S 0x21 (place d 19 + place a 14 + place b 9))
  | .cshifti S d a i => some (wordOf S 0x22 (place d 19 + place a 14 + place i 0))
  | .cnarrow S d a b => some (wordOf S 0x23 (place d 19 + place a 14 + place b 9))
  | .cmask S d a m => some (wordOf S 0x24 (place d 19 + place a 14 + place m 0))
  | .cspace S d a => some (wordOf S 0x25 (place d 19 + place a 14))
  | .ccast S d a t => some (wordOf S 0x26 (place d 19 + place a 14 + place t 0))
  | .cderive S d a b => some (wordOf S 0x27 (place d 19 + place a 14 + place b 9))
  | .ldSb S d b o => some (wordOf S 0x30 (place d 19 + place b 14 + place o 0))
  | .ldZb S d b o => some (wordOf S 0x31 (place d 19 + place b 14 + place o 0))
  | .ldSh S d b o => some (wordOf S 0x32 (place d 19 + place b 14 + place o 0))
  | .ldZh S d b o => some (wordOf S 0x33 (place d 19 + place b 14 + place o 0))
  | .ldSw S d b o => some (wordOf S 0x34 (place d 19 + place b 14 + place o 0))
  | .ldZw S d b o => some (wordOf S 0x35 (place d 19 + place b 14 + place o 0))
  | .ldD S d b o => some (wordOf S 0x36 (place d 19 + place b 14 + place o 0))
  | .ldC S d b o => some (wordOf S 0x37 (place d 19 + place b 14 + place o 0))
  | .stB S d b o => some (wordOf S 0x38 (place d 19 + place b 14 + place o 0))
  | .stH S d b o => some (wordOf S 0x39 (place d 19 + place b 14 + place o 0))
  | .stW S d b o => some (wordOf S 0x3A (place d 19 + place b 14 + place o 0))
  | .stD S d b o => some (wordOf S 0x3B (place d 19 + place b 14 + place o 0))
  | .stC S d b o => some (wordOf S 0x3C (place d 19 + place b 14 + place o 0))
  | .amoAdd S d a b z => some (wordOf S 0x3D (place d 19 + place a 14 + place b 9 + place z 8))
  | .amoAnd S d a b z => some (wordOf S 0x3D (place d 19 + place a 14 + place b 9 + place z 8 + 0x1))
  | .amoOr S d a b z => some (wordOf S 0x3D (place d 19 + place a 14 + place b 9 + place z 8 + 0x2))
  | .amoXor S d a b z => some (wordOf S 0x3D (place d 19 + place a 14 + place b 9 + place z 8 + 0x3))
  | .amoSwap S d a b z => some (wordOf S 0x3D (place d 19 + place a 14 + place b 9 + place z 8 + 0x4))
  | .amoSmax S d a b z => some (wordOf S 0x3D (place d 19 + place a 14 + place b 9 + place z 8 + 0x5))
  | .amoSmin S d a b z => some (wordOf S 0x3D (place d 19 + place a 14 + place b 9 + place z 8 + 0x6))
  | .amoCas S d a b z => some (wordOf S 0x3D (place d 19 + place a 14 + place b 9 + place z 8 + 0x7))
  | .ldAcq S d a z p => some (wordOf S 0x3D (place d 19 + place a 14 + place z 8 + place p 4 + 0x8))
  | .stRel S a b z p => some (wordOf S 0x3D (place a 14 + place b 9 + place z 8 + place p 4 + 0x9))
  | .fenceSl S => some (wordOf S 0x3E 0)
  | .fenceAcq S p => some (wordOf S 0x3E (place p 4 + 0x1))
  | .fenceRel S p => some (wordOf S 0x3E (place p 4 + 0x2))
  | .fenceFull S p => some (wordOf S 0x3E (place p 4 + 0x3))
  | .sbind S d a b n r z => some (wordOf S 0x3F (place d 19 + place a 14 + place b 9 + place n 3 + place r 2 + place z 0))
  | .sunbind S d n => some (wordOf S 0x3F (place d 19 + 0x100 + place n 3))
  | .vintAdd S d a b m t => some (wordOf S 0x40 (place d 20 + place a 16 + place b 12 + place m 7 + place t 5))
  | .vintSub S d a b m t => some (wordOf S 0x40 (place d 20 + place a 16 + place b 12 + place m 7 + place t 5 + 0x1))
  | .vintAdds S d a b m t => some (wordOf S 0x40 (place d 20 + place a 16 + place b 12 + place m 7 + place t 5 + 0x2))
  | .vintSubs S d a b m t => some (wordOf S 0x40 (place d 20 + place a 16 + place b 12 + place m 7 + place t 5 + 0x3))
  | .vintMul S d a b m t => some (wordOf S 0x40 (place d 20 + place a 16 + place b 12 + place m 7 + place t 5 + 0x4))
  | .vintMulh S d a b m t => some (wordOf S 0x40 (place d 20 + place a 16 + place b 12 + place m 7 + place t 5 + 0x5))
  | .vintMin S d a b m t => some (wordOf S 0x40 (place d 20 + place a 16 + place b 12 + place m 7 + place t 5 + 0x6))
  | .vintMax S d a b m t => some (wordOf S 0x40 (place d 20 + place a 16 + place b 12 + place m 7 + place t 5 + 0x7))
  | .vintMinu S d a b m t => some (wordOf S 0x40 (place d 20 + place a 16 + place b 12 + place m 7 + place t 5 + 0x8))
  | .vintMaxu S d a b m t => some (wordOf S 0x40 (place d 20 + place a 16 + place b 12 + place m 7 + place t 5 + 0x9))
  | .vintAnd S d a b m t => some (wordOf S 0x40 (place d 20 + place a 16 + place b 12 + place m 7 + place t 5 + 0xA))
  | .vintOr S d a b m t => some (wordOf S 0x40 (place d 20 + place a 16 + place b 12 + place m 7 + place t 5 + 0xB))
  | .vintXor S d a b m t => some (wordOf S 0x40 (place d 20 + place a 16 + place b 12 + place m 7 + place t 5 + 0xC))
  | .vintShl S d a b m t => some (wordOf S 0x40 (place d 20 + place a 16 + place b 12 + place m 7 + place t 5 + 0xD))
  | .vintShr S d a b m t => some (wordOf S 0x40 (place d 20 + place a 16 + place b 12 + place m 7 + place t 5 + 0xE))
  | .vintSra S d a b m t => some (wordOf S 0x40 (place d 20 + place a 16 + place b 12 + place m 7 + place t 5 + 0xF))
  | .vintAbs S d a m t => some (wordOf S 0x40 (place d 20 + place a 16 + place m 7 + place t 5 + 0x10))
  | .vintNeg S d a m t => some (wordOf S 0x40 (place d 20 + place a 16 + place m 7 + place t 5 + 0x11))
  | .vfpAdd S d a b m => some (wordOf S 0x41 (place d 20 + place a 16 + place b 12 + place m 7))
  | .vfpSub S d a b m => some (wordOf S 0x41 (place d 20 + place a 16 + place b 12 + place m 7 + 0x1))
  | .vfpMul S d a b m => some (wordOf S 0x41 (place d 20 + place a 16 + place b 12 + place m 7 + 0x2))
  | .vfpFma S d a b m => some (wordOf S 0x41 (place d 20 + place a 16 + place b 12 + place m 7 + 0x3))
  | .vfpMin S d a b m => some (wordOf S 0x41 (place d 20 + place a 16 + place b 12 + place m 7 + 0x4))
  | .vfpMax S d a b m => some (wordOf S 0x41 (place d 20 + place a 16 + place b 12 + place m 7 + 0x5))
  | .vfpAbs S d a m => some (wordOf S 0x41 (place d 20 + place a 16 + place m 7 + 0x6))
  | .vfpNeg S d a m => some (wordOf S 0x41 (place d 20 + place a 16 + place m 7 + 0x7))
  | .vfpExp2 S d a m => some (wordOf S 0x41 (place d 20 + place a 16 + place m 7 + 0x8))
  | .vfpLog2 S d a m => some (wordOf S 0x41 (place d 20 + place a 16 + place m 7 + 0x9))
  | .vfpRecip S d a m => some (wordOf S 0x41 (place d 20 + place a 16 + place m 7 + 0xA))
  | .vfpRsqrt S d a m => some (wordOf S 0x41 (place d 20 + place a 16 + place m 7 + 0xB))
  | .vcmp S a b d t c => some (wordOf S 0x42 (place a 16 + place b 12 + place d 7 + place t 5 + place c 0))
  | .vsel S d a b m => some (wordOf S 0x43 (place d 20 + place a 16 + place b 12 + place m 7))
  | .vperm S d a b m => some (wordOf S 0x43 (place d 20 + place a 16 + place b 12 + place m 7 + 0x20))
  | .vbcast S d g => some (wordOf S 0x43 (place d 20 + place g 7 + 0x40))
  | .vslide S d a g u => some (wordOf S 0x43 (place d 20 + place a 16 + place g 7 + 0x60 + place u 4))
  | .vredSumI32 S d a m => some (wordOf S 0x44 (place d 20 + place a 16 + place m 7))
  | .vredMinI32 S d a m => some (wordOf S 0x44 (place d 20 + place a 16 + place m 7 + 0x4))
  | .vredMaxI32 S d a m => some (wordOf S 0x44 (place d 20 + place a 16 + place m 7 + 0x8))
  | .vredSumF32 S d a m => some (wordOf S 0x44 (place d 20 + place a 16 + place m 7 + 0xD))
  | .vredMinF32 S d a m => some (wordOf S 0x44 (place d 20 + place a 16 + place m 7 + 0x11))
  | .vredMaxF32 S d a m => some (wordOf S 0x44 (place d 20 + place a 16 + place m 7 + 0x15))
  | .vtopk S d a k u t => some (wordOf S 0x44 (place d 20 + place a 16 + place k 7 + 0x20 + place u 4 + place t 0))
  | .vcvtTobf S d a m => some (wordOf S 0x45 (place d 20 + place a 16 + place m 7))
  | .vcvtFrombf S d a m => some (wordOf S 0x45 (place d 20 + place a 16 + place m 7 + 0x1))
  | .vcvtItof S d a m => some (wordOf S 0x45 (place d 20 + place a 16 + place m 7 + 0x2))
  | .vcvtFtoi S d a m => some (wordOf S 0x45 (place d 20 + place a 16 + place m 7 + 0x3))
  | .vcvtSat8 S d a m => some (wordOf S 0x45 (place d 20 + place a 16 + place m 7 + 0x4))
  | .vcvtSat16 S d a m => some (wordOf S 0x45 (place d 20 + place a 16 + place m 7 + 0x5))
  | .vcvtMxq S d a b => some (wordOf S 0x45 (place d 20 + place a 16 + place b 12 + 0x6))
  | .vcvtMxd S d a b => some (wordOf S 0x45 (place d 20 + place a 16 + place b 12 + 0x7))
  | .vcvtTdec S d a m => some (wordOf S 0x45 (place d 20 + place a 16 + place m 7 + 0x8))
  | .vcvtTenc S d a m => some (wordOf S 0x45 (place d 20 + place a 16 + place m 7 + 0x9))
  | .vld S d b m z => some (wordOf S 0x46 (place d 20 + place b 15 + place m 7 + place z 4))
  | .vst S d b m z => some (wordOf S 0x46 (place d 20 + place b 15 + place m 7 + 0x40 + place z 4))
  | .vsetvl S d a => some (wordOf S 0x47 (place d 19 + place a 14))
  | .vmovgToG S d v b => some (wordOf S 0x47 (place d 19 + place v 14 + place b 9 + 0x1))
  | .vmovgToV S v a b => some (wordOf S 0x47 (place v 19 + place a 14 + place b 9 + 0x2))
  | .vectorBind _ _ => none
  | .kclr S k => some (wordOf S 0x50 (place k 21))
  | .kset S k a f i => some (wordOf S 0x51 (place k 21 + place a 16 + place f 10 + place i 0))
  | .kcap S k a w i => some (wordOf S 0x52 (place k 21 + place a 16 + place w 13 + place i 0))
  | .push S k a => some (wordOf S 0x53 (place k 21 + place a 16))
  | .gissueWide S k => some (wordOf S 0x54 (place k 21))
  | .gissueDeep S k => some (wordOf S 0x54 (place k 21 + 0x400))
  | .jointOperation _ => none
  | .cascade S a => some (wordOf S 0x55 (place a 14))
  | .qsave S => some (wordOf S 0x56 0)
  | .qload S => some (wordOf S 0x57 0)
  | .evset S e => some (wordOf S 0x58 (place e 0))
  | .evclr S e => some (wordOf S 0x58 (0x1000 + place e 0))
  | .evpost S a e => some (wordOf S 0x58 (place a 14 + 0x2000 + place e 0))
  | .eventBitUpdate _ => none
  | .evwait S e => some (wordOf S 0x59 (place e 0))
  | .wsync S p => some (wordOf S 0x5A (place p 0))
  | .weirRelease _ _ => none
  | .tbegin S => some (wordOf S 0x5B 0)
  | .tend S => some (wordOf S 0x5B 0x1)
  | .tsend S a c n => some (wordOf S 0x5C (place a 14 + place c 7 + place n 0))
  | .trecv S d c n => some (wordOf S 0x5D (place d 19 + place c 7 + place n 0))
  | .timedFlitArrival _ _ => none
  | .send S a b c => some (wordOf S 0x5E (place a 14 + place b 9 + place c 5))
  | .recv S d c => some (wordOf S 0x5E (place d 19 + place c 5 + 0x1))
  | .bwait S a b => some (wordOf S 0x5F (place a 14 + place b 9))
  | .balloc S d => some (wordOf S 0x60 (place d 19))
  | .bankZeroingEnd _ _ => none
  | .bfree S a => some (wordOf S 0x61 (place a 14))
  | .launch S d a => some (wordOf S 0x62 (place d 19 + place a 14))
  | .taskDeposit _ _ => none
  | .dtload S a => some (wordOf S 0x63 (place a 14))
  | .sysrd S d n => some (wordOf S 0x68 (place d 19 + place n 0))
  | .syswr S a n => some (wordOf S 0x69 (place a 14 + place n 0))
  | .syswrStatus S a => some (wordOf S 0x69 (place a 14))
  | .syswrPriv S a => some (wordOf S 0x69 (place a 14 + 0x1))
  | .syswrPrivsz S a => some (wordOf S 0x69 (place a 14 + 0x13))
  | .syswrXbase S a => some (wordOf S 0x69 (place a 14 + 0x40))
  | .syswrXlimit S a => some (wordOf S 0x69 (place a 14 + 0x41))
  | .eret S => some (wordOf S 0x6A 0)
  | .tlbinvCtx S a p => some (wordOf S 0x6B (place a 14 + place p 2))
  | .tlbinvPage S a p => some (wordOf S 0x6B (place a 14 + place p 2 + 0x1))
  | .tlbinvAll S p => some (wordOf S 0x6B (place p 2 + 0x2))
  | .wfi S => some (wordOf S 0x6C 0)
  | .wfiWake _ _ => none
  | .brk S i => some (wordOf S 0x6D (place i 0))
  | .dld S d b o => some (wordOf S 0x70 (place d 19 + place b 14 + place o 0))
  | .dst S d b o => some (wordOf S 0x71 (place d 19 + place b 14 + place o 0))
  | .dfence S => some (wordOf S 0x72 0)
  | .replayWalkDone _ => none
  | .storePerform _ _ => none
  | .loadReturn _ _ => none
  | .translationWalk _ _ _ => none
  | .mmT _ => none
  | .mmS _ => none
  | .drain _ => none
  | .stest _ _ => none
  | .selfTestInjection _ _ => none
  | .srch _ => none
  | .resid _ => none
  | .copy _ => none
  | .fill _ => none
  | .xformPackTrits _ => none
  | .xformUnpack _ => none
  | .xformSwizzle _ => none
  | .xformTranspose _ => none
  | .xformSparseEncode _ => none
  | .xformSparseDecode _ => none
  | .xformMxint8Quantise _ => none
  | .xformBf16Widen _ => none
  | .tern _ => none
  | .copyChunk _ => none
  | .gather _ => none
  | .scatter _ => none
  | .scadd _ => none
  | .pages _ => none
  | .dipperBatch _ => none
  | .merge _ => none
  | .rsend _ => none
  | .rrecv _ => none
  | .rillBeatArrival _ _ => none
  | .rillCreditReturn _ => none
  | .engineCompletion _ _ _ => none
  | .timingFault _ _ => none
  | .gcycLimit _ => none
  | .cascadeBlockLoad _ => none
  | .blockMmT _ => none
  | .blockMmS _ => none
  | .blockDrain _ => none
  | .blockBranch _ => none
  | .blockYield _ => none
  | .blockEnd _ => none
  | .blockPad _ => none
  | .blockEvset _ => none
  | .impreciseFault _ => none
  | .trapEntry _ => none
  | .singleStep _ => none
  | .preemptionRequest _ _ => none
  | .groupFreeze _ => none
  | .groupRelease _ => none
  | .fatalKill _ => none
  | .pairdiv _ _ => none
  | .coreRetire _ => none
  | .gangLaunch _ => none
  | .starvationGuard _ _ => none
  | .gangRetire _ => none
  | .watchdogT1 _ => none
  | .watchdogT2 _ => none
  | .watchdogT3 _ => none
  | .gangResume _ => none
  | .ringReserve _ _ => none
  | .ringCommit _ => none
  | .ringStart _ => none
  | .failureRecord _ => none
  | .gangabort _ => none
  | .uncorrectableError _ _ => none
  | .eccRecovery _ => none
  | .submit _ _ => none
  | .mread _ _ => none
  | .mwrite _ _ => none
  | .torharBadTransaction _ => none
  | .qset _ _ _ _ _ _ => none
  | .unfence _ _ => none
  | .root _ _ _ _ => none
  | .clean _ _ _ _ => none
  | .stream _ _ => none
  | .clock _ _ _ => none
  | .clockChange _ => none
  | .ringrd _ _ _ => none
  | .evclrService _ _ _ => none
  | .hwin _ _ _ _ => none
  | .attest _ _ => none
  | .serviceUnknown _ _ => none
  | .powerCheck _ _ _ => none
  | .moduleReset => none
  | .systemKillRequest _ _ => none

/-- The words of an instruction, in the order a program holds them (R24, R33). -/
def encode (i : Instr) : Option (List (BitVec 32)) :=
  match i, encodeWord i with
  | .loop _ _ _ step, some w => some [w, step]
  | _, some w => some [w]
  | _, none => none

/-- The instruction read from one whose bits are w, numbered from bit 0 of its first word, the second word's bits counting
on from 32; bits above nbits are 0. -/
def decodeTableWord (nbits w : Nat) : Option Instr :=
  let x := w % 2 ^ nbits
  (decode (BitVec.ofNat 32 x) (BitVec.ofNat 32 (x / 2 ^ 32))).toOption

end Sys2Proof
end

