-- ==== Sys2Proof/Config.lean ====
section
/-! DEFINITION. What the spec leaves to the part: the free values, which no proof can evaluate, and the figures of
the module (R1, R3, R97, R137). A mark such as [DEDUCED An, unsafe] in this package names the entry notes/assumptions/n.md. -/

namespace Sys2Proof.Config

/-- The pattern the device returns for `exp2`, `log2`, `recip` and `rsqrt` (op 8-11) of R266 on an input pattern, where it
lies within the bound of that rule. Free. [DESIGN CHOICE A9, safe] -/
opaque approxChoice : Nat → BitVec 32 → BitVec 32

/-- The SHA-384 extension of a measurement register by a digest (R373 step 5). Free. [DESIGN CHOICE A13, unsafe] -/
opaque extendMeasurement : BitVec 384 → BitVec 384 → BitVec 384

/-- The two device signatures over an attestation report, as bytes (R374). Free. [DESIGN CHOICE A13, unsafe] -/
opaque reportSignatures : List (BitVec 8) → List (BitVec 8)

/-- What the bytes of a retired block hold once a spare stands in its place without a copy to reload (R141), by the number of
blocks lost before and the address. Free. [DESIGN CHOICE A16, safe] -/
opaque lostByte : Nat → Nat → BitVec 8

/-- Numbers of compute cores, memory cores, clusters and dies (R3). -/
def computeCores : Nat := 2048
def memoryCores : Nat := 128
def clusters : Nat := 128
def dies : Nat := 16

/-- Bases and sizes of the windows (R97, R128). -/
def privateBase : Nat := 0x20_0000
def scratchBase : Nat := 0x40_0000
def scratchEnd : Nat := 0x60_0000
def clusterBase : Nat := 0x80_0000
def clusterEnd : Nat := 0xC0_0000
def sramBase : Nat := 0x0000_0100_0000_0000
def sramClusters : Nat := 0x1_0000_0000
def sramSize : Nat := 0x1_2000_0000
def externalBase : Nat := 0x0001_0000_0000_0000
def externalEnd : Nat := 0x0200_0000_0000_0000
def sliceSize : Nat := 0x20_0000
def clusterSize : Nat := 0x40_0000
def contextSize : Nat := 0x1_8000

/-- What TRAPVAL holds for an error in the Basin (R141), which has no address: by core and bank. Free. [DESIGN CHOICE A16, safe] -/
opaque basinAddress : Nat → Nat → BitVec 64

/-- Physical addresses (R137): the LPDDR6 of a die, the SRAM alias, the host windows. A home address is a physical one, but that the
scratchpads and the Basin, which no physical address reaches, stand above them in this model, and host memory above all, by its host
address (R370). -/
def lpddrPerDie : Nat := 0x10_0000_0000
def sramHome : Nat := 0x4_0000_0000_0000
def hostBase : Nat := 0x8_0000_0000_0000
def scratchpadHome : Nat := 0x10_0000_0000_0000
def scratchpadSize : Nat := 0x4_0000
def basinHome : Nat := 0x20_0000_0000_0000
def basinSize : Nat := 0x1_0000
def hostHome : Nat := 0x1_0000_0000_0000_0000

end Sys2Proof.Config
end

