-- ==== Sys2Proof/Machine/State.lean ====
section
/-! DEFINITION. The state of the module: every piece of state the spec gives it (INVENTORY.md, '## State'), as plain data,
and its value right after module reset. -/

namespace Sys2Proof.Machine

/-- Reasons a step stops. [DESIGN CHOICE A59, safe] -/
inductive Fault where
  /-- Raised by a step of an engine, a manager or the host that names a core, cluster, die or size the module does not have
  (R3). Safe: no such step takes place. -/
  | noSuchUnit
  deriving DecidableEq, Repr

/-- Reasons an instruction has no meaning here. -/
inductive Refusal where
  /-- Raised by an arm of `exec` for an instruction that has no meaning yet. Safe. -/
  | notModelled (mnemonic : String)
  deriving DecidableEq, Repr

/-- A general register: 128 bits and a tag; word 0 is bits [63:0] (R50, R53). -/
structure Reg where
  tag : Bool
  w1 : Word
  w0 : Word
  deriving DecidableEq, Repr

/-- Untagged zero (R50). -/
def Reg.zero : Reg := ⟨false, 0, 0⟩

/-- The life of a core: held in reset (R373), free, running words, parked by `wfi` (R114), retiring after `end` (R92), or
stopped by a kill (R120). -/
inductive RunState where
  | held | free | running | parked | retiring | stopped
  deriving DecidableEq, Repr

/-- What a trap records (R101, R102, R104) and whether it leaves Cascade mode (R259). -/
structure TrapInfo where
  code : Nat
  val : Word
  seq : Word
  source : Nat
  imprecise : Bool
  fatal : Bool
  pc : Word
  leaves : Bool
  deriving DecidableEq, Repr

/-- What a core waits for in the middle of a word that has begun: a Weir (R209, R333), the dropping of translations with the
accesses that may have used one (R319),
the copies of the window table (R311), a walk (R135) or its failure, the return to a frozen group (R119). -/
inductive Wait where
  | none
  | weir (kind : WeirKind) (scope : Nat) (S : Bool)
  | translators (dieOnly : Bool) (S : Bool) (ids : List Nat)
  | table (S : Bool)
  | walk (va : Nat) (need : Need)
  | walkFailed (va : Nat)
  | release
  deriving DecidableEq, Repr

/-- How an atomic-group operation or a load changes its bytes and its register (R166, R167, R169); `direct` is a `dst` that has its
translation, which does not pass the store buffer (R178, R182). -/
inductive MemKind where
  | load (signed : Bool)
  | loadCap
  | loadAcq (scope : Nat)
  | store
  | direct
  | storeCap (tag : Bool)
  | storeRel (scope : Nat)
  | amo (op : Nat) (expected : Nat)
  | fence (kind : Nat) (scope : Nat)
  | vector (isStore : Bool)
  | deposit
  deriving DecidableEq, Repr

/-- An access of a core that has issued and not yet performed or returned, in program order (R180-R189). `home` is the
home address, `due` the cycle from which a store may perform (R182) or a result return (R72), `dst` the register a result goes to unless a younger
instruction has written it (R72), `value` the value of an access that has performed and not yet returned. -/
structure MemOp where
  id : Nat
  kind : MemKind
  home : Nat
  size : Nat
  data : Nat
  dst : Option Nat
  near : Bool
  due : Option Nat
  value : Option Reg
  deriving DecidableEq, Repr

/-- An entry of a memory core's replay queue (R178): waiting for its walk, or parked after a failed one, and whether it has been
reported since. -/
structure ReplayEntry where
  va : Nat
  data : Word
  parked : Bool
  told : Bool
  deriving DecidableEq, Repr

/-- A translation held in a TLB (R133, R136, R138): page base and size, the frame's address and the leaf's bits. -/
structure TlbEntry where
  ctx : Nat
  base : Nat
  size : Nat
  frame : Nat
  leaf : Word
  deriving DecidableEq, Repr

/-- A queued command (R37, R197): the word as queued, its number, the cycle it entered the queue, the four slot capabilities
taken at `push` (R110), the level that pushed it (R109), the join of a joint part (R237), and the rows a stopped Dipper
command has written (R284, R286). -/
structure Cmd where
  word : BitVec 256
  seq : BitVec 32
  enters : Nat
  slots : Vector Reg 4
  system : Bool
  joint : Option Bool
  base : Nat
  deriving DecidableEq, Repr

/-- A vector word in the vector queue with the values taken at its issue (R207, R263): entry cycle, VL, mask or the g
operands, the result register, the address of a `vld` or `vst`, and once bound its lane group and finishing cycle, its result
for a g register, the bytes of a `vst` and the last cycle of its occupancy, on which they perform, and the pieces that a `vld` has read
(R264). -/
structure VecEntry where
  id : Nat
  instr : Instr
  enters : Nat
  vl : Nat
  mask : Option Word
  x : Word
  y : Word
  dst : Option Nat
  home : Nat
  bound : Option (Nat × Nat)
  result : Option Word
  data : List (Nat × Byte)
  performAt : Nat
  pieces : Nat
  deriving DecidableEq, Repr

/-- A message waiting in a receive channel (R197, R214); `src` as R111 writes it. -/
structure Message where
  channel : Nat
  src : Nat
  data : Word
  deriving DecidableEq, Repr

/-- A message of a checked pair that waits for its twin at the quad's mesh port (R123): channel, target and data, and the answer
of the target once the twin has brought it. -/
structure PairMessage where
  channel : Nat
  target : Word
  data : Word
  answer : Option Bool
  deriving DecidableEq, Repr

/-- A timed receive post (R197, R212): `made` is its issue cycle in GCYC terms of the die, `id` its place in the order of
issue (R72). -/
structure Post where
  id : Nat
  channel : Nat
  src : Nat
  dst : Nat
  made : Nat
  deriving DecidableEq, Repr

/-- A flit on the T-plane (R211): due on a die cycle, or, once held by a freeze, on a GCYC (R119). -/
structure Flit where
  die : Nat
  src : Nat
  target : Nat
  channel : Nat
  data : Word
  due : Nat
  held : Bool
  deriving DecidableEq, Repr

/-- A Sluice table entry (R312). -/
structure SluiceEntry where
  loc : Nat
  start : Nat
  stop : Nat
  isDst : Bool
  isOpen : Bool
  seq : BitVec 32
  deriving DecidableEq, Repr

/-- A command-ring entry (R315): command, origin, status and sequence number. -/
structure RingEntry where
  cmd : BitVec 256
  origin : Nat
  status : Nat
  seq : BitVec 32
  deriving DecidableEq, Repr

/-- How a command on the array ends: it completes, a row holds a NaN block scale (R236), or a payload line of a block does
not translate (R260). -/
inductive ArrayEnd where
  | done
  | fault (code : Nat)
  | xlate (va : Nat)
  deriving DecidableEq, Repr

/-- The command on a slice's array (R217, R225): its start cycle and the cycle it ends, the windows or steps completed before
it started, the lanes of its slice at its acceptance, the cost of each window of a row and the rows; what it leaves when it ends, the cells of a span of banks (first bank and
number) and bytes of memory by home address, and the flags it sets in MSTAT, each with its cycle and its window (R325). A DRAIN to a stream completes on
`finish` or when its last beat has left, if that is later (R225). -/
structure ArrayRun where
  cmd : Cmd
  start : Nat
  finish : Nat
  origin : Nat
  lanes : Nat
  costs : List Nat
  rows : Nat
  span : Nat × Nat
  cells : List (Nat × BitVec 32)
  bytes : List (Nat × List Byte)
  flags : List (Nat × Nat × Word)
  ending : ArrayEnd
  isBlock : Bool
  bad : BitVec 4
  deriving DecidableEq, Repr

/-- A command a copy engine runs (R262): its start cycle, bytes or rows done, whether the current unit has been moved, the
completion cycle of a timed one (R278) or the end of the current unit of another (R276), the layout record of an XFORM or TERN (R162),
whether nothing is left, and of a timed one the lines that have still to land: offset, home, bytes and tagged granules. -/
structure CopyRun where
  cmd : Cmd
  start : Nat
  done : Nat
  moved : Bool
  finish : Option Nat
  layout : List (BitVec 32)
  ended : Bool
  flight : List (Nat × Nat × List Byte × List Nat)
  deriving DecidableEq, Repr

/-- A core's command in its cluster's Dipper (R284): index entries done, rows written, the entries and rows of the batch that
is open (none when none is), the OOB and NEGLEN increments it will make, the stride that a PAGES has read in its side table (R288), and the cycle on which the last batch ended (R285). -/
structure DipperRun where
  cmd : Cmd
  done : Nat
  rows : Nat
  batch : Option (Nat × Nat)
  oob : Nat
  neglen : Nat
  stride : Nat
  ended : Option Nat
  deriving DecidableEq, Repr

/-- A command the ring engine has accepted (R304): bytes placed or written. -/
structure RingRun where
  cmd : Cmd
  done : Nat
  deriving DecidableEq, Repr

/-- Who holds a Basin bank (R109, R174): nobody, the program's context, or system level. -/
inductive Holder where
  | free | program | system
  deriving DecidableEq, Repr

/-- The block at which a cascade stands (R251): the chain capability, the block's address, its header and command once it has
loaded, the cycle it may start on, the link a BRANCH has selected (R255), and G_R after a freeze (R261). -/
structure Cascade where
  chain : Reg
  block : Nat
  header : Option (BitVec 256)
  cmd : Option Cmd
  start : Nat
  link : Option (BitVec 32)
  resumeAt : Option (BitVec 32)
  deriving DecidableEq, Repr

/-- A pending fault of an engine (R105), with the cycle it was detected on. -/
structure PendingFault where
  code : Nat
  val : Word
  seq : Option (BitVec 32)
  source : Nat
  fatal : Bool
  cycle : Nat
  deriving DecidableEq, Repr

/-- The system registers of R65 that hold bits of their own. GCYC is `gcycBase`, the die cycle at which it was zero, unless
`gcycHeld` freezes it (R322). CTXAREA follows PRIVSZ (R71); CYCLE and SHARE stand with the die and the quad. -/
structure SysRegs where
  status : Word
  priv : Word
  trappc : Word
  trapcause : Word
  trapval : Word
  trapseq : Word
  trapvec : Word
  fmt : Word
  mstat : Word
  progress : Word
  privsz : Word
  gcycBase : Nat
  gcycHeld : Option (BitVec 32)
  loopstate : Word
  stream : Vector Word 4
  dtstat : Word
  pair : Word
  wdog : Word
  xbase : Word
  xlimit : Word
  deriving DecidableEq, Repr

/-- How a core issues: the cycle the next word may issue on (R79), registers whose short result is not ready (R72), the
settle wait (R73), the wait of a word under way, the captured loop body with its step rules (R75), the trap that waits to enter
(R106), the step and pre-emption requests, the latter with its SOURCE (R107), whether no word has issued since an
`eret` (R76, R107), whether the trap under way interrupted a core that was retiring (R92), whether a PREEMPT has been taken from which the core has not returned
(R302), the pending imprecise faults (R105), the channels of the messages in the spill buffer until they are
reloaded (R111), and the SOURCEs of the requests answered RETIRED (R118). -/
structure Issue where
  readyAt : Nat
  regReady : List (Nat × Nat)
  settle : Bool
  wait : Wait
  loopCopy : Option (List (BitVec 32))
  loopRules : BitVec 32
  trapWait : Option TrapInfo
  stepDue : Bool
  preempt : Option Nat
  resumed : Bool
  ending : Bool
  preempted : Bool
  faults : List PendingFault
  spilled : Option (List Nat)
  answered : List Nat
  deriving DecidableEq, Repr

/-- The engine side of a core: queues in the order of R37 (matrix, seed, copy, Dipper, reduction, ring), what each engine
runs, the end of the array's last occupancy and of its last command's (R224), and what trap entry and `qsave` do to them: the cycle from which accepted commands stop at their next boundary (R108, R119)
and the one from which the block of a cascade does (R260), whether the queues have been saved and whether they have been refilled since (R108, R112), the joint marks of what was saved
(R237) and the rows that its stopped Dipper commands had written (R164, R284), and the number of the gang's first command (R315). -/
structure Engines where
  queues : Vector (List Cmd) 6
  array : Option ArrayRun
  freeAt : Nat
  cmdEnd : Nat
  copyRun : Option CopyRun
  landing : List CopyRun
  copyFree : Nat
  dipperRun : Option DipperRun
  reduction : Option Cmd
  ringRuns : List RingRun
  saved : Bool
  refilled : Bool
  savedJoint : List (Option Bool)
  savedBase : List Nat
  ringBase : BitVec 32
  stopAt : Option Nat
  chainStop : Option Nat
  sluice : List SluiceEntry
  ring : List (Nat × RingEntry)
  seq : BitVec 32
  lastStart : Vector Nat 6
  deriving DecidableEq, Repr

/-- What a slice's core or operand port has written on a cycle (R126): the home, the bytes, and the granules that it has tagged. -/
structure OwnWrite where
  home : Nat
  data : List Byte
  tags : List Nat
  deriving DecidableEq, Repr

/-- The matrix slice's and Basin's own state (R124, R174, R217): FMT record, banks' holders and zeroing ends, cells by
`bank × 512 + cell` (an unlisted cell is 0), the decode table (R309), the flags of MSTAT that hardware last set, with the cycle
(R325), and what the slice's core and operand ports have written on a cycle, in their order (R126). -/
structure Slice where
  fmtRecord : BitVec 9
  holders : Vector Holder 32
  zeroed : Vector Nat 32
  basin : List (Nat × BitVec 32)
  dtab : List (Nat × BitVec 19)
  flagged : Nat × Word
  written : Nat × List OwnWrite
  deriving DecidableEq, Repr

/-- One compute core or memory core (R9). `through` are the translations that accesses have used: access, virtual address and entry
(R139, R190). `vready` says when a vector register's last result is written (R264), `vwait` and
`vcredit` are w_j and c_j of the arbiter (R208). -/
structure Core where
  run : RunState
  pc : Word
  g : Vector Reg 32
  k : Vector (BitVec 256) 8
  v : Vector (Vector Word32 64) 16
  sys : SysRegs
  gen : Vector Reg 4
  issue : Issue
  ops : List MemOp
  through : List (Nat × Nat × TlbEntry)
  replay : List ReplayEntry
  tlb : List TlbEntry
  eng : Engines
  vq : List VecEntry
  slice : Slice
  channels : List Message
  outbox : Option PairMessage
  posts : List Post
  cascade : Option Cascade
  gang : Option Nat
  context : Nat
  vready : List (Nat × Nat)
  vwait : Nat
  vcredit : Nat
  deriving DecidableEq, Repr

/-- A quad (R9): SHARE, what it was before a `syswr` of this cycle (R208), and for each lane group the end of its binding and the core that reserves it (R207, R262). -/
structure Quad where
  share : Word
  shareBefore : Option Word
  groupEnd : Vector Nat 4
  reserved : Vector Bool 4
  deriving DecidableEq, Repr

/-- A set or clear of event bits that is still to land (R327): its cycle, none for an `evpost`, whether it sets, the bits, and the core
whose word made it (R328). -/
structure Landing where
  due : Option Nat
  isSet : Bool
  mask : BitVec 256
  src : Option Nat
  deriving DecidableEq, Repr

/-- A cluster (R9): event bits, sets and clears still to land, the bits that sets of a cycle have brought so far (R327), the Dipper's last served core and TLB (R138, R284),
the reduction engine's order of acceptance (R262). -/
structure Cluster where
  ev : BitVec 256
  landing : List Landing
  fresh : Nat × BitVec 256
  lastServed : Option Nat
  tlb : List TlbEntry
  merges : List Nat
  deriving DecidableEq, Repr

/-- A record in a task queue (R291, R292): the 128 bytes, its gang once launched or reserved, the consecutive cycles it has
been ready and whether that has made it blocking (R297), the core whose step holds it back (R122), and whether a PAIRDIV has
sent it back to its slot (R123). -/
structure Record where
  id : Nat
  bytes : List Byte
  gang : Option Nat
  readyFor : Nat
  blocking : Bool
  hold : Option CoreId
  requeued : Bool
  deriving DecidableEq, Repr

/-- A deposit that has left its `launch` or SUBMIT (R294, R295): its name, the core that executed the `launch`, none for a SUBMIT, the context
of that core and whether it stepped when the word issued (R122), and a copy of the record. -/
structure Deposit where
  id : Nat
  source : Option CoreId
  context : Nat
  stepped : Bool
  record : List Byte
  deriving DecidableEq, Repr

/-- A task queue's registers (R291). -/
structure TaskQueue where
  records : List Record
  qcomp : Nat
  qcnt : BitVec 32
  qlim : Nat × Nat × Nat
  halt : Bool
  deriving DecidableEq, Repr

/-- What answers a Torhar transaction (R369, R371): the tag of the SERVICE request that it echoes, none for another transaction, the
status, and what follows it. -/
structure Response where
  die : Nat
  tag : Option (BitVec 16)
  status : Nat
  data : List Byte
  deriving DecidableEq, Repr

/-- A die (R9): CYCLE, clock point and change (R21, R375), the manager's state (R291), deposits on their way (R294), the cycle
and level of the last launch, the levels of the last resumptions, the queues and cores last freed (R297, R302), boot (R373), the last
cycle on which event bits of its clusters have been read (R327), error counters (R140), and measurement registers (R373, R374). `change` are
the clock points that it still has to change to, none for a move one point lower, `closed` the cycle on which a window of it last closed
(R375, R376). -/
structure Die where
  cycle : Nat
  point : Nat
  change : List (Option Nat)
  closed : Option Nat
  queues : Vector TaskQueue 16
  pointers : Vector Nat 4
  fence : BitVec 136
  deposits : List Deposit
  arrived : List (Nat × Deposit)
  taken : Option Nat
  launched : Option (Nat × Nat)
  resumed : Nat × List Nat
  freed : Nat × List Nat × List Nat
  bootStep : Nat
  sampled : Option Nat
  roots : List (Nat × Word)
  corrections : Nat
  measure0 : BitVec 384
  measure1 : BitVec 384
  deriving DecidableEq, Repr

/-- A gang (R291, R302, R333): its record, its members by group, the watchdog, whether its third stage has expired (R302), whether it has been killed while a member has
not stopped yet (R120), the completion record of a kill that waits for the gang's stores (R196, R301), the freeze, the arrival masks, the report of the first fatal trap and the cores that have entered one with the
cycle of their entry (R120), a second run after PAIRDIV; of a ring gang whether
it runs, has been committed (R306), the tick in which this module's part failed, and whether it has been aborted (R308). -/
structure Gang where
  id : Nat
  die : Nat
  queue : Nat
  record : List Byte
  members : List (Nat × List CoreId)
  retired : List CoreId
  stage : Nat
  count : Nat
  stageStart : Nat
  expired : Bool
  killed : Bool
  closing : Option (Nat × Option KillReport)
  freezeAt : Option Nat
  frozen : Bool
  returned : List CoreId
  sync : List (CoreId × Nat × Nat)
  opens : List (CoreId × Nat)
  trap : Option (KillReport)
  fatalAt : List (CoreId × Nat)
  requeued : Bool
  started : Bool
  committed : Bool
  failedAt : Option Nat
  aborted : Bool
  deriving DecidableEq, Repr

/-- An admitted stream (R303, R304): its table entry, beats that wait for credit with the number of the command that placed
them, beats that have left and not arrived, the receive buffer, bytes of its first beat already written, credit at the sender,
and units of credit on their way back to it. -/
structure Stream where
  entry : StreamRequest
  pending : List (BitVec 32 × List Byte)
  flying : List (List Byte)
  buffer : List (List Byte)
  taken : Nat
  credit : Nat
  owed : Nat
  deriving DecidableEq, Repr

/-- A clean backing copy registered for a block (R141, R371). -/
structure CleanCopy where
  base : Nat
  len : Nat
  backing : Nat
  deriving DecidableEq, Repr

/-- What the boot reads from outside the module: whether the image can be read, its signatures, version and digests, and the fuses (R373).
[DESIGN CHOICE A13, unsafe] -/
structure Firmware where
  readable : Bool
  ed25519 : Bool
  mldsa : Bool
  version : Nat
  digest : BitVec 384
  systemOk : Bool
  systemDigest : BitVec 384
  systemCode : List Byte
  trapvec : Word
  rollback : Nat
  serial : Nat
  deriving DecidableEq, Repr

/-- What a Torhar transaction asks of its die (R369, R371). -/
inductive HostOp where
  | submit (record : List Byte)
  | mread (pa n : Nat)
  | mwrite (pa : Nat) (data : List Byte)
  | qset (queue qcomp t1 t2 t3 : Nat)
  | unfence (c : CoreId)
  | root (ctx frame : Nat) (valid : Bool)
  | clean (base len backing : Nat)
  | stream (entry : StreamRequest)
  | clock (mask : BitVec 16) (point : Nat)
  | ringrd (c : CoreId) (sq : BitVec 32)
  | evclr (cluster : Nat) (mask : BitVec 256)
  | hwin (win hbase hlen : Nat)
  | attest (nonce : BitVec 256)
  | unknown (code : Nat)
  deriving DecidableEq, Repr

/-- A Torhar transaction that has arrived and not completed (R369): its die, what it asks, the bytes that an MREAD has read so far
or an MWRITE has still to write, and the sequence tag of a SERVICE request (R371). -/
structure Transaction where
  die : Nat
  op : HostOp
  data : List Byte
  tag : BitVec 16
  deriving DecidableEq, Repr

/-- The module's own state (R9, R303-R308, R369-R376). `meetings` are the arrivals of other modules at ring Weirs, by ring gang, module
and tick (R305, R333). `clockReplies` are the CLOCK requests whose dies have not all changed,
with the die, the tag and the dies left (R371, R375), `tag` is the sequence tag of the SERVICE request that arrives next (R371), `firmwares`
are the dies that find another image or other fuses than `firmware` (R373), `ringCounted` the last deadline of each ring gang number that has
been counted or has ended (R306), `frames` the new frames that the memory manager has chosen for external blocks (R141), `inletHot` whether the coolant inlet was last measured above 35 °C, `lost` counts the blocks whose contents an
error has taken (R141). -/
structure Module where
  number : Nat
  ringSize : Nat
  tick : Nat
  reservations : List (Nat × Nat × Nat)
  failures : List (Nat × Nat × Nat)
  meetings : List (Nat × Nat × Nat)
  windows : Vector (Nat × Nat) 16
  clean : List CleanCopy
  recovering : List Nat
  frames : List (Nat × Nat)
  retiredBlocks : List (Nat × Nat)
  thermalHold : Bool
  inletHot : Bool
  clockReplies : List (Nat × BitVec 16 × List Nat)
  lost : Nat
  interrupts : List (Nat × Nat)
  responses : List Response
  torhar : List Transaction
  firmware : Firmware
  firmwares : List (Nat × Firmware)
  ringCounted : List (Nat × Nat)
  tag : BitVec 16
  deriving DecidableEq, Repr

/-- A window-table value that a die's copy still holds while an update travels (R311): PRIVSZ, XBASE, XLIMIT. -/
structure OldWindow where
  die : Nat
  core : Nat
  privsz : Nat
  xbase : Nat
  xlimit : Nat
  deriving DecidableEq, Repr

/-- One move of the machine: a core issues its next word, an engine, manager or host step takes place, a die cycle
passes, a fetch from outside the slice is slower, a copy of the window table is written, the ring time base ticks, a
reservation, a failure record or an arrival at a ring Weir of another module arrives, or is withdrawn (R305, R334), the Torhar link of
a die moves on by 8 bytes or one transaction (R369), a single-bit error is corrected (R140), the memory manager chooses a new frame for
a block (R141), the host gives its next SERVICE request a sequence tag (R371). [DESIGN CHOICE A1, unsafe] [DESIGN CHOICE A60, safe] -/
inductive Action where
  | issue (c : CoreId)
  | event (i : Instr)
  | tick (d : Nat)
  | slowFetch (c : CoreId) (cycles : Nat)
  | tableCopy (d c : Nat)
  | ringTick
  | ringRecord (gang module tick : Nat)
  | ringFailure (gang module tick : Nat)
  | ringArrival (gang module : Nat) (tick : Option Nat)
  | torhar (d : Nat)
  | correction (d : Nat)
  | chosenFrame (block frame : Nat)
  | requestTag (tag : BitVec 16)
  deriving DecidableEq, Repr

/-- The module. Memory is one list of bytes by home address in canonical form, tags a rising list of 16-byte granules
(R124, R125, R180); the sparse maps list the units that differ from their reset value. `cur` is the core whose word
issues, `agenda` the moves chosen from outside, `nextId` the name of the next access or gang. `released` are the dies whose cores have left reset,
with the TRAPVEC that they have got; those of the others are held there (R373): what an unlisted core is follows from it. -/
structure State where
  cur : CoreId
  agenda : List Action
  nextId : Nat
  mem : List Host.Cell
  tags : List Nat
  released : List (Nat × Word)
  cores : List (Nat × Core)
  quads : List (Nat × Quad)
  clusters : List (Nat × Cluster)
  dies : List (Nat × Die)
  gangs : List Gang
  streams : List (Nat × Stream)
  flits : List Flit
  oldWindows : List OldWindow
  module : Module
  deriving DecidableEq, Repr

/-- System registers at core reset (R65): PRIV 1, PRIVSZ by the kind of core, the others 0. -/
def SysRegs.reset (isMem : Bool) : SysRegs :=
  { status := 0, priv := 1, trappc := 0, trapcause := 0, trapval := 0, trapseq := 0, trapvec := 0, fmt := 0, mstat := 0,
    progress := 0, privsz := if isMem then 0x4_0000 else 0x20_0000, gcycBase := 0, gcycHeld := none, loopstate := 0,
    stream := Vector.replicate 4 0, dtstat := 0, pair := 0, wdog := 0, xbase := 0, xlimit := 0 }

/-- Nothing pending at reset. -/
def Issue.reset : Issue :=
  { readyAt := 0, regReady := [], settle := false, wait := .none, loopCopy := none, loopRules := 0, trapWait := none,
    stepDue := false, preempt := none, resumed := false, ending := false, preempted := false, faults := [], spilled := none, answered := [] }

/-- Empty queues, idle engines, an empty Sluice table and command ring (R197, R262, R309). -/
def Engines.reset : Engines :=
  { queues := Vector.replicate 6 [], array := none, freeAt := 0, cmdEnd := 0, copyRun := none, landing := [], copyFree := 0, dipperRun := none,
    reduction := none, ringRuns := [], saved := false, refilled := false, savedJoint := [], savedBase := [], ringBase := 0, stopAt := none, chainStop := none, sluice := [], ring := [], seq := 0,
    lastStart := Vector.replicate 6 0 }

/-- FMT record 0, no bank held, cells and decode table 0 (R124, R217, R309). -/
def Slice.reset : Slice :=
  { fmtRecord := 0, holders := Vector.replicate 32 .free, zeroed := Vector.replicate 32 0, basin := [], dtab := [], flagged := (0, 0), written := (0, []) }

/-- A core held in reset (R50, R63, R65, R197, R309). [DESIGN CHOICE A3, unsafe] -/
def Core.reset (isMem : Bool) : Core :=
  { run := .held, pc := 0x20_0000, g := Vector.replicate 32 Reg.zero, k := Vector.replicate 8 0,
    v := Vector.replicate 16 (Vector.replicate 64 0), sys := SysRegs.reset isMem, gen := Vector.replicate 4 Reg.zero,
    issue := Issue.reset, ops := [], through := [], replay := [], tlb := [], eng := Engines.reset, vq := [], slice := Slice.reset,
    channels := [], outbox := none, posts := [], cascade := none, gang := none, context := 0, vready := [], vwait := 0, vcredit := 0 }

/-- A core that nothing has changed since the reset: held, or once released free, with the resident code's TRAPVEC (R373). -/
def Core.fresh (released : Option Word) (isMem : Bool) : Core :=
  let x := Core.reset isMem
  match released with
  | none => x
  | some v => { x with run := .free, sys := { x.sys with trapvec := v } }

/-- SHARE 0x0101_0101 and free lane groups (R65, R262). -/
def Quad.reset : Quad :=
  { share := 0x0101_0101, shareBefore := none, groupEnd := Vector.replicate 4 0, reserved := Vector.replicate 4 false }

/-- Event bits clear (R326). -/
def Cluster.reset : Cluster := { ev := 0, landing := [], fresh := (0, 0), lastServed := none, tlb := [], merges := [] }

/-- An empty task queue (R291). -/
def TaskQueue.reset : TaskQueue := { records := [], qcomp := 0, qcnt := 0, qlim := (0, 0, 0), halt := false }

/-- CYCLE 0, nominal clock point 2 (R320), boot not begun (R373). [DESIGN CHOICE A4, unsafe] -/
def Die.reset : Die :=
  { cycle := 0, point := 2, change := [], closed := none, queues := Vector.replicate 16 TaskQueue.reset, pointers := Vector.replicate 4 0,
    fence := 0, deposits := [], arrived := [], taken := none, launched := none, resumed := (0, []), freed := (0, [], []), bootStep := 0, sampled := none, roots := [], corrections := 0, measure0 := 0, measure1 := 0 }

/-- A sound firmware image with nothing in it. [DESIGN CHOICE A13, unsafe] -/
def Firmware.reset : Firmware :=
  { readable := true, ed25519 := true, mldsa := true, version := 0, digest := 0, systemOk := true, systemDigest := 0, systemCode := [],
    trapvec := 0x20_0000, rollback := 0, serial := 0 }

/-- Module state at module reset. [DESIGN CHOICE A4, unsafe] -/
def Module.reset : Module :=
  { number := 0, ringSize := 64, tick := 0, reservations := [], failures := [], meetings := [], windows := Vector.replicate 16 (0, 0),
    clean := [], recovering := [], frames := [], retiredBlocks := [], thermalHold := false, inletHot := false, clockReplies := [], lost := 0,
    interrupts := [], responses := [], torhar := [], firmware := Firmware.reset, firmwares := [], ringCounted := [], tag := 0 }

/-- The module right after reset: every unit at its reset value, memory and tags clear (R124, R373), nothing chosen. -/
def State.reset : State :=
  { cur := .comp 0, agenda := [], nextId := 0, mem := [], tags := [], released := [], cores := [], quads := [], clusters := [], dies := [],
    gangs := [], streams := [], flits := [], oldWindows := [], module := Module.reset }

end Sys2Proof.Machine
end

