-- ==== Sys2Proof/Machine/Ops.lean ====
section
/-! DEFINITION. The named operations over the state: units and their indices (R3), memory by home address (R124, R125, R180),
windows and checks (R56, R128-R132, R165, R312), the store side (R180-R189), the general registers and streams
(R51, R61, R62), taking a trap (R106) and returning from one (R113), and how a word ends (R72-R79). -/

namespace Sys2Proof.Machine
open Sys2Proof

/-! ## Sparse maps -/

/-- The value listed for a key. -/
def mapGet {α : Type} : List (Nat × α) → Nat → Option α
  | [], _ => none
  | (k, a) :: r, n => if k = n then some a else mapGet r n

/-- The map with one key set, keys rising. -/
def mapSet {α : Type} : List (Nat × α) → Nat → α → List (Nat × α)
  | [], n, x => [(n, x)]
  | (k, a) :: r, n, x => if n < k then (n, x) :: (k, a) :: r else if k = n then (n, x) :: r else (k, a) :: mapSet r n x

/-- The map without one key. -/
def mapErase {α : Type} (l : List (Nat × α)) (n : Nat) : List (Nat × α) := l.filter (fun p => p.1 != n)

/-! ## Units and indices (R3) -/

/-- The key of a core in the sparse map: memory core m stands at 4096 + m. -/
def coreKey : CoreId → Nat
  | .comp n => n
  | .mem n => 4096 + n

/-- The core of a key. -/
def coreOfKey (k : Nat) : CoreId := if k < 4096 then .comp k else .mem (k - 4096)

/-- Is the core a memory core. -/
def isMemCore : CoreId → Bool
  | .comp _ => false
  | .mem _ => true

/-- The module-wide index of a core. -/
def coreIndex : CoreId → Nat
  | .comp n => n
  | .mem n => n

/-- The die of a core (R3). -/
def dieOf : CoreId → Nat
  | .comp n => n / 128
  | .mem n => n / 8

/-- The cluster of a core; for a memory core the cluster whose event bits it uses (R3, R326). -/
def clusterOf : CoreId → Nat
  | .comp n => n / 16
  | .mem n => n

/-- The quad of a compute core (R3). -/
def quadOf (n : Nat) : Nat := n / 4

/-- Position of a compute core on its die (R7). -/
def coreX (n : Nat) : Nat := 4 * (n / 16 % 8 % 4) + 2 * (n / 4 % 4 % 2) + n % 4 % 2
/-- Row of a compute core on its die (R7). -/
def coreY (n : Nat) : Nat := 4 * (n / 16 % 8 / 4) + 2 * (n / 4 % 4 / 2) + n % 4 / 2

/-- Hops between two compute cores of a die (R10). -/
def hops (a b : Nat) : Nat :=
  (max (coreX a) (coreX b) - min (coreX a) (coreX b)) + (max (coreY a) (coreY b) - min (coreY a) (coreY b))

/-- A core's state. -/
def State.core (s : State) (c : CoreId) : Core := (mapGet s.cores (coreKey c)).getD (Core.fresh (mapGet s.released (dieOf c)) (isMemCore c))
/-- The state with a core's state replaced. -/
def State.setCore (s : State) (c : CoreId) (x : Core) : State := { s with cores := mapSet s.cores (coreKey c) x }
/-- The state with a core's state changed. -/
def State.modCore (s : State) (c : CoreId) (f : Core → Core) : State := s.setCore c (f (s.core c))
/-- A quad's state. -/
def State.quad (s : State) (q : Nat) : Quad := (mapGet s.quads q).getD Quad.reset
/-- The state with a quad's state replaced. -/
def State.setQuad (s : State) (q : Nat) (x : Quad) : State := { s with quads := mapSet s.quads q x }
/-- A cluster's state. -/
def State.cluster (s : State) (q : Nat) : Cluster := (mapGet s.clusters q).getD Cluster.reset
/-- The state with a cluster's state replaced. -/
def State.setCluster (s : State) (q : Nat) (x : Cluster) : State := { s with clusters := mapSet s.clusters q x }
/-- A die's state. -/
def State.die (s : State) (d : Nat) : Die := (mapGet s.dies d).getD Die.reset
/-- The state with a die's state replaced. -/
def State.setDie (s : State) (d : Nat) (x : Die) : State := { s with dies := mapSet s.dies d x }
/-- The die cycle at a core (R320). -/
def State.now (s : State) (c : CoreId) : Nat := (s.die (dieOf c)).cycle
/-- A gang by its name. -/
def State.gang (s : State) (n : Nat) : Option Gang := s.gangs.find? (fun g => g.id == n)
/-- The state with a gang changed. -/
def State.modGang (s : State) (n : Nat) (f : Gang → Gang) : State :=
  { s with gangs := s.gangs.map (fun g => if g.id == n then f g else g) }
/-- The gang a core runs. -/
def State.gangOf (s : State) (c : CoreId) : Option Gang := (s.core c).gang.bind s.gang
/-- Every member of a gang. -/
def Gang.all (g : Gang) : List CoreId := g.members.flatMap (fun m => m.2)
/-- The compute members of a gang. -/
def Gang.compute (g : Gang) : List Nat := g.all.filterMap (fun c => match c with | .comp n => some n | .mem _ => none)

/-! ## Memory by home address (R24, R124, R125, R180) -/

/-- The byte at a home address; an unlisted byte is zero (R124). [DESIGN CHOICE A56, unsafe] -/
def readCell : List Host.Cell → Nat → Byte
  | [], _ => 0
  | (k, b) :: r, a => if k = a then b else if a < k then 0 else readCell r a

/-- The list with one byte set, in canonical form: addresses rising, no zero listed. -/
def writeCell : List Host.Cell → Nat → Byte → List Host.Cell
  | [], a, b => if b = 0 then [] else [(a, b)]
  | (k, x) :: r, a, b =>
    if a < k then (if b = 0 then (k, x) :: r else (a, b) :: (k, x) :: r)
    else if k = a then (if b = 0 then r else (a, b) :: r)
    else (k, x) :: writeCell r a b

/-- The canonical form of memory: addresses strictly rising, no entry equal to what an unlisted address reads as. [DESIGN CHOICE A56, unsafe] -/
def Memory.wf : List Host.Cell → Bool
  | [] => true
  | [(_, b)] => b != 0
  | (k, b) :: (k', b') :: r => b != 0 && decide (k < k') && Memory.wf ((k', b') :: r)

/-- Set a run of bytes at ascending addresses. -/
def writeCells : List Host.Cell → Nat → List Byte → List Host.Cell
  | m, _, [] => m
  | m, a, b :: r => writeCells (writeCell m a b) (a + 1) r

/-- Set one tag of a rising list of granules. -/
def tagSet : List Nat → Nat → List Nat
  | [], g => [g]
  | k :: r, g => if g < k then g :: k :: r else if k = g then k :: r else k :: tagSet r g

/-- Clear every tag of the granules from a to b. -/
def tagClear (l : List Nat) (a b : Nat) : List Nat := l.filter (fun g => decide (g < a ∨ b < g))

/-- A byte of the module. [DESIGN CHOICE A56, unsafe] -/
def State.byte (s : State) (a : Nat) : Byte := readCell s.mem a
/-- A run of bytes. -/
def State.bytes (s : State) (a n : Nat) : List Byte := (List.range n).map (fun i => s.byte (a + i))
/-- A little-endian number of n bytes (R24). -/
def State.num (s : State) (a n : Nat) : Nat := leNat (s.bytes a n)
/-- Write bytes, clearing the tags of the granules they touch (R125). -/
def State.write (s : State) (a : Nat) (bs : List Byte) : State :=
  if bs.isEmpty then s else
  { s with mem := writeCells s.mem a bs, tags := tagClear s.tags (a / 16) ((a + bs.length - 1) / 16) }
/-- Write an n-byte number. -/
def State.writeNum (s : State) (a n x : Nat) : State := s.write a (leBytes n x)
/-- A granule's tag. -/
def State.tagAt (s : State) (a : Nat) : Bool := s.tags.contains (a / 16)
/-- Set a granule's tag. -/
def State.setTag (s : State) (a : Nat) : State := { s with tags := tagSet s.tags (a / 16) }

/-- The 128 bits of a register as a number. -/
def Reg.num (r : Reg) : Nat := r.w0.toNat + 2 ^ 64 * (if r.tag then r.w1.toNat else 0)

/-! ## Capabilities (R53, R54, R55) -/

/-- An untagged register (R51). -/
def Reg.ofWord (w : Word) : Reg := ⟨false, 0, w⟩
/-- The register with its tag cleared (R52). -/
def Reg.strip (r : Reg) : Reg := ⟨false, 0, r.w0⟩
/-- The fields of R53. -/
def Reg.cursor (r : Reg) : Nat := bitsAt r.w0 0 57
def Reg.space (r : Reg) : Nat := bitsAt r.w0 57 2
def Reg.permR (r : Reg) : Bool := bitAt r.w0 59
def Reg.permW (r : Reg) : Bool := bitAt r.w0 60
def Reg.permX (r : Reg) : Bool := bitAt r.w0 61
def Reg.permC (r : Reg) : Bool := bitAt r.w0 62
def Reg.permG (r : Reg) : Bool := bitAt r.w0 63
def Reg.owner (r : Reg) : Nat := bitsAt r.w1 52 11
def Reg.LN (r : Reg) : Nat := bitsAt r.w1 29 23
def Reg.AN (r : Reg) : Nat := bitsAt r.w1 6 23
def Reg.SH (r : Reg) : Nat := bitsAt r.w1 0 6

/-- The base that a cursor decodes to (R54). -/
def Reg.baseAt (r : Reg) (cursor : Nat) : Int :=
  let cg : Int := (cursor / 2 ^ r.SH : Nat)
  (cg - ((cg - r.AN) % (2 ^ 23 : Nat))) * (2 ^ r.SH : Nat)
/-- Base and top (R54). -/
def Reg.base (r : Reg) : Int := r.baseAt r.cursor
def Reg.top (r : Reg) : Int := r.base + (r.LN * 2 ^ r.SH : Nat)
/-- Is a new cursor representable (R55). -/
def Reg.representable (r : Reg) (v : Nat) : Bool := decide (r.base ≤ v ∧ (v : Int) < r.base + (2 ^ (r.SH + 23) : Nat))
/-- A value that may be tagged (R54). [DEDUCED A67, unsafe] -/
def Reg.sound (r : Reg) : Bool :=
  decide (r.SH ≤ 34) && !bitAt r.w1 63 && decide (0 ≤ r.base ∧ r.top ≤ (2 ^ 57 : Nat))
/-- The cursor moved by an increment (R94). -/
def Reg.shift (r : Reg) (inc : Int) : Reg :=
  let n := unsignedOf 57 ((r.cursor : Int) + inc)
  let w := setBits r.w0 0 57 n
  if r.tag && r.representable n then { r with w0 := w } else ⟨false, 0, w⟩

/-- SH, AN and LN of the smallest granule that holds `len` bytes at `c`, with the rounded bounds (the loop of R95). -/
def roundRegion (c len : Nat) : Nat → Nat → Nat × Nat × Nat
  | 0, e => (e, c / 2 ^ e * 2 ^ e, (c + len + 2 ^ e - 1) / 2 ^ e * 2 ^ e)
  | fuel + 1, e =>
    let lo := c / 2 ^ e * 2 ^ e
    let hi := (c + len + 2 ^ e - 1) / 2 ^ e * 2 ^ e
    if len = 0 ∨ hi - lo < 2 ^ (e + 23) then (e, lo, hi) else roundRegion c len fuel (e + 1)

/-- Word 1 of a capability. -/
def capWord1 (owner e lo hi : Nat) : Word :=
  BitVec.ofNat 64 (owner % 2048 * 2 ^ 52 + (hi - lo) / 2 ^ e % 2 ^ 23 * 2 ^ 29 + lo / 2 ^ e % 2 ^ 23 * 2 ^ 6 + e)
/-- A capability over `len` bytes at `base` with the cursor given, rounded as R100 does. Permissions as R53 [63:59]. -/
def makeCap (perms space cursor owner base len : Nat) : Reg :=
  let (e, lo, hi) := roundRegion base len 34 0
  ⟨true, capWord1 owner e lo hi, BitVec.ofNat 64 (perms * 2 ^ 59 + space * 2 ^ 57 + cursor)⟩

/-! ## Registers by number -/

/-- STATUS fields (R66). -/
def Core.tw (c : Core) : Bool := bitAt c.sys.status 0
def Core.casc (c : Core) : Bool := bitAt c.sys.status 1
def Core.stepOn (c : Core) : Bool := bitAt c.sys.status 2
def Core.isHeld (c : Core) : Bool := bitAt c.sys.status 3
def Core.paired (c : Core) : Bool := bitAt c.sys.status 4
def Core.system (c : Core) : Bool := bitAt c.sys.priv 0
/-- VL (R64, R66). -/
def Core.vl (c : Core) : Nat := if bitsAt c.sys.status 24 6 = 0 then 64 else bitsAt c.sys.status 24 6
/-- The core with a STATUS bit set or cleared. -/
def Core.setStatus (c : Core) (i : Nat) (b : Bool) : Core := { c with sys := { c.sys with status := setBit c.sys.status i b } }
/-- Fields of stream byte n (R66). -/
def Core.streamByte (c : Core) (n : Nat) : Nat := bitsAt c.sys.status (32 + 8 * n) 8
/-- The core with stream byte n replaced. -/
def Core.setStreamByte (c : Core) (n x : Nat) : Core :=
  { c with sys := { c.sys with status := setBits c.sys.status (32 + 8 * n) 8 x } }
/-- The generator bound to a register (R60). [DEDUCED A46, unsafe] -/
def Core.genOf (c : Core) (r : Nat) : Option Nat :=
  if r < 24 then none else
    (List.range 4).find? (fun n => c.streamByte n / 128 == 1 && c.streamByte n % 8 + 24 == r)
/-- LOOPSTATE fields (R74). -/
def Core.loopActive (c : Core) : Bool := bitAt c.sys.loopstate 5
def Core.loopIndex (c : Core) : Nat := bitsAt c.sys.loopstate 11 5
def Core.loopLast (c : Core) : Nat := bitsAt c.sys.loopstate 6 5
def Core.loopLeft (c : Core) : Nat := bitsAt c.sys.loopstate 16 24
def Core.loopDone (c : Core) : Nat := bitsAt c.sys.loopstate 40 24
/-- LOOPSTATE from its fields. -/
def loopWord (done left idx last : Nat) (active : Bool) : Word :=
  BitVec.ofNat 64 (done % 2 ^ 24 * 2 ^ 40 + left % 2 ^ 24 * 2 ^ 16 + idx * 2 ^ 11 + last * 2 ^ 6 + active.toNat * 32)
/-- CTXAREA (R65, R71). -/
def Core.ctxarea (c : Core) : Nat := Config.privateBase + c.sys.privsz.toNat - Config.contextSize
/-- GCYC (R322). -/
def State.gcyc (s : State) (c : CoreId) : BitVec 32 :=
  match (s.core c).sys.gcycHeld with
  | some v => v
  | none => BitVec.ofNat 32 (s.now c) - BitVec.ofNat 32 (s.core c).sys.gcycBase
/-- The core with GCYC set to a value on a die cycle (R322). [DEDUCED A32, unsafe] -/
def Core.setGcyc (c : Core) (now : Nat) (v : BitVec 32) : Core :=
  { c with sys := { c.sys with gcycBase := (BitVec.ofNat 32 now - v).toNat, gcycHeld := none } }

/-- Register r as stored. -/
def Core.reg (c : Core) (r : Nat) : Reg := if r = 0 then Reg.zero else c.g.toList.getD r Reg.zero
/-- The generator that a register stands for at system level (R62). -/
def Core.viewOf (c : Core) (r : Nat) : Option Nat := if c.system then c.genOf r else none
/-- Register r as it reads without a pop: at system level a bound one is the generator's capability (R62). -/
def Core.seen (c : Core) (r : Nat) : Reg :=
  match c.viewOf r with
  | some n => c.gen.toList.getD n Reg.zero
  | none => c.reg r
/-- Register r replaced: at system level a bound one is the generator's capability (R62). -/
def Core.put (c : Core) (r : Nat) (v : Reg) : Core :=
  match c.viewOf r with
  | some n => { c with gen := c.gen.setIfInBounds n v }
  | none => { c with g := c.g.setIfInBounds r v }
/-- Register r replaced; a write of g0 is discarded (R50), and an older result still on its way to r is discarded (R72). -/
def Core.setReg (c : Core) (r : Nat) (v : Reg) : Core :=
  if r = 0 then c else
  let c := c.put r v
  { c with ops := c.ops.map (fun o => if o.dst == some r then { o with dst := none } else o)
           vq := c.vq.map (fun e => if e.dst == some r then { e with dst := none } else e) }
/-- As `setReg`, with the cycle on which a short result is ready (R72). -/
def Core.setRegAt (c : Core) (r : Nat) (v : Reg) (ready : Nat) : Core :=
  let c' := c.setReg r v
  if r = 0 then c' else { c' with issue := { c'.issue with regReady := mapSet c'.issue.regReady r ready } }
/-- A returning result of the access or vector word named `id`: it is written unless its register has been written since,
and discards older results for the same register, a short one that is not ready yet among them (R72). -/
def Core.returnReg (c : Core) (id r : Nat) (v : Reg) : Core :=
  if r = 0 then c else
  let c := c.put r v
  { c with issue := { c.issue with regReady := mapErase c.issue.regReady r }
           ops := c.ops.map (fun o => if o.dst == some r && decide (o.id < id) then { o with dst := none } else o)
           vq := c.vq.map (fun e => if e.dst == some r && decide (e.id < id) then { e with dst := none } else e) }
/-- A vector register. -/
def Core.vreg (c : Core) (r : Nat) : Vector Word32 64 := c.v.toList.getD r (Vector.replicate 64 0)
/-- An element of a vector register. -/
def Core.velem (c : Core) (r i : Nat) : Word32 := (c.vreg r).toList.getD i 0
/-- Replace elements of a vector register by a function on the indices where it answers. -/
def Core.setVec (c : Core) (r : Nat) (f : Nat → Option Word32) : Core :=
  let old := c.vreg r
  { c with v := c.v.setIfInBounds r (Vector.ofFn (fun i : Fin 64 => (f i.val).getD (old[i]))) }

/-! ## Windows (R97, R128-R132, R312) -/

/-- Where an access lands: its home address, its resolved form and LOC in Sluice entries (R312), whether the home is SRAM of
the issuing core's die (near, R182), the core's own slice or scratchpad, or an external address still to be translated. -/
structure Place where
  home : Nat
  loc : Nat
  resolved : Nat
  near : Bool
  own : Bool
  external : Bool
  deriving DecidableEq, Repr

/-- The die of an SRAM home address; 16 for the homes that no die's SRAM holds. -/
def homeDie (h : Nat) : Nat :=
  if h < Config.sramHome then 16
  else if h < Config.sramHome + Config.sramClusters then (h - Config.sramHome) / Config.sliceSize / 128
  else if h < Config.sramHome + Config.sramSize then (h - Config.sramHome - Config.sramClusters) / Config.clusterSize / 8
  else if h < Config.scratchpadHome ∨ Config.hostHome ≤ h then 16
  else (h - Config.scratchpadHome) / Config.scratchpadSize / 8

/-- The home of an offset of the global SRAM window, a slice and a scratchpad. -/
def sramHome (off : Nat) : Nat := Config.sramHome + off
def sliceHome (c off : Nat) : Nat := Config.sramHome + c * Config.sliceSize + off
def scratchpadHome (m off : Nat) : Nat := Config.scratchpadHome + m * Config.scratchpadSize + off

/-- PRIVSZ, XBASE and XLIMIT of slice c as the copy on die d holds them (R129, R310, R311). -/
def State.window (s : State) (d c : Nat) : Nat × Nat × Nat :=
  match s.oldWindows.find? (fun w => w.die == d && w.core == c) with
  | some w => (w.privsz, w.xbase, w.xlimit)
  | none => let r := (s.core (.comp c)).sys; (r.privsz.toNat, r.xbase.toNat, r.xlimit.toNat)

/-- Does [off, off + n) of slice c touch its weight frames (R131). -/
def State.inWeights (s : State) (d c off n : Nat) : Bool :=
  let (_, xb, xl) := s.window d c
  decide (off < xl ∧ xb < off + n ∧ xb < xl)
/-- Does [off, off + n) of slice c lie within its weight frames. -/
def State.allWeights (s : State) (d c off n : Nat) : Bool :=
  let (_, xb, xl) := s.window d c
  decide (xb ≤ off ∧ off + n ≤ xl)

/-- What a write may do with weight frames (R132): no write, an ordinary one, or one under a G permission. -/
inductive Writing where
  | no | plain | grant
  deriving DecidableEq, Repr

/-- Cause codes of R104. -/
def causeIllegal : Nat := 0x01
def causePriv : Nat := 0x02
def causeCapTag : Nat := 0x03
def causeCapBound : Nat := 0x04
def causeCapPerm : Nat := 0x05
def causeForeign : Nat := 0x06
def causeAlign : Nat := 0x07
def causeSluice : Nat := 0x08
def causeXlate : Nat := 0x09
def causeIssue : Nat := 0x0A
def causeQheld : Nat := 0x0B
def causeBasin : Nat := 0x0C
def causeSyscall : Nat := 0x0D
def causeBreak : Nat := 0x0E
def causeStep : Nat := 0x0F
def causePreempt : Nat := 0x10
def causeTiming : Nat := 0x11
def causeEngine : Nat := 0x12
def causeEcc : Nat := 0x13
def causePairdiv : Nat := 0x14
def causeCascade : Nat := 0x15
def causeRecvOvf : Nat := 0x16
def causeGangAbort : Nat := 0x17

/-- The window checks of R129 and the resolution of R312 for [a, a + n) at core c: the place or the cause. `ext` allows the
global external window (R168, R276); `n` of 0 is checked as one byte for its place. [DESIGN CHOICE A5, safe] -/
def State.resolve (s : State) (c : CoreId) (system : Bool) (a : Int) (n : Nat) (wr : Writing) (ext : Bool) : Except Nat Place :=
  if a < 0 then .error causeCapBound else
  let a := a.toNat
  let n := max n 1
  let d := dieOf c
  let within (lo hi : Nat) : Bool := decide (lo ≤ a ∧ a + n ≤ hi)
  let frames (sl off : Nat) : Bool := wr == .plain && s.inWeights d sl off n
  match c with
  | .mem m =>
    let hi := Config.privateBase + (s.core c).sys.privsz.toNat - (if system then 0 else Config.contextSize)
    if within Config.privateBase hi then .ok ⟨scratchpadHome m (a - Config.privateBase), 1, a, true, true, false⟩
    else if decide (Config.sramBase ≤ a ∧ a < Config.sramBase + Config.sramSize) then globalSram s none d a n wr
    else if within Config.externalBase Config.externalEnd && ext then .ok ⟨0, 2, a, false, false, true⟩
    else .error causeCapBound
  | .comp k =>
    let (psz, _, _) := s.window d k
    let sl := Config.sramBase + k * Config.sliceSize
    if within Config.privateBase (Config.privateBase + psz - (if system then 0 else Config.contextSize)) then
      let off := a - Config.privateBase
      if frames k off then .error causeCapPerm else .ok ⟨sliceHome k off, 0, sl + off, true, true, false⟩
    else if within (Config.scratchBase + psz) Config.scratchEnd then
      let off := a - Config.scratchBase
      if frames k off then .error causeCapPerm else .ok ⟨sliceHome k off, 0, sl + off, true, true, false⟩
    else if within Config.clusterBase Config.clusterEnd then
      let off := Config.sramClusters + k / 16 * Config.clusterSize + (a - Config.clusterBase)
      .ok ⟨sramHome off, 0, Config.sramBase + off, true, false, false⟩
    else if decide (Config.sramBase ≤ a ∧ a < Config.sramBase + Config.sramSize) then globalSram s (some k) d a n wr
    else if within Config.externalBase Config.externalEnd && ext then .ok ⟨0, 2, a, false, false, true⟩
    else .error causeCapBound
where
  /-- The global SRAM window: steps 1, 2 and 4 of R129. -/
  globalSram (s : State) (own : Option Nat) (d a n : Nat) (wr : Writing) : Except Nat Place :=
    let o := a - Config.sramBase
    if o + n > Config.sramSize then .error causeCapBound
    else if o ≥ Config.sramClusters then .ok ⟨sramHome o, 0, a, homeDie (sramHome o) == d, false, false⟩
    else
      let f := o / Config.sliceSize
      let l := min ((o + n - 1) / Config.sliceSize) (Config.computeCores - 1)
      let off := o % Config.sliceSize
      let (psz, _, _) := s.window d f
      if (own != some f && decide (off < psz)) || decide (l > f + 1) || (decide (l = f + 1) && own != some l) then
        .error causeForeign
      else if decide (off < psz) || decide (l ≠ f) then .error causeCapBound
      else if wr == .plain && s.inWeights d f off n then .error causeCapPerm
      else .ok ⟨sramHome o, 0, a, f / 128 == d, own == some f, false⟩

/-- The capability checks of R56 for n bytes at an offset: the address formed, or the cause. -/
def checkCap (c : CoreId) (r : Reg) (off : Int) (n : Nat) (perm : Reg → Bool) : Except Nat Int :=
  let a : Int := (r.cursor : Int) + off
  if !r.tag then .error causeCapTag
  else if !perm r then .error causeCapPerm
  else if !decide (n = 0 ∨ (r.base ≤ a ∧ a + n ≤ r.top)) then .error causeCapBound
  else if decide (r.space < 2) && r.owner != coreIndex c then .error causeForeign
  else .ok a

/-! ## Operations that may trap or stall -/

/-- How a word fails to complete: a trap, or a stall of its issue. -/
inductive Stop where
  | trap (t : TrapInfo)
  | stall
  deriving DecidableEq, Repr

/-- An operation of the core `cur`: it changes the state, or traps or stalls with no effect. -/
abbrev Op := StateT State (Except Stop)

/-- How an operation that completes leaves the program counter, and the cycles until the next word (R79). -/
inductive Flow where
  | next (cost : Nat)
  | jump (target : Word)
  | skip (n : Nat)
  | go (pc : Word) (cost : Nat)
  | hold
  deriving DecidableEq, Repr

/-- Stall issue. -/
def stall {α : Type} : Op α := fun _ => .error .stall
/-- Raise a trap. -/
def raiseInfo {α : Type} (t : TrapInfo) : Op α := fun _ => .error (.trap t)
/-- The executing core's state. -/
def getCore : Op Core := fun s => .ok (s.core s.cur, s)
/-- Change the executing core's state. -/
def modCore (f : Core → Core) : Op Unit := fun s => .ok ((), s.modCore s.cur f)
/-- A precise trap of the issuing word: SOURCE 0, TRAPPC the word (R104). -/
def preciseTrap (pc : Word) (code : Nat) (val : Word) : TrapInfo := ⟨code, val, 0, 0, false, false, pc, false⟩
/-- Raise a precise cause with a TRAPVAL. -/
def raise {α : Type} (code : Nat) (val : Word) : Op α := do
  let c ← getCore
  raiseInfo (preciseTrap c.pc code val)
/-- A number as a 64-bit TRAPVAL. -/
def valOf (a : Int) : Word := BitVec.ofInt 64 a

/-- The word that issues: the captured body's, or the one at the pc (R75, R104). -/
def State.issuingWord (s : State) (c : CoreId) : BitVec 32 :=
  let x := s.core c
  match x.issue.loopCopy with
  | some body => body.getD x.loopIndex 0
  | none =>
    match s.resolve c x.system x.pc.toNat 4 .no false with
    | .ok p => BitVec.ofNat 32 (s.num p.home 4)
    | .error _ => 0

/-- Raise a cause whose TRAPVAL is the word (R104). -/
def raiseWord {α : Type} (code : Nat) : Op α := do
  let s ← get
  raise code ((s.issuingWord s.cur).setWidth 64)
/-- Raise ILLEGAL. -/
def illegal {α : Type} : Op α := raiseWord causeIllegal
/-- Raise a cause unless a condition holds. -/
def require (b : Bool) (code : Nat) : Op Unit := if b then pure () else raiseWord code
/-- Raise ILLEGAL unless a condition holds. -/
def legal (b : Bool) : Op Unit := require b causeIllegal
/-- An instruction of compute cores only (R28). -/
def computeOnly : Op Unit := do let s ← get; legal (!isMemCore s.cur)
/-- An instruction of memory cores only (R28). -/
def memoryOnly : Op Unit := do let s ← get; legal (isMemCore s.cur)
/-- A privileged instruction: PRIV at program level (R104). -/
def systemOnly : Op Unit := do let c ← getCore; require c.system causePriv
/-- The die cycle. -/
def nowOp : Op Nat := do let s ← get; pure (s.now s.cur)

/-- The R56 and R129 checks of an access, TRAPVAL the address formed. -/
def checkAddress (r : Reg) (off : Int) (n : Nat) (perm : Reg → Bool) (wr : Writing) (ext : Bool) : Op Place := do
  let s ← get
  let c ← getCore
  match checkCap s.cur r off n perm with
  | .error e => raise e (valOf ((r.cursor : Int) + off))
  | .ok a =>
    match s.resolve s.cur c.system a n wr ext with
    | .error e => raise e (valOf a)
    | .ok p => pure p

/-- Does an entry of the Sluice table stand in the way of [p, p + n) (R191, R313). -/
def SluiceEntry.hits (e : SluiceEntry) (p : Place) (n : Nat) (isStore : Bool) : Bool :=
  e.loc == p.loc && decide (e.start < p.resolved + n ∧ p.resolved < e.stop) && (isStore || e.isDst)

/-- Step 6 of R165: SLUICE with the youngest entry's number in TRAPSEQ, VALID clear (R314). -/
def checkSluice (p : Place) (n : Nat) (isStore : Bool) (val : Word) : Op Unit := do
  let c ← getCore
  match (c.eng.sluice.filter (fun e => e.hits p n isStore)).getLast? with
  | some e => raiseInfo { preciseTrap c.pc causeSluice val with seq := e.seq.setWidth 64 }
  | none => pure ()

/-- Is [addr, addr + n) in the core's own slice (R16). [DEDUCED A80, unsafe] -/
def State.inOwnSlice (s : State) (c : CoreId) (a : Int) (n : Nat) : Bool :=
  match s.resolve c true a n .no true with
  | .ok p => p.own
  | .error _ => false

/-- The checks of R165, steps 2 to 6, for `n` bytes with the alignment `al`. -/
def checkAccess (r : Reg) (off : Int) (n al : Nat) (perm : Reg → Bool) (isStore ext : Bool) : Op Place := do
  let s ← get
  let c ← getCore
  let a : Int := (r.cursor : Int) + off
  require (!c.tw || s.inOwnSlice s.cur a n) causeIssue
  let p ← checkAddress r off n perm (if isStore then .plain else .no) ext
  if a.toNat % al ≠ 0 then raise causeAlign (valOf a)
  checkSluice p n isStore (valOf a)
  pure p

/-! ## The store side (R180-R189) -/

def MemKind.isStore : MemKind → Bool
  | .store | .direct | .storeCap _ | .storeRel _ | .amo _ _ => true
  | _ => false
def MemKind.isLoad : MemKind → Bool
  | .load _ | .loadCap | .loadAcq _ | .amo _ _ => true
  | _ => false
def MemKind.isAmo : MemKind → Bool
  | .amo _ _ => true
  | _ => false
def MemKind.isVector : MemKind → Bool
  | .vector _ => true
  | _ => false
def MemKind.isFence : MemKind → Bool
  | .fence _ _ => true
  | _ => false
/-- Entries of the store buffer (R182). -/
def MemKind.buffered : MemKind → Bool
  | .store | .storeCap _ | .storeRel _ => true
  | _ => false

/-- Does a home lie in the scope region of a core (R186). -/
def inScope (c : CoreId) (scope home : Nat) : Bool :=
  if scope ≥ 5 then true else
  let isSlice := decide (Config.sramHome ≤ home ∧ home < Config.sramHome + Config.sramClusters)
  let sl := (home - Config.sramHome) / Config.sliceSize
  let isClus := decide (Config.sramHome + Config.sramClusters ≤ home ∧ home < Config.sramHome + Config.sramSize)
  let cl := (home - Config.sramHome - Config.sramClusters) / Config.clusterSize
  let onDie := homeDie home == dieOf c || (decide (home < Config.sramHome) && home / Config.lpddrPerDie == dieOf c)
  match c with
  | .comp k =>
    if scope = 1 then isSlice && sl == k
    else if scope = 2 then isSlice && sl / 4 == k / 4
    else if scope = 3 then (isSlice && sl / 16 == k / 16) || (isClus && cl == k / 16)
    else onDie
  | .mem m =>
    if scope = 1 then decide (scratchpadHome m 0 ≤ home ∧ home < scratchpadHome (m + 1) 0) else onDie

/-- Do two accesses touch a common byte. -/
def MemOp.overlaps (x y : MemOp) : Bool := decide (x.home < y.home + y.size ∧ y.home < x.home + x.size)
/-- Does x hold every byte of y. -/
def MemOp.covers (x y : MemOp) : Bool := decide (x.home ≤ y.home ∧ y.home + y.size ≤ x.home + x.size)

/-- The append that a `launch` makes to a stream when its status returns (R61, R294): it stands in its place in program order from the
issue of the `launch` on. [DEDUCED A92, unsafe] -/
def MemOp.isAppend (x : MemOp) : Bool := x.kind == .deposit && x.size != 0
/-- The kind that an access is ordered as: an append is a store (R61, R182). -/
def MemOp.orderKind (x : MemOp) : MemKind := if x.isAppend then .store else x.kind
/-- The access has performed; the append of a `launch` has not before it enters the store buffer (R61). -/
def MemOp.performed (x : MemOp) : Bool := x.value.isSome && x.kind != .deposit
/-- An entry of the store buffer, or one whose place there is taken (R61, R182). [DEDUCED A92, unsafe] -/
def MemOp.inBuffer (x : MemOp) : Bool := x.kind.buffered || x.isAppend

/-- Must the earlier x, not yet performed, perform before y of the same core may (R171, R178, R181-R184,
R187, R189)? -/
def mustPrecede (c : CoreId) (x y : MemOp) : Bool :=
  match x.orderKind with
  | .deposit => false
  | .fence k s =>
    !y.kind.isFence &&
      (y.kind.isVector ||
        (if k = 0 then y.kind.isLoad
         else if k = 1 then inScope c s y.home
         else if k = 2 then y.kind.isStore
         else true))
  | kx =>
    match y.kind with
    | .deposit => false
    | .fence k s =>
      kx.isVector ||
        (if k = 0 then x.near && kx.isStore
         else if k = 1 then kx.isLoad
         else inScope c s x.home)
    | ky =>
      let byScope := (match kx with | .loadAcq s => inScope c s y.home || ky.isVector | .storeRel _ => ky.isVector | _ => false) ||
        (match ky with | .storeRel s => inScope c s x.home || kx.isVector | .loadAcq _ => kx.isVector | _ => false)
      let vec := kx.isVector && ky.isVector
      let plain := !kx.isVector && !ky.isVector
      let tso := plain && x.near && y.near && (ky.isStore && !ky.isLoad || kx.isLoad || ky.isAmo)
      let amo := plain && ((ky.isAmo && y.near && kx.buffered) || (kx.isAmo && x.near && ky.isLoad))
      let page := kx == .direct && ky == .direct && x.home / 4096 == y.home / 4096
      byScope || vec || tso || amo || page || x.overlaps y

/-- The youngest entry of the store buffer before y that touches it; an append whose value is still to come among them. -/
def youngestStore (earlier : List MemOp) (y : MemOp) : Option MemOp :=
  (earlier.filter (fun x => (x.kind.buffered && x.value.isNone || x.isAppend) && x.overlaps y)).getLast?

/-- A plain load that may take its value from the store buffer (R182). -/
def forwards (earlier : List MemOp) (y : MemOp) : Option MemOp :=
  match y.kind with
  | .load _ | .loadCap =>
    match youngestStore earlier y with
    | some x => if x.kind.buffered && x.covers y then some x else none
    | none => none
  | _ => none

/-- The store buffer is a FIFO (R182): a far store has not left it while a near one before it waits for a nearer one yet, and no entry
leaves before an append whose value is still to come. -/
def fifoBlocks (earlier : List MemOp) (y : MemOp) : Bool :=
  y.kind.buffered && (earlier.any MemOp.isAppend ||
    (!y.near && decide (2 ≤ (earlier.filter (fun x => x.kind.buffered && x.near)).length)))

/-- May y perform, given the earlier accesses of its core. -/
def mayPerform (c : CoreId) (earlier : List MemOp) (y : MemOp) : Bool :=
  !fifoBlocks earlier y &&
  match forwards earlier y with
  | some _ => earlier.all (fun x => x.performed || x.inBuffer || !mustPrecede c x y)
  | none => earlier.all (fun x => x.performed || !mustPrecede c x y)

/-- The new value an atomic operation writes (R169), or none. -/
def amoResult (op n old data expected : Nat) : Option Nat :=
  let so := signedNat (8 * n) old
  let sd := signedNat (8 * n) data
  match op with
  | 0 => some ((old + data) % 2 ^ (8 * n))
  | 1 => some (old &&& data)
  | 2 => some (old ||| data)
  | 3 => some (old ^^^ data)
  | 4 => some data
  | 5 => some (if so ≥ sd then old else data)
  | 6 => some (if so ≤ sd then old else data)
  | 7 => if old = expected then some data else none
  | _ => none

/-- The value of a loaded number, extended to 64 bits (R166, R169). -/
def extendLoad (signed : Bool) (n x : Nat) : Word :=
  if signed then BitVec.ofInt 64 (signedNat (8 * n) x) else BitVec.ofNat 64 x

/-- A granule read by `ld.c` (R54, R167). -/
def capLoaded (tag : Bool) (x : Nat) : Reg :=
  let r : Reg := ⟨true, BitVec.ofNat 64 (x / 2 ^ 64), BitVec.ofNat 64 x⟩
  if tag && r.sound then r else r.strip

/-- Perform an access at its home: the state after it and the value it delivers (R166-R170, R180). -/
def performAt (s : State) (o : MemOp) (fwd : Option MemOp) : State × Reg :=
  let bytes : Nat := match fwd with
    | some x => x.data / 256 ^ (o.home - x.home) % 256 ^ o.size
    | none => s.num o.home o.size
  match o.kind with
  | .load sg => (s, Reg.ofWord (extendLoad sg o.size bytes))
  | .loadCap =>
    let tag := match fwd with
      | some x => match x.kind with | .storeCap t => t | _ => false
      | none => s.tagAt o.home
    (s, capLoaded tag bytes)
  | .loadAcq _ => (s, Reg.ofWord (extendLoad (o.size == 4) o.size bytes))
  | .store | .direct | .storeRel _ => (s.writeNum o.home o.size o.data, Reg.zero)
  | .storeCap t =>
    let s' := s.writeNum o.home o.size o.data
    (if t then s'.setTag o.home else s', Reg.zero)
  | .amo op ex =>
    let s' := match amoResult op o.size bytes o.data ex with
      | some v => s.writeNum o.home o.size v
      | none => s
    (s', Reg.ofWord (extendLoad (o.size == 4) o.size bytes))
  | _ => (s, Reg.zero)

/-- The granules that the n bytes at a home touch, by their addresses. -/
def granulesOf (h n : Nat) : List Nat := ((List.range (n / 16 + 2)).map (fun i => h / 16 * 16 + 16 * i)).filter (fun g => decide (g < h + n))

/-- What is left of a note beside the n bytes at a home: the bytes before and after them, and the tags of granules that they do not touch. -/
def OwnWrite.outside (h n : Nat) (w : OwnWrite) : List OwnWrite :=
  let stop := w.home + w.data.length
  let tags := w.tags.filter (fun g => !(granulesOf h n).contains g)
  let piece (a b : Nat) : OwnWrite := ⟨a, (w.data.drop (a - w.home)).take (b - a), tags.filter (fun g => decide (g < b ∧ a < g + 16))⟩
  [piece w.home (min stop h), piece (max w.home (h + n)) stop].filter (fun p => !p.data.isEmpty)

/-- The core or operand port of slice k has written the n bytes that stand at a home address on this cycle (R126). -/
def State.noteOwn (s : State) (k h n : Nat) : State :=
  if n = 0 ∨ !decide (sliceHome k 0 ≤ h ∧ h < sliceHome (k + 1) 0) then s else
  s.modCore (.comp k) (fun x => { x with slice := { x.slice with
    written := (s.now (.comp k), (if x.slice.written.1 = s.now (.comp k) then x.slice.written.2 else []) ++
      [⟨h, s.bytes h n, (granulesOf h n).filter s.tagAt⟩]) } })

/-- What the core of a slice, or its copy engine through the operand port, has written, home and length of each piece (R126). -/
def State.notePieces (s : State) (c : CoreId) (l : List (Nat × Nat)) : State :=
  match c with
  | .comp k => l.foldl (fun s p => s.noteOwn k p.1 p.2) s
  | .mem _ => s

/-- What a slice's own ports wrote at the n bytes at a home gives way to what is written there in the single order of all indivisible
accesses (R126, R181, R331). -/
def State.forgetOwn (s : State) (h n : Nat) : State :=
  let k := (h - Config.sramHome) / Config.sliceSize
  if k ≥ Config.computeCores ∨ (s.core (.comp k)).slice.written.2.isEmpty then s else
  s.modCore (.comp k) (fun x => { x with slice := { x.slice with
    written := (x.slice.written.1, x.slice.written.2.flatMap (OwnWrite.outside h n)) } })

/-- Has a slice's own port written a byte that an atomic of another core touches, on this cycle: the atomic waits for the next (R126). -/
def State.ownWrote (s : State) (c : CoreId) (o : MemOp) : Bool :=
  o.kind.isAmo && s.cores.any (fun p => coreOfKey p.1 != c && p.2.slice.written.1 == s.now (coreOfKey p.1) &&
    p.2.slice.written.2.any (fun w => decide (w.home < o.home + o.size ∧ o.home < w.home + w.data.length)))

/-- A noted write, made again. -/
def remake (s : State) (w : OwnWrite) : State := w.tags.foldl State.setTag (s.write w.home w.data)

/-- The state t that a step has made of s (R126): where it has written, what a slice's own ports have written on this cycle prevails. -/
def ownPrevails (s t : State) : State :=
  if t.mem = s.mem ∧ t.tags = s.tags then t else
  (t.cores.flatMap (fun p => if p.2.slice.written.1 = t.now (coreOfKey p.1) then p.2.slice.written.2 else [])).foldl remake t

/-- Fences that nothing earlier holds any more leave the list. -/
def pruneFences (c : CoreId) : List MemOp → List MemOp → List MemOp
  | _, [] => []
  | kept, o :: r =>
    if o.kind.isFence && mayPerform c kept o then pruneFences c kept r
    else o :: pruneFences c (kept ++ [o]) r

/-- The accesses of a core that stand before one. -/
def opsBefore (l : List MemOp) (n : Nat) : List MemOp := l.takeWhile (fun o => o.id != n)

/-- Add an access to the executing core's list; it names it with a fresh id. A long-latency result does not return before the
word after it has issued (R72, R73). -/
def addOp (o : MemOp) : Op Unit := do
  let s ← get
  let late := o.kind.isLoad || o.kind == .deposit
  let o := { o with id := s.nextId, due := if late then some (s.now s.cur + 2) else o.due }
  set { s with nextId := s.nextId + 1 }
  modCore (fun c => { c with ops := pruneFences s.cur [] (c.ops ++ [o]) })

/-- The other core of a checked pair (R103, R123). -/
def State.partner (s : State) (k : Nat) : Option Nat :=
  if (s.core (.comp k)).paired then some (bitsAt (s.core (.comp k)).sys.pair 0 11) else none
/-- Does an address lie outside a core's own slice (R123). -/
def leavesSlice (k h : Nat) : Bool := !decide (sliceHome k 0 ≤ h ∧ h < sliceHome (k + 1) 0)
/-- What leaves core k next, in the order of its program (R123): the oldest access outside its slice that is a store or a vector store
with bytes to write, then a message that waits for its twin; none while that vector store is not bound. [DEDUCED A36, unsafe] -/
def State.nextAway (s : State) (k : Nat) : Option (MemOp ⊕ VecEntry ⊕ PairMessage) :=
  let x := s.core (.comp k)
  let away (o : MemOp) : Bool := leavesSlice k o.home &&
    ((o.kind.isStore && o.value.isNone) || o.isAppend || (o.kind == .vector true &&
      x.vq.any (fun e => e.id == o.id && (e.bound.isNone || e.data.any (fun p => leavesSlice k p.1)))))
  match x.ops.find? away with
  | some o =>
    if o.kind.isVector then (x.vq.find? (fun e => e.id == o.id && e.bound.isSome)).map (fun e => .inr (.inl e)) else some (.inl o)
  | none => (x.outbox.filter (fun m => m.answer.isNone)).map (fun m => .inr (.inr m))
/-- Two stores that the mesh port takes for one: address, size and data (R123). [DEDUCED A36, unsafe] -/
def MemOp.twin (x y : MemOp) : Bool := x.home == y.home && x.size == y.size && x.data == y.data && x.kind == y.kind

/-- Long-latency results, as `settle` counts them (R73): loads, atomics, status results and vector results. [DEDUCED A23, unsafe] -/
def Core.settled (c : Core) : Bool :=
  c.ops.all (fun o => !(o.kind.isLoad || o.kind == .deposit)) && c.vq.all (fun e => e.result.isNone && e.dst.isNone)
/-- The store buffer holds nothing (R182). -/
def Core.bufferEmpty (c : Core) : Bool := c.ops.all (fun o => !o.inBuffer)
/-- An `ld.acq` holds later memory instructions (R170). -/
def Core.acquiring (c : Core) : Bool := c.ops.any (fun o => match o.kind with | .loadAcq _ => true | _ => false)

/-- Is a block that the bytes [h, h + n) touch being recovered: the access is held (R141). -/
def State.recovers (s : State) (h n : Nat) : Bool :=
  s.module.recovering.any (fun b => decide (4096 * b < h + n ∧ h < 4096 * b + 4096))

/-- The accesses of a core that have used a translation and not completed (R139): an entry of the replay queue has used none yet. -/
def Core.translated (x : Core) : List Nat :=
  (x.ops.filter (fun o => o.value.isNone && !o.kind.isFence && o.kind != .deposit && homeDie o.home == 16)).map (fun o => o.id)

/-- The access that is named next has used a translation; the notes of accesses that are gone leave the list (R139). -/
def noteThrough (va : Nat) (e : TlbEntry) : Op Unit := do
  let s ← get
  modCore (fun c => { c with through := c.through.filter (fun p => c.ops.any (fun o => o.id == p.1)) ++ [(s.nextId, va, e)] })

/-- Stall while an `ld.acq` is outstanding (R170). -/
def memoryGate : Op Unit := do
  let c ← getCore
  if c.acquiring then stall

/-- Issue a load of the place (R72, R166): from the own slice it performs now or stalls, its result ready after its latency, 4 cycles; from
elsewhere it is a long-latency result. -/
def issueLoad (kind : MemKind) (p : Place) (n : Nat) (d : Nat) (latency : Nat := 4) : Op Unit := do
  let s ← get
  let c ← getCore
  let o : MemOp := ⟨s.nextId, kind, p.home, n, 0, some d, p.near, none, none⟩
  if p.own then
    if !mayPerform s.cur c.ops o || s.recovers p.home n then stall
    let (_, v) := performAt s o (forwards c.ops o)
    let t ← nowOp
    modCore (fun c => c.setRegAt d v (t + latency))
  else
    addOp { o with dst := if d = 0 then none else some d }

/-- Stall while the store buffer is full (R182). -/
def bufferGate : Op Unit := do
  let c ← getCore
  if (c.ops.filter MemOp.inBuffer).length ≥ 16 then stall

/-- Issue a store of the place into the store buffer (R166, R182). -/
def issueStore (kind : MemKind) (p : Place) (n : Nat) (data : Nat) : Op Unit := do
  bufferGate
  let t ← nowOp
  addOp ⟨0, kind, p.home, n, data % 256 ^ n, none, p.near, some (if p.own then t + 4 else t), none⟩

/-! ## General registers and streams (R51, R61, R62, R78) -/

/-- Element size of generator n in bytes (R32, R66). -/
def Core.genSize (c : Core) (n : Nat) : Nat := 2 ^ (c.streamByte n / 16 % 4)
/-- Is generator n bound to writing. -/
def Core.genWrites (c : Core) (n : Nat) : Bool := c.streamByte n / 64 % 2 == 1
/-- The core with generator n moved on by one element (R61). -/
def Core.genAdvance (c : Core) (n : Nat) : Core :=
  let w := c.sys.stream.toList.getD n 0
  let cap := c.gen.toList.getD n Reg.zero
  { c with gen := c.gen.setIfInBounds n (cap.shift (w.setWidth 32).toInt)
           sys := { c.sys with stream := c.sys.stream.setIfInBounds n (setBits w 32 32 (bitsAt w 32 32 - 1)) } }
/-- STREND of generator n set (R61). -/
def Core.setStrend (c : Core) (n : Nat) : Core :=
  if c.streamByte n / 8 % 2 = 1 then c else c.setStreamByte n (c.streamByte n + 8)

/-- Pop an element of generator n (R61): the read is made at its home on the issue of the word. -/
def popStream (n : Nat) : Op Reg := do
  let c ← getCore
  if bitsAt (c.sys.stream.toList.getD n 0) 32 32 = 0 then
    modCore (fun c => c.setStrend n)
    pure Reg.zero
  else
    memoryGate
    let z := c.genSize n
    let p ← checkAccess (c.gen.toList.getD n Reg.zero) 0 z z Reg.permR false false
    let s ← get
    let o : MemOp := ⟨s.nextId, .load false, p.home, z, 0, none, p.near, none, none⟩
    if !mayPerform s.cur c.ops o || s.recovers p.home z then stall
    modCore (fun c => c.genAdvance n)
    pure (performAt s o (forwards c.ops o)).2

/-- Append a value to generator n (R61). -/
def appendStream (n : Nat) (v : Word) : Op Unit := do
  let c ← getCore
  if bitsAt (c.sys.stream.toList.getD n 0) 32 32 = 0 then modCore (fun c => c.setStrend n)
  else
    memoryGate
    let z := c.genSize n
    let p ← checkAccess (c.gen.toList.getD n Reg.zero) 0 z z Reg.permW true false
    issueStore .store p z v.toNat
    modCore (fun c => c.genAdvance n)

/-- The append that a `launch` makes when its status returns takes its place now: its checks, its entry of the store buffer, and the
generator's move (R61); the place and its bytes, 0 of them when no element is left, or none when the register is not appended to.
[DEDUCED A92, unsafe] -/
def reserveAppend (d : Nat) : Op (Option (Place × Nat)) := do
  let c ← getCore
  match (if c.system then none else c.genOf d) with
  | none => pure none
  | some n =>
    if bitsAt (c.sys.stream.toList.getD n 0) 32 32 = 0 then
      modCore (fun c => c.setStrend n)
      pure (some (⟨0, 0, 0, false, false, false⟩, 0))
    else
      let z := c.genSize n
      let p ← checkAccess (c.gen.toList.getD n Reg.zero) 0 z z Reg.permW true false
      bufferGate
      modCore (fun c => c.genAdvance n)
      pure (some (p, z))

/-- Stall until every append of the generator bound to register d has entered the store buffer (R173). -/
def appendGate (d : Nat) : Op Unit := do
  let c ← getCore
  if c.ops.any (fun o => o.isAppend && o.dst == some d) then stall

/-- ILLEGAL when a register is bound the wrong way for its use at program level (R61). [DEDUCED A45, unsafe] [DEDUCED A46, unsafe] -/
def bindCheck (reads writes : List Nat) : Op Unit := do
  let c ← getCore
  legal (c.system || (reads.all (fun r => match c.genOf r with | some n => !c.genWrites n | none => true) &&
    writes.all (fun r => match c.genOf r with | some n => c.genWrites n | none => true)))

/-- ILLEGAL when a destination is stream-bound at program level (R166, R263). -/
def notBound (rs : List Nat) : Op Unit := do
  let c ← getCore
  legal (c.system || rs.all (fun r => (c.genOf r).isNone))

/-- Stall until a short result is ready (R72). -/
def interlock (r : Nat) : Op Unit := do
  let c ← getCore
  let t ← nowOp
  if (mapGet c.issue.regReady r).getD 0 > t then stall

/-- Read a general register (R51, R61, R62, R72). -/
def readReg (r : Nat) : Op Reg := do
  let c ← getCore
  match c.genOf r with
  | some n =>
    if c.system then
      interlock r
      pure (c.gen.toList.getD n Reg.zero)
    else popStream n
  | none =>
    interlock r
    pure (c.reg r)

/-- Read bits [63:0] of a general register. -/
def readWord (r : Nat) : Op Word := do
  let v ← readReg r
  pure v.w0

/-- Write a general register with a short result of the latency given (R50, R51, R61, R62). -/
def writeReg (r : Nat) (v : Reg) (latency : Nat) : Op Unit := do
  let c ← getCore
  match c.genOf r with
  | some n =>
    if c.system then
      let t ← nowOp
      modCore (fun c => c.setRegAt r v (t + latency))
    else appendStream n v.w0
  | none =>
    let t ← nowOp
    modCore (fun c => c.setRegAt r v (t + latency))

/-- Write an untagged word. -/
def writeWord (r : Nat) (v : Word) (latency : Nat := 1) : Op Unit := writeReg r (Reg.ofWord v) latency

/-! ## How a word ends -/

/-- One step rule applied to a captured body word (R75). -/
def stepField (kind : Nat) (w : BitVec 32) : BitVec 32 :=
  let op := bitsAt w 24 7
  let bump (lo len : Nat) (x : BitVec 32) : BitVec 32 := setBits x lo len (bitsAt x lo len + 1)
  let vec := decide (0x40 ≤ op ∧ op ≤ 0x46)
  let fd := if vec then bump 20 4 else bump 19 5
  let fa := if vec then bump 16 4 else bump 14 5
  let fb := if vec then bump 12 4 else bump 9 5
  match kind with
  | 1 => fd w
  | 2 => fa w
  | 3 => fb w
  | 4 => bump 0 14 w
  | 5 => if stepUsesImm19 op then bump 0 19 w else bump 0 14 w
  | 6 => bump 0 10 w
  | 7 => fb (fa (fd w))
  | _ => w
where
  /-- The U-format opcodes (R28). -/
  stepUsesImm19 (op : Nat) : Bool := op == 0x11 || op == 0x12 || op == 0x1F || op == 0x6D

/-- The four rules of a step word applied once (R33, R75). -/
def applySteps (step : BitVec 32) (body : List (BitVec 32)) : List (BitVec 32) :=
  [0, 1, 2, 3].foldl (fun b i =>
    let r := bitsAt step (8 * i) 8
    b.modify (r / 8) (stepField (r % 8))) body

/-- Move on by n words: past the word and n - 1 more, within a captured body or outside (R75, R90). [DEDUCED A11, unsafe] [DEDUCED A82, unsafe] -/
def advance (s : State) (c : CoreId) (n : Nat) : State :=
  let x := s.core c
  match x.issue.loopCopy with
  | none => s.modCore c (fun x => { x with pc := x.pc + BitVec.ofNat 64 (4 * n) })
  | some body =>
    let i := x.loopIndex
    let first := x.pc - BitVec.ofNat 64 (4 * i)
    if i + n ≤ x.loopLast then
      s.modCore c (fun x => { x with pc := x.pc + BitVec.ofNat 64 (4 * n)
                                     sys := { x.sys with loopstate := setBits x.sys.loopstate 11 5 (i + n) } })
    else if x.loopLeft ≤ 1 then
      s.modCore c (fun x => { x with
        pc := first + BitVec.ofNat 64 (4 * (x.loopLast + 1))
        sys := { x.sys with loopstate := loopWord (x.loopDone + 1) 0 0 x.loopLast false }
        issue := { x.issue with loopCopy := none } })
    else
      s.modCore c (fun x => { x with
        pc := first
        sys := { x.sys with loopstate := loopWord (x.loopDone + 1) (x.loopLeft - 1) 0 x.loopLast true }
        issue := { x.issue with loopCopy := some (applySteps x.issue.loopRules body) } })

/-- The core issues its next word `cost` cycles from now. -/
def setCost (s : State) (c : CoreId) (cost : Nat) : State :=
  s.modCore c (fun x => { x with issue := { x.issue with readyAt := s.now c + cost } })

/-- A word has issued and completed (R72, R73, R79, R122): the next word, its cost, the settle wait and the step. -/
def retire (S : Bool) (flow : Flow) (before s : State) : State :=
  let c := s.cur
  let was := before.core c
  let step := was.stepOn && !was.system && !was.tw
  let mark (s : State) : State :=
    s.modCore c (fun x => { x with issue := { x.issue with settle := S, stepDue := x.issue.stepDue || step, resumed := false } })
  match flow with
  | .next cost => mark (setCost (advance s c 1) c cost)
  | .jump t => mark (setCost (s.modCore c (fun x => { x with pc := t })) c 3)
  | .skip n => mark (setCost (advance s c (n + 1)) c 1)
  | .go pc cost => mark (setCost (s.modCore c (fun x => { x with pc := pc })) c cost)
  | .hold => s

/-! ## Traps (R104-R109, R113) -/

/-- The Weir that serves a window of a gang: quad when one quad holds every member, else cluster (R209). -/
def windowScope (g : Gang) : Nat :=
  match g.compute with
  | [] => 3
  | c :: r => if r.all (fun d => d / 4 == c / 4) then 2 else 3

/-- Release latency of a Weir in cycles (R6); module and ring scope as the model's shortest. [DESIGN CHOICE A8, unsafe] -/
def weirLatency (scope : Nat) : Nat := if scope = 2 then 2 else if scope = 3 then 6 else if scope = 4 then 20 else 1

/-- The program counter is a multiple of 4 (R24): what a register holds below that is not taken. [DEDUCED A62, unsafe] -/
def alignPc (w : Word) : Word := setBits w 0 2 0

/-- TRAPCAUSE of a trap (R101). -/
def causeWord (t : TrapInfo) : Word :=
  BitVec.ofNat 64 (t.code + t.imprecise.toNat * 2 ^ 8 + t.fatal.toNat * 2 ^ 9 + t.source * 2 ^ 12)

/-- TRAPSEQ of a numbered fault (R102). -/
def seqWord : Option (BitVec 32) → Word
  | some q => q.setWidth 64 ||| (1#64 <<< 32)
  | none => 0

/-- An entry of the spill buffer (R111, R213, R261). [DEDUCED A26, safe] -/
def spillEntry (data src b10 last : Nat) : Nat := data + src * 2 ^ 64 + b10 * 2 ^ 80 + last * 2 ^ 96

/-- Where core c's context area stands in home addresses. -/
def State.contextHome (s : State) (c : CoreId) : Nat :=
  let off := (s.core c).sys.privsz.toNat - Config.contextSize
  match c with
  | .comp n => sliceHome n off
  | .mem m => scratchpadHome m off

/-- Write the spill buffer: waiting messages by channel and arrival, held flits in due order, posts, and a cascade's G_R; the
channels and posts are emptied, and the messages' channels noted (R111, R213, R261). [DEDUCED A26, safe] -/
def spill (s : State) (c : CoreId) : State :=
  let x := s.core c
  let msgs := (List.range 16).flatMap (fun ch => x.channels.filter (fun m => m.channel == ch))
  let k := coreIndex c
  let mine := fun f : Flit => !isMemCore c && f.target == k
  let flits := ((s.flits.filter mine).map (fun f => if f.held then f else
    { f with held := true, due := (BitVec.ofNat 32 f.due - BitVec.ofNat 32 (s.now c) + s.gcyc c).toNat })).mergeSort
      (fun a b => decide (a.due ≤ b.due))
  let entries :=
    msgs.map (fun m => spillEntry m.data.toNat m.src m.channel 0) ++
    flits.map (fun f => spillEntry f.data.toNat f.src (128 + f.channel) f.due) ++
    x.posts.map (fun p => spillEntry p.dst p.src (192 + p.channel) 0) ++
    (match x.cascade.bind (fun k => k.resumeAt) with | some r => [spillEntry 0 0 160 r.toNat] | none => [])
  let base := s.contextHome c + 0x1_6000
  let entries := match entries with
    | [] => [spillEntry 0 0xFFFF 0 0]
    | e :: r => (e + min r.length 255 * 2 ^ 88) :: r
  let s := { s with flits := s.flits.filter (fun f => !mine f) }
  let s := ((entries.zipIdx).foldl (fun s (e, i) => s.writeNum (base + 16 * i) 16 e) s).notePieces c [(base, 16 * entries.length)]
  s.modCore c (fun x => { x with
    channels := [], posts := [], issue := { x.issue with spilled := some (msgs.map (fun m => m.channel)) } })

/-- Reload what the spill buffer holds before the first word at program level: the messages stand before those that have come
since (R111, R197, R213, R261). [DEDUCED A26, safe] -/
def unspill (s : State) (c : CoreId) : State :=
  let since := (s.core c).channels
  let s := s.modCore c (fun x => { x with channels := [], issue := { x.issue with spilled := none } })
  let base := s.contextHome c + 0x1_6000
  let first := s.num base 16
  let again (s : State) : State := s.modCore c (fun x => { x with channels := x.channels ++ since })
  if first / 2 ^ 64 % 2 ^ 16 = 0xFFFF ∧ first / 2 ^ 80 % 2 ^ 16 = 0 then again s else
  let n := first / 2 ^ 88 % 256 + 1
  let s' := (List.range n).foldl (fun s i =>
    let e := s.num (base + 16 * i) 16
    let b10 := e / 2 ^ 80 % 256
    let src := e / 2 ^ 64 % 2 ^ 16
    let due := e / 2 ^ 96 % 2 ^ 32
    let data := BitVec.ofNat 64 e
    if b10 / 128 = 0 then s.modCore c (fun x => { x with channels := x.channels ++ [⟨b10 % 16, src, data⟩] })
    else if b10 / 32 % 2 = 1 then
      s.modCore c (fun x => { x with cascade := x.cascade.map (fun k => { k with resumeAt := some (BitVec.ofNat 32 due) }) })
    else if b10 / 64 % 2 = 1 then
      s.modCore c (fun x => { x with posts := x.posts ++ [⟨0, b10 % 16, src, e % 256, 0⟩] })
    else { s with flits := s.flits ++ [⟨dieOf c, src, coreIndex c, b10 % 16, data, due, true⟩] }) s
  ((again s').writeNum base 16 (spillEntry 0 0xFFFF 0 0)).notePieces c [(base, 16)]

/-- A fatal trap of a member of a gang: the report of the first, and the cycle from which the manager counts for the core, that of its
first (R120, R301). -/
def noteFatal (s : State) (c : CoreId) (t : TrapInfo) : State :=
  match (s.core c).gang with
  | none => s
  | some n => s.modGang n (fun g => { g with
      fatalAt := if g.fatalAt.any (fun a => a.1 == c) then g.fatalAt else g.fatalAt ++ [(c, s.now c)]
      trap := some (g.trap.getD ⟨causeWord t, t.val, t.seq, c⟩) })

/-- Is the core's group frozen (R119). -/
def State.isFrozen (s : State) (c : CoreId) : Bool := match s.gangOf c with | some g => g.frozen | none => false

/-- Trap entry (R106): the trap registers, the levels, HELD, and the pc at TRAPVEC. A trap that leaves Cascade mode clears
CASC (R259); a PREEMPT, or a trap of a frozen group, spills the messages, with the G_R of a chain (R111, R119, R261), and a PREEMPT stops the accepted
commands at their next boundary (R108). A STEP that is due beside another trap stays due (R107, R121). [DEDUCED A62, unsafe] [DEDUCED A69, unsafe] -/
def enterTrap (s : State) (c : CoreId) (t : TrapInfo) : State :=
  let x := s.core c
  let s := if x.tw && !t.fatal && !t.leaves then s.modCore c (fun x => { x with cascade := x.cascade.map (fun k =>
    { k with resumeAt := some (k.resumeAt.getD (BitVec.ofNat 32 k.start - BitVec.ofNat 32 x.sys.gcycBase)) }) }) else s
  let s := if !x.system && (t.code == causePreempt || (x.tw && !t.fatal)) then spill s c else s
  let s := if t.fatal then noteFatal s c t else s
  let stops := t.code == causePreempt && !s.isFrozen c
  s.modCore c (fun x =>
    let status := setBit (if t.leaves then setBit x.sys.status 1 false else x.sys.status) 3 true
    { x with
      pc := alignPc x.sys.trapvec
      sys := { x.sys with
        trappc := t.pc, trapcause := causeWord t, trapval := t.val, trapseq := t.seq,
        priv := setBits x.sys.priv 0 2 (1 + 2 * x.system.toNat), status := status }
      cascade := if t.leaves then none else x.cascade
      eng := { x.eng with saved := false, refilled := false, stopAt := if stops then some (s.now c) else x.eng.stopAt, chainStop := none }
      run := if x.run = .retiring then .running else x.run
      issue := { x.issue with
        ending := x.issue.ending || x.run == .retiring
        trapWait := none, loopCopy := none, settle := false, wait := .none, resumed := false
        stepDue := x.issue.stepDue && t.code != causeStep && !t.fatal
        preempt := if t.code = causePreempt ∨ t.fatal then none else x.issue.preempt
        preempted := x.issue.preempted || t.code == causePreempt
        faults := if t.fatal then [] else x.issue.faults
        readyAt := s.now c + 1 } })

/-- No block of a cascade runs (R117, R260). -/
def Core.blockEnded (x : Core) : Bool :=
  (match x.eng.array with | some r => !r.isBlock | none => true) && (match x.cascade with | some k => k.link.isNone | none => true)

/-- May a trap enter now (R73, R106, R179): results returned, the vector queue empty, and the replay queue too but for parked
entries that have been reported, whose report is what enters or is discarded for a fatal trap (R121); the running block of a cascade at
its restart point (R260). [DEDUCED A23, unsafe] -/
def trapReady (s : State) (c : CoreId) (t : TrapInfo) : Bool :=
  let x := s.core c
  x.settled && x.vq.isEmpty && x.blockEnded && x.replay.all (fun e => e.parked && (e.told || t.fatal))

/-- Withdraw a core's arrivals at its gang's Weir (R119, R334). -/
def withdraw (s : State) (c : CoreId) : State :=
  match (s.core c).gang with
  | none => s
  | some n => s.modGang n (fun g => { g with
      sync := g.sync.filter (fun a => a.1 != c)
      opens := g.opens.filter (fun a => a.1 != c)
      returned := g.returned.filter (fun a => a != c) })

/-- Put a waiting trap aside for one that goes before it: a request stays pending, STEP is taken again, and the rest is found
again by its word or its engine (R107, R179). -/
def shelve (x : Core) : Core :=
  match x.issue.trapWait with
  | none => x
  | some t => { x with issue := { x.issue with
      trapWait := none
      stepDue := x.issue.stepDue || t.code == causeStep
      preempt := if t.code = causePreempt ∧ x.issue.preempt.isNone then some t.source else x.issue.preempt } }

/-- PREEMPT and STEP of a checked pair enter on one cycle (R123). -/
def pairBound (x : Core) (t : TrapInfo) : Bool := x.paired && (t.code == causePreempt || t.code == causeStep)

/-- The core is in a window that has not been frozen, so that a trap that is not fatal freezes the group first (R106, R119). -/
def State.mustFreeze (s : State) (c : CoreId) (t : TrapInfo) : Bool := (s.core c).tw && !t.fatal && !s.isFrozen c

/-- The signal to the group's Weir: the group freezes its release latency later (R119). -/
def signalFreeze (s : State) (c : CoreId) : State :=
  match s.gangOf c with
  | none => s
  | some g =>
    match g.freezeAt with
    | some _ => s
    | none => s.modGang g.id (fun g => { g with freezeAt := some (s.now c + weirLatency (windowScope g)) })

/-- A trap waits at core c. In a window, once the core has settled and its vector queue is empty, it signals the freeze (R106,
R119). -/
def awaitTrap (s : State) (c : CoreId) (t : TrapInfo) : State :=
  let s := s.modCore c (fun x => { x with issue := { x.issue with trapWait := some t, wait := .none } })
  if s.mustFreeze c t && (s.core c).settled && (s.core c).vq.isEmpty then signalFreeze s c else s

/-- A trap of core c: it enters at once when the core has settled, and otherwise waits (R106). In a window a cause that is not
fatal freezes the group first (R119). A fatal trap that waits gives way to nothing else. -/
def deliverTrap (s : State) (c : CoreId) (t : TrapInfo) : State :=
  if (match (s.core c).issue.trapWait with | some t0 => t0.fatal && !t.fatal | none => false) then s else
  let freezes := s.mustFreeze c t
  let s := (withdraw s c).modCore c (fun x =>
    let x := shelve x
    if x.blockEnded || freezes then x else { x with eng := { x.eng with chainStop := some (s.now c) } })
  if !freezes && trapReady s c t && !pairBound (s.core c) t then enterTrap s c t else awaitTrap s c t

/-- Run a word of the core `cur` (R72-R79, R106): its effect, a stall of one cycle, or its trap. -/
def runWord (S : Bool) (body : Op Flow) (s : State) : Host.Outcome State Fault Refusal :=
  match body s with
  | .ok (flow, s') => .next (retire S flow s s')
  | .error .stall => .next (setCost s s.cur 1)
  | .error (.trap t) => .next (deliverTrap s s.cur t)

/-- The n words at an address as a fetch gets them, or the cause and the address of the first that no fetch gets (R75, R76, R130). -/
def fetchWords (s : State) (c : CoreId) (a : Nat) : Nat → Except (Nat × Word) (List (BitVec 32))
  | 0 => .ok []
  | n + 1 =>
    match s.resolve c (s.core c).system a 4 .no false with
    | .error e => .error (e, BitVec.ofNat 64 a)
    | .ok p =>
      match fetchWords s c (a + 4) n with
      | .error e => .error e
      | .ok l => .ok (BitVec.ofNat 32 (s.num p.home 4) :: l)

/-- Recapture after a trap inside a body (R76): the rules and the body from the `loop` word at TRAPPC - 4 × index - 8, each rule
applied once per completed iteration. A word of them that cannot be fetched traps (R130). [DEDUCED A62, unsafe] -/
def recapture (s : State) (c : CoreId) : State :=
  let x := s.core c
  let pc := alignPc x.sys.trappc
  match fetchWords s c (pc - BitVec.ofNat 64 (4 * x.loopIndex + 4)).toNat (x.loopLast + 2) with
  | .ok [] => s
  | .ok (step :: body) =>
    let body := (List.range x.loopDone).foldl (fun b _ => applySteps step b) body
    s.modCore c (fun x => { x with pc := pc, issue := { x.issue with loopCopy := some body, loopRules := step } })
  | .error (e, a) => deliverTrap (s.modCore c (fun x => { x with pc := pc })) c (preciseTrap a e a)

/-- A die with one of its task queues changed. -/
def Die.modQueue (x : Die) (q : Nat) (f : TaskQueue → TaskQueue) : Die :=
  { x with queues := x.queues.setIfInBounds q (f (x.queues.toList.getD q TaskQueue.reset)) }
/-- The state with a task queue of a die changed. -/
def State.modQueue (s : State) (d q : Nat) (f : TaskQueue → TaskQueue) : State := s.setDie d ((s.die d).modQueue q f)
/-- A task queue of a die. -/
def State.queue (s : State) (d q : Nat) : TaskQueue := (s.die d).queues.toList.getD q TaskQueue.reset
/-- The records that a step of core c holds back may be placed (R122). -/
def releaseHolds (s : State) (c : CoreId) : State :=
  let free (q : TaskQueue) : TaskQueue :=
    { q with records := q.records.map (fun r => if r.hold == some c then { r with hold := none } else r) }
  (List.range 16).foldl (fun s q =>
    if (s.queue (dieOf c) q).records.any (fun r => r.hold == some c) then s.modQueue (dieOf c) q free else s) s

/-- Where the core goes on after a return (R76, R113): with its cascade from PROGRESS, in its loop body, with the retirement that the
trap interrupted (R92), or at TRAPPC. [DEDUCED A62, unsafe] [DEDUCED A69, unsafe] -/
def resumeAfter (s : State) (c : CoreId) : State :=
  let x := s.core c
  if x.casc then
    s.modCore c (fun x => { x with pc := alignPc x.sys.trappc, cascade := x.cascade.map (fun k =>
      { k with block := (k.chain.base + (32 * bitsAt x.sys.progress 32 32 : Nat)).toNat, header := none, cmd := none
               link := none, start := s.now c + 1 }) })
  else if x.issue.ending && !x.system then
    s.modCore c (fun x => { x with
      pc := alignPc x.sys.trappc, run := .retiring, issue := { x.issue with ending := false } })
  else if x.loopActive then recapture s c
  else s.modCore c (fun x => { x with pc := alignPc x.sys.trappc })

/-- Return from a trap (R113): HELD cleared, the level restored, the core going on; at program level the spill buffer is reloaded
(R111), the records that the step held may be placed unless a STEP is still due (R122), and a member of a frozen group waits at its
Weir (R119). -/
def returnTrap (s : State) (c : CoreId) : State :=
  let frozen := s.isFrozen c
  let s := s.modCore c (fun x =>
    let x := x.setStatus 3 false
    { x with
      sys := { x.sys with priv := setBits x.sys.priv 0 1 (bitsAt x.sys.priv 1 1) }
      eng := { x.eng with saved := false, refilled := false }
      replay := x.replay.map (fun e => { e with parked := false, told := false })
      issue := { x.issue with resumed := true, preempted := x.issue.preempted && bitAt x.sys.priv 1 } })
  let x := s.core c
  if x.system then setCost (resumeAfter s c) c 1 else
  let s := if x.issue.stepDue then s else releaseHolds s c
  let s := if x.issue.spilled.isSome then unspill s c else s
  let s := if frozen then
      let s := s.modCore c (fun x => { x with issue := { x.issue with wait := .release } })
      match (s.core c).gang with
      | some n => s.modGang n (fun g => { g with returned := c :: g.returned })
      | none => s
    else s
  resumeAfter (setCost s c 1) c

end Sys2Proof.Machine
end

