-- ==== Sys2Proof/Machine/Flags.lean ====
section
/-! DEFINITION. The flag computations of the spec: the conditions of `br`, `skip` and `csel` (R30), the sticky flags of MSTAT
(R69, R325), ENC-VALID's monotone test (R317), and which values a `syswr` may write (R66-R71, R101, R116, R131). -/

namespace Sys2Proof.Machine
open Sys2Proof

/-- Does a condition hold between x and y (R30). -/
def condHolds (cond : Nat) (x : Reg) (y : Word) : Bool :=
  match cond with
  | 0 => x.w0 == y
  | 1 => x.w0 != y
  | 2 => x.w0.slt y
  | 3 => !x.w0.slt y
  | 4 => x.w0.ult y
  | 5 => !x.w0.ult y
  | 6 => x.tag
  | _ => !x.tag

/-- MSTAT with the overflow bit of a bank set or cleared (R69). -/
def setOvf (m : Word) (bank : Nat) (b : Bool) : Word := setBit m (8 + bank) b
/-- MSTAT with BADTRIT set (R69, R153). [DEDUCED A20, unsafe] -/
def setBadTrit (m : Word) : Word := setBit m 0 true
/-- The fenced quarters (R69). -/
def fencedBits (m : Word) : Nat := bitsAt m 40 4
/-- The usable lanes L (R218). -/
def laneCount (m : Word) : Nat := 64 - 16 * ((List.range 4).filter (fun i => bitAt m (40 + i))).length

/-- STATUS may be written with this value (R66): reserved bits and read-only fields 0. -/
def statusOk (x : Word) : Bool :=
  bitsAt x 30 2 == 0 && bitsAt x 5 19 == 0 && bitsAt x 0 2 == 0 && bitsAt x 3 2 == 0
/-- FMT may be written with this value (R68). -/
def fmtOk (x : Word) : Bool :=
  bitsAt x 9 55 == 0 && decide (bitsAt x 7 2 < 3) && decide (bitsAt x 3 3 < 4) && decide (bitsAt x 0 3 < 2)
/-- MSTAT may be written with this value (R69). -/
def mstatOk (x : Word) : Bool := bitsAt x 44 20 == 0 && bitsAt x 1 7 == 0
/-- PRIVSZ may be written with this value (R71). -/
def privszOk (x : Word) : Bool :=
  decide (x.toNat % 0x1_0000 = 0 ∧ 0x2_0000 ≤ x.toNat ∧ x.toNat ≤ 0x20_0000)
/-- XBASE or XLIMIT may be written with this value (R131). -/
def frameOk (x : Word) : Bool := decide (x.toNat % 0x1000 = 0 ∧ x.toNat ≤ 0x20_0000)
/-- A non-empty weight region starts at or above PRIVSZ (R131). -/
def regionOk (privsz xbase xlimit : Word) : Bool := decide (xlimit.toNat ≤ xbase.toNat ∨ privsz.toNat ≤ xbase.toNat)
/-- TRAPCAUSE may be written with this value (R101). -/
def causeOk (x : Word) : Bool := bitsAt x 16 48 == 0 && bitsAt x 10 2 == 0

/-- The magnitudes of a decode table's finite entries of one sign, in code order (R147, R317). -/
def finiteEntries (tab : List (BitVec 19)) (sign : Bool) : List Nat :=
  tab.filterMap (fun e => if bitAt e 18 == sign && decide (bitsAt e 10 8 < 255) then
    some (if bitsAt e 10 8 = 0 then 0 else bitsAt e 0 18) else none)
/-- Strictly rising. -/
def rising : List Nat → Bool
  | a :: b :: r => decide (a < b) && rising (b :: r)
  | _ => true
/-- ENC-VALID of a table (R317). -/
def monotone (tab : List (BitVec 19)) : Bool := rising (finiteEntries tab false) && rising (finiteEntries tab true)

end Sys2Proof.Machine
end

