-- ==== Sys2Proof/Machine/Operands.lean ====
section
/-! DEFINITION. Operand forms: the fields and slots of command words (R37-R40, R219), the slots' extents (R220), bank spans
(R221), and the shared shapes of the register-to-register words (R78). -/

namespace Sys2Proof.Machine
open Sys2Proof

/-! ## Command words (R37-R40) -/

/-- Word W_n of a command. -/
def wordAt (w : BitVec 256) (n : Nat) : BitVec 32 := w.extractLsb' (32 * n) 32
/-- The command with word W_n replaced. -/
def setWordAt (w : BitVec 256) (n : Nat) (x : BitVec 32) : BitVec 256 := setBits w (32 * n) 32 x.toNat
/-- Fields of W0 and W1 (R37). -/
def cmdEngine (w : BitVec 256) : Nat := bitsAt w 0 4
def cmdOp (w : BitVec 256) : Nat := bitsAt w 4 8
def cmdT (w : BitVec 256) : Bool := bitAt w 12
def cmdE (w : BitVec 256) : Bool := bitAt w 13
def cmdEvent (w : BitVec 256) : Nat := bitsAt w 14 8
def cmdFlags (w : BitVec 256) : Nat := bitsAt w 22 10
def cmdStart (w : BitVec 256) : Nat := bitsAt w 32 32
/-- ACC of a matrix command (R38). -/
def cmdAcc (w : BitVec 256) : Bool := bitAt w 22
/-- The FMT carried in W0 [31:23] (R219). -/
def cmdFmt (w : BitVec 256) : BitVec 9 := w.extractLsb' 23 9
def fmtA (f : BitVec 9) : Nat := bitsAt f 0 3
def fmtO (f : BitVec 9) : Nat := bitsAt f 3 3
def fmtWrap (f : BitVec 9) : Bool := bitAt f 6
def fmtD (f : BitVec 9) : Nat := bitsAt f 7 2
/-- M, K, N, bank of a matrix command; lengths and counts of the others (R40). -/
def cmdM (w : BitVec 256) : Nat := bitsAt w 160 16
def cmdK (w : BitVec 256) : Nat := bitsAt w 176 16
def cmdN (w : BitVec 256) : Nat := bitsAt w 192 10
def cmdBank (w : BitVec 256) : Nat := bitsAt w 208 5
def cmdW5 (w : BitVec 256) : Nat := bitsAt w 160 32
def cmdW6 (w : BitVec 256) : Nat := bitsAt w 192 32
def cmdW7 (w : BitVec 256) : Nat := bitsAt w 224 32
/-- Register and offset of the slot in W_n (R39). -/
def slotReg (w : BitVec 256) (n : Nat) : Nat := bitsAt (wordAt w n) 27 5
def slotOff (w : BitVec 256) (n : Nat) : Int := ((wordAt w n).extractLsb' 0 27).toInt

/-- The slot index 0-3 of W2, W3, W4 and W7 (R110). -/
def slotIndex (n : Nat) : Nat := if n = 7 then 3 else n - 2
/-- The capability a queued command's slot resolved at its `push` (R110). -/
def Cmd.slot (c : Cmd) (n : Nat) : Reg := c.slots.toList.getD (slotIndex n) Reg.zero
/-- The address of a queued command's slot (R39). -/
def Cmd.addr (c : Cmd) (n : Nat) : Int := ((c.slot n).cursor : Int) + slotOff c.word n
/-- Does the slot name an operand. -/
def Cmd.has (c : Cmd) (n : Nat) : Bool := slotReg c.word n != 0

/-- The engine of a code (R37). -/
def engineOf : Nat → Engine
  | 0 => .matrix
  | 1 => .seed
  | 2 => .copy
  | 3 => .dipper
  | 4 => .reduction
  | _ => .ring
/-- The code of an engine (R37); a block is a matrix command (R252). -/
def engineCode : Engine → Nat
  | .matrix | .cascade => 0
  | .seed => 1
  | .copy => 2
  | .dipper => 3
  | .reduction => 4
  | .ring => 5
/-- SOURCE of an engine's fault (R101). -/
def engineSource : Engine → Nat
  | .matrix => 1
  | .seed => 2
  | .copy => 3
  | .dipper => 4
  | .reduction => 5
  | .ring => 6
  | .cascade => 1
/-- Queue depth (R197). -/
def queueDepth : Nat → Nat
  | 0 => 16
  | 1 => 4
  | 2 => 16
  | 3 => 8
  | 4 => 4
  | _ => 8

/-- Output element size of a drain (R231). -/
def outSize (ofmt : Nat) : Nat := if ofmt = 2 then 2 else if ofmt = 3 then 4 else 1
/-- The sizes of R220: A, P, Kp, Sz, Cr and the row of the scale array (R150). -/
def rowBytes (K : Nat) : Nat := 64 * ceilDiv K 64
def tileBytes (K : Nat) : Nat := 64 * ceilDiv K 320
def seedRow (K : Nat) : Nat := 32 * ceilDiv K 32
def outRow (N z : Nat) : Nat := 64 * ceilDiv (N * z) 64
def scaleRow (N : Nat) : Nat := 4 * ceilDiv (1 + ceilDiv N 32) 4
/-- Banks of a span (R221). -/
def spanBanks (M N : Nat) : Nat := max 1 (ceilDiv (M * N) 512)

/-! ## Register-to-register words (R78) -/

/-- d := f(a, b) on bits [63:0], with the latency given. -/
def regOp (d a b : BitVec 5) (latency : Nat) (f : Word → Word → Word) : Op Flow := do
  bindCheck [a.toNat, b.toNat] [d.toNat]
  let x ← readWord a.toNat
  let y ← readWord b.toNat
  writeWord d.toNat (f x y) latency
  pure (.next 1)

/-- d := f(a) on bits [63:0]. -/
def unOp (d a : BitVec 5) (f : Word → Word) : Op Flow := do
  bindCheck [a.toNat] [d.toNat]
  let x ← readWord a.toNat
  writeWord d.toNat (f x)
  pure (.next 1)

end Sys2Proof.Machine
end

