-- ==== Sys2Proof/Machine/Alu.lean ====
section
/-! DEFINITION. Integer operations, multiplies and divides, immediates, `csel` and the bit fields (R81-R86). -/

namespace Sys2Proof.Machine
open Sys2Proof

/-- 1 or 0 as a word. -/
def boolWord (b : Bool) : Word := if b then 1 else 0
/-- The shift amount b & 63 (R81). -/
def amount (b : Word) : Nat := bitsAt b 0 6
/-- Zero bits above the highest 1; 64 for zero (R81). -/
def countLeading (a : Word) : Word := if a.toNat = 0 then 64 else BitVec.ofNat 64 (63 - Nat.log2 a.toNat)
/-- Zero bits below the lowest 1; 64 for zero (R81). -/
def countTrailing (a : Word) : Word := BitVec.ofNat 64 (((List.range 64).find? (fun i => bitAt a i)).getD 64)
/-- The 1 bits (R81). -/
def countOnes (a : Word) : Word := BitVec.ofNat 64 (((List.range 64).filter (fun i => bitAt a i)).length)
/-- The eight bytes reversed (R81). -/
def swapBytes (a : Word) : Word := BitVec.ofNat 64 (leNat (leBytes 8 a.toNat).reverse)
/-- The low n bits sign-extended. -/
def extendLow (n : Nat) (a : Word) : Word := BitVec.ofInt 64 (signedNat n a.toNat)
/-- The low n bits zero-extended. -/
def zeroLow (n : Nat) (a : Word) : Word := BitVec.ofNat 64 (a.toNat % 2 ^ n)

/-- a + b (R81). -/
def execAdd (S : Bool) (d a b : BitVec 5) (s : State) : Host.Outcome State Fault Refusal :=
  runWord S (regOp d a b 1 (fun a b => a + b)) s

/-- a - b (R81). -/
def execSub (S : Bool) (d a b : BitVec 5) (s : State) : Host.Outcome State Fault Refusal :=
  runWord S (regOp d a b 1 (fun a b => a - b)) s

/-- the bitwise and (R81). -/
def execAnd (S : Bool) (d a b : BitVec 5) (s : State) : Host.Outcome State Fault Refusal :=
  runWord S (regOp d a b 1 (fun a b => a &&& b)) s

/-- the bitwise or (R81). -/
def execOr (S : Bool) (d a b : BitVec 5) (s : State) : Host.Outcome State Fault Refusal :=
  runWord S (regOp d a b 1 (fun a b => a ||| b)) s

/-- the exclusive or (R81). -/
def execXor (S : Bool) (d a b : BitVec 5) (s : State) : Host.Outcome State Fault Refusal :=
  runWord S (regOp d a b 1 (fun a b => a ^^^ b)) s

/-- a and not b (R81). -/
def execAndn (S : Bool) (d a b : BitVec 5) (s : State) : Host.Outcome State Fault Refusal :=
  runWord S (regOp d a b 1 (fun a b => a &&& ~~~b)) s

/-- a or not b (R81). -/
def execOrn (S : Bool) (d a b : BitVec 5) (s : State) : Host.Outcome State Fault Refusal :=
  runWord S (regOp d a b 1 (fun a b => a ||| ~~~b)) s

/-- a << (b & 63) (R81). -/
def execShl (S : Bool) (d a b : BitVec 5) (s : State) : Host.Outcome State Fault Refusal :=
  runWord S (regOp d a b 1 (fun a b => a <<< amount b)) s

/-- a >> (b & 63), zero-filled (R81). -/
def execShr (S : Bool) (d a b : BitVec 5) (s : State) : Host.Outcome State Fault Refusal :=
  runWord S (regOp d a b 1 (fun a b => a >>> amount b)) s

/-- a >> (b & 63), filled with bit 63 (R81). -/
def execSra (S : Bool) (d a b : BitVec 5) (s : State) : Host.Outcome State Fault Refusal :=
  runWord S (regOp d a b 1 (fun a b => a.sshiftRight (amount b))) s

/-- a rotated left by b & 63 (R81). -/
def execRol (S : Bool) (d a b : BitVec 5) (s : State) : Host.Outcome State Fault Refusal :=
  runWord S (regOp d a b 1 (fun a b => a.rotateLeft (amount b))) s

/-- a rotated right by b & 63 (R81). -/
def execRor (S : Bool) (d a b : BitVec 5) (s : State) : Host.Outcome State Fault Refusal :=
  runWord S (regOp d a b 1 (fun a b => a.rotateRight (amount b))) s

/-- 1 if a < b signed (R81). -/
def execSlt (S : Bool) (d a b : BitVec 5) (s : State) : Host.Outcome State Fault Refusal :=
  runWord S (regOp d a b 1 (fun a b => boolWord (a.slt b))) s

/-- 1 if a < b unsigned (R81). -/
def execSltu (S : Bool) (d a b : BitVec 5) (s : State) : Host.Outcome State Fault Refusal :=
  runWord S (regOp d a b 1 (fun a b => boolWord (a.ult b))) s

/-- 1 if a = b (R81). -/
def execSeq (S : Bool) (d a b : BitVec 5) (s : State) : Host.Outcome State Fault Refusal :=
  runWord S (regOp d a b 1 (fun a b => boolWord (a == b))) s

/-- 1 if a differs from b (R81). -/
def execSne (S : Bool) (d a b : BitVec 5) (s : State) : Host.Outcome State Fault Refusal :=
  runWord S (regOp d a b 1 (fun a b => boolWord (a != b))) s

/-- the signed minimum (R81). -/
def execMin (S : Bool) (d a b : BitVec 5) (s : State) : Host.Outcome State Fault Refusal :=
  runWord S (regOp d a b 1 (fun a b => if a.slt b then a else b)) s

/-- the signed maximum (R81). -/
def execMax (S : Bool) (d a b : BitVec 5) (s : State) : Host.Outcome State Fault Refusal :=
  runWord S (regOp d a b 1 (fun a b => if a.slt b then b else a)) s

/-- the unsigned minimum (R81). -/
def execMinu (S : Bool) (d a b : BitVec 5) (s : State) : Host.Outcome State Fault Refusal :=
  runWord S (regOp d a b 1 (fun a b => if a.ult b then a else b)) s

/-- the unsigned maximum (R81). -/
def execMaxu (S : Bool) (d a b : BitVec 5) (s : State) : Host.Outcome State Fault Refusal :=
  runWord S (regOp d a b 1 (fun a b => if a.ult b then b else a)) s

/-- leading zeros (R81). -/
def execClz (S : Bool) (d a : BitVec 5) (s : State) : Host.Outcome State Fault Refusal :=
  runWord S (unOp d a (fun a => countLeading a)) s

/-- trailing zeros (R81). -/
def execCtz (S : Bool) (d a : BitVec 5) (s : State) : Host.Outcome State Fault Refusal :=
  runWord S (unOp d a (fun a => countTrailing a)) s

/-- 1 bits (R81). -/
def execPopc (S : Bool) (d a : BitVec 5) (s : State) : Host.Outcome State Fault Refusal :=
  runWord S (unOp d a (fun a => countOnes a)) s

/-- bytes reversed (R81). -/
def execBswap (S : Bool) (d a : BitVec 5) (s : State) : Host.Outcome State Fault Refusal :=
  runWord S (unOp d a (fun a => swapBytes a)) s

/-- a [7:0] sign-extended (R81). -/
def execSextB (S : Bool) (d a : BitVec 5) (s : State) : Host.Outcome State Fault Refusal :=
  runWord S (unOp d a (fun a => extendLow 8 a)) s

/-- a [15:0] sign-extended (R81). -/
def execSextH (S : Bool) (d a : BitVec 5) (s : State) : Host.Outcome State Fault Refusal :=
  runWord S (unOp d a (fun a => extendLow 16 a)) s

/-- a [31:0] sign-extended (R81). -/
def execSextW (S : Bool) (d a : BitVec 5) (s : State) : Host.Outcome State Fault Refusal :=
  runWord S (unOp d a (fun a => extendLow 32 a)) s

/-- a [7:0] zero-extended (R81). -/
def execZextB (S : Bool) (d a : BitVec 5) (s : State) : Host.Outcome State Fault Refusal :=
  runWord S (unOp d a (fun a => zeroLow 8 a)) s

/-- a [15:0] zero-extended (R81). -/
def execZextH (S : Bool) (d a : BitVec 5) (s : State) : Host.Outcome State Fault Refusal :=
  runWord S (unOp d a (fun a => zeroLow 16 a)) s

/-- a [31:0] zero-extended (R81). -/
def execZextW (S : Bool) (d a : BitVec 5) (s : State) : Host.Outcome State Fault Refusal :=
  runWord S (unOp d a (fun a => zeroLow 32 a)) s

/-- Quotient and remainder of R82. -/
def divide (signed : Bool) (a b : Word) : Word × Word :=
  if b = 0 then (0xFFFF_FFFF_FFFF_FFFF, a)
  else if signed then
    if a = 0x8000_0000_0000_0000 ∧ b = 0xFFFF_FFFF_FFFF_FFFF then (0x8000_0000_0000_0000, 0)
    else (BitVec.ofInt 64 (a.toInt.tdiv b.toInt), BitVec.ofInt 64 (a.toInt.tmod b.toInt))
  else (BitVec.ofNat 64 (a.toNat / b.toNat), BitVec.ofNat 64 (a.toNat % b.toNat))

/-- bits [63:0] of a × b, ready after 3 cycles (R72, R82). -/
def execMul (S : Bool) (d a b : BitVec 5) (s : State) : Host.Outcome State Fault Refusal :=
  runWord S (regOp d a b 3 (fun a b => a * b)) s

/-- bits [127:64] of the signed product, ready after 3 cycles (R72, R82). -/
def execMulh (S : Bool) (d a b : BitVec 5) (s : State) : Host.Outcome State Fault Refusal :=
  runWord S (regOp d a b 3 (fun a b => BitVec.ofInt 64 (a.toInt * b.toInt / (2 ^ 64 : Nat)))) s

/-- bits [127:64] of the unsigned product, ready after 3 cycles (R72, R82). -/
def execMulhu (S : Bool) (d a b : BitVec 5) (s : State) : Host.Outcome State Fault Refusal :=
  runWord S (regOp d a b 3 (fun a b => BitVec.ofNat 64 (a.toNat * b.toNat / 2 ^ 64))) s

/-- the signed quotient, ready after 34 cycles (R72, R82). -/
def execDiv (S : Bool) (d a b : BitVec 5) (s : State) : Host.Outcome State Fault Refusal :=
  runWord S (regOp d a b 34 (fun a b => (divide true a b).1)) s

/-- the unsigned quotient, ready after 34 cycles (R72, R82). -/
def execDivu (S : Bool) (d a b : BitVec 5) (s : State) : Host.Outcome State Fault Refusal :=
  runWord S (regOp d a b 34 (fun a b => (divide false a b).1)) s

/-- the signed remainder, ready after 34 cycles (R72, R82). -/
def execRem (S : Bool) (d a b : BitVec 5) (s : State) : Host.Outcome State Fault Refusal :=
  runWord S (regOp d a b 34 (fun a b => (divide true a b).2)) s

/-- the unsigned remainder, ready after 34 cycles (R72, R82). -/
def execRemu (S : Bool) (d a b : BitVec 5) (s : State) : Host.Outcome State Fault Refusal :=
  runWord S (regOp d a b 34 (fun a b => (divide false a b).2)) s

/-- a + imm, imm = sext(imm14) (R83). -/
def execAddi (S : Bool) (d a : BitVec 5) (i : BitVec 14) (s : State) : Host.Outcome State Fault Refusal :=
  runWord S (unOp d a (fun a => let i : Word := sextW i; a + i)) s

/-- a & imm, imm = sext(imm14) (R83). -/
def execAndi (S : Bool) (d a : BitVec 5) (i : BitVec 14) (s : State) : Host.Outcome State Fault Refusal :=
  runWord S (unOp d a (fun a => let i : Word := sextW i; a &&& i)) s

/-- a or imm, imm = sext(imm14) (R83). -/
def execOri (S : Bool) (d a : BitVec 5) (i : BitVec 14) (s : State) : Host.Outcome State Fault Refusal :=
  runWord S (unOp d a (fun a => let i : Word := sextW i; a ||| i)) s

/-- a ^ imm, imm = sext(imm14) (R83). -/
def execXori (S : Bool) (d a : BitVec 5) (i : BitVec 14) (s : State) : Host.Outcome State Fault Refusal :=
  runWord S (unOp d a (fun a => let i : Word := sextW i; a ^^^ i)) s

/-- 1 if a < imm signed, imm = sext(imm14) (R83). -/
def execSlti (S : Bool) (d a : BitVec 5) (i : BitVec 14) (s : State) : Host.Outcome State Fault Refusal :=
  runWord S (unOp d a (fun a => let i : Word := sextW i; boolWord (a.slt i))) s

/-- 1 if a < imm unsigned, imm = sext(imm14) (R83). -/
def execSltiu (S : Bool) (d a : BitVec 5) (i : BitVec 14) (s : State) : Host.Outcome State Fault Refusal :=
  runWord S (unOp d a (fun a => let i : Word := sextW i; boolWord (a.ult i))) s

/-- a << imm; an imm14 outside 0-63 is ILLEGAL (R83). -/
def execShli (S : Bool) (d a : BitVec 5) (i : BitVec 14) (s : State) : Host.Outcome State Fault Refusal :=
  runWord S (do legal (decide (i.toNat < 64)); unOp d a (fun a => a <<< i.toNat)) s

/-- a >> imm, zero-filled; an imm14 outside 0-63 is ILLEGAL (R83). -/
def execShri (S : Bool) (d a : BitVec 5) (i : BitVec 14) (s : State) : Host.Outcome State Fault Refusal :=
  runWord S (do legal (decide (i.toNat < 64)); unOp d a (fun a => a >>> i.toNat)) s

/-- a >> imm, filled with bit 63; an imm14 outside 0-63 is ILLEGAL (R83). -/
def execSrai (S : Bool) (d a : BitVec 5) (i : BitVec 14) (s : State) : Host.Outcome State Fault Refusal :=
  runWord S (do legal (decide (i.toNat < 64)); unOp d a (fun a => a.sshiftRight i.toNat)) s

/-- sext(imm19) << 14 (R84). -/
def execLui (S : Bool) (d : BitVec 5) (i : BitVec 19) (s : State) : Host.Outcome State Fault Refusal :=
  runWord S (do
    bindCheck [] [d.toNat]
    writeWord d.toNat (sextW i <<< 14)
    pure (.next 1)) s

/-- The address of its own word + 4 × sext(imm19) (R84). -/
def execAddpc (S : Bool) (d : BitVec 5) (i : BitVec 19) (s : State) : Host.Outcome State Fault Refusal :=
  runWord S (do
    bindCheck [] [d.toNat]
    let c ← getCore
    writeWord d.toNat (c.pc + sextW i <<< 2)
    pure (.next 1)) s

/-- g_a or g_b, untagged, by a condition on g_c and zero; operands pop in the order a, b, c (R61, R85). -/
def execCsel (S : Bool) (d a b c : BitVec 5) (n : BitVec 4) (s : State) : Host.Outcome State Fault Refusal :=
  runWord S (do
    legal (decide (n.toNat < 8))
    bindCheck [a.toNat, b.toNat, c.toNat] [d.toNat]
    let x ← readWord a.toNat
    let y ← readWord b.toNat
    let z ← readReg c.toNat
    writeWord d.toNat (if condHolds n.toNat z 0 then x else y)
    pure (.next 1)) s

/-- The field [lsb + width - 1 : lsb] (R86). -/
def fieldOf (a : Word) (l w : Nat) : Nat := bitsAt a l w

/-- A bit field sign-extended from its top bit (R86). -/
def execBfx (S : Bool) (d a : BitVec 5) (l : BitVec 6) (w : BitVec 7) (s : State) : Host.Outcome State Fault Refusal :=
  runWord S (do
    legal (fieldOk l w)
    unOp d a (fun x => BitVec.ofInt 64 (signedNat w.toNat (fieldOf x l.toNat w.toNat)))) s

/-- A bit field zero-extended (R86). -/
def execBfxz (S : Bool) (d a : BitVec 5) (l : BitVec 6) (w : BitVec 7) (s : State) : Host.Outcome State Fault Refusal :=
  runWord S (do
    legal (fieldOk l w)
    unOp d a (fun x => BitVec.ofNat 64 (fieldOf x l.toNat w.toNat))) s

/-- g_d with a field replaced by the low bits of a. g_d is both read and written, so a stream-bound g_d breaks the rule of
direction either way (R61, R78, R86). -/
def execBins (S : Bool) (d a : BitVec 5) (l : BitVec 6) (w : BitVec 7) (s : State) : Host.Outcome State Fault Refusal :=
  runWord S (do
    legal (fieldOk l w)
    bindCheck [a.toNat, d.toNat] [d.toNat]
    let x ← readWord a.toNat
    let y ← readWord d.toNat
    writeWord d.toNat (setBits y l.toNat w.toNat x.toNat)
    pure (.next 1)) s

end Sys2Proof.Machine
end

