-- ==== Sys2Proof/Machine/Capability.lean ====
section
/-! DEFINITION. The capability instructions (R93-R100). -/

namespace Sys2Proof.Machine
open Sys2Proof

/-- A getter of R93: the result of a tagged g_a, else the one given for an untagged g_a. -/
def getField (d a : BitVec 5) (f : Reg → Reg) : Op Flow := do
  bindCheck [a.toNat] [d.toNat]
  let v ← readReg a.toNat
  writeReg d.toNat (f v) 1
  pure (.next 1)

/-- A number when tagged, else another (R93). -/
def fieldValue (v : Reg) (x : Int) (untagged : Nat) : Reg :=
  Reg.ofWord (if v.tag then BitVec.ofInt 64 x else BitVec.ofNat 64 untagged)

/-- The cursor (R93). -/
def execCreadCur (S : Bool) (d a : BitVec 5) (s : State) : Host.Outcome State Fault Refusal :=
  runWord S (getField d a (fun v => Reg.ofWord (BitVec.ofNat 64 v.cursor))) s

/-- The base by R54; 0 untagged (R93). -/
def execCreadBase (S : Bool) (d a : BitVec 5) (s : State) : Host.Outcome State Fault Refusal :=
  runWord S (getField d a (fun v => fieldValue v v.base 0)) s

/-- top - base; 0 untagged (R93). -/
def execCreadLen (S : Bool) (d a : BitVec 5) (s : State) : Host.Outcome State Fault Refusal :=
  runWord S (getField d a (fun v => fieldValue v (v.top - v.base) 0)) s

/-- The permission bits R, W, X, C, G from bit 0 (R53, R93). -/
def execCreadPerm (S : Bool) (d a : BitVec 5) (s : State) : Host.Outcome State Fault Refusal :=
  runWord S (getField d a (fun v => fieldValue v (bitsAt v.w0 59 5 : Nat) 0)) s

/-- The space (R93). -/
def execCreadSpace (S : Bool) (d a : BitVec 5) (s : State) : Host.Outcome State Fault Refusal :=
  runWord S (getField d a (fun v => fieldValue v (v.space : Nat) 0)) s

/-- The owner (R93). -/
def execCreadOwner (S : Bool) (d a : BitVec 5) (s : State) : Host.Outcome State Fault Refusal :=
  runWord S (getField d a (fun v => fieldValue v (v.owner : Nat) 0)) s

/-- The tag (R93). -/
def execCreadTag (S : Bool) (d a : BitVec 5) (s : State) : Host.Outcome State Fault Refusal :=
  runWord S (getField d a (fun v => Reg.ofWord (if v.tag then 1 else 0))) s

/-- The register with its tag (R93). -/
def execCcopy (S : Bool) (d a : BitVec 5) (s : State) : Host.Outcome State Fault Refusal :=
  runWord S (getField d a (fun v => v)) s

/-- Word 0 untagged (R93). -/
def execCstrip (S : Bool) (d a : BitVec 5) (s : State) : Host.Outcome State Fault Refusal :=
  runWord S (getField d a Reg.strip) s

/-- The cursor moved by g_b signed (R94). -/
def execCshift (S : Bool) (d a b : BitVec 5) (s : State) : Host.Outcome State Fault Refusal :=
  runWord S (do
    bindCheck [a.toNat, b.toNat] [d.toNat]
    let v ← readReg a.toNat
    let i ← readWord b.toNat
    writeReg d.toNat (v.shift i.toInt) 1
    pure (.next 1)) s

/-- The cursor moved by sext(imm14) (R94). -/
def execCshifti (S : Bool) (d a : BitVec 5) (i : BitVec 14) (s : State) : Host.Outcome State Fault Refusal :=
  runWord S (getField d a (fun v => v.shift i.toInt)) s

/-- The region of `len` bytes at the cursor, rounded outwards within the source's bounds (R95). -/
def narrow (v : Reg) (len : Nat) : Option Reg :=
  let c := v.cursor
  if decide (len > 2 ^ 57 - c) || decide ((c : Int) < v.base) || decide ((c : Int) + len > v.top) then none else
  let (e, lo, hi) := roundRegion c len 34 0
  if decide ((lo : Int) < v.base) || decide ((hi : Int) > v.top) then none
  else some { v with w1 := capWord1 v.owner e lo hi }

/-- Narrow a capability (R95). -/
def execCnarrow (S : Bool) (d a b : BitVec 5) (s : State) : Host.Outcome State Fault Refusal :=
  runWord S (do
    bindCheck [a.toNat, b.toNat] [d.toNat]
    let v ← readReg a.toNat
    let len ← readWord b.toNat
    if !v.tag then raise causeCapTag v.w0
    match narrow v len.toNat with
    | some r => writeReg d.toNat r 1
    | none => raise causeCapBound (valOf v.cursor)
    pure (.next 1)) s

/-- Clear permissions by a mask (R96). -/
def execCmask (S : Bool) (d a m : BitVec 5) (s : State) : Host.Outcome State Fault Refusal :=
  runWord S (do
    bindCheck [a.toNat] [d.toNat]
    let v ← readReg a.toNat
    if !v.tag then raise causeCapTag v.w0
    writeReg d.toNat { v with w0 := setBits v.w0 59 5 (bitsAt v.w0 59 5 &&& m.toNat) } 1
    pure (.next 1)) s

/-- The region code of an address on a core with the PRIVSZ given (R97). -/
def regionCode (isMem : Bool) (privsz a : Nat) : Nat :=
  if Config.privateBase ≤ a ∧ a < Config.privateBase + privsz then 0
  else if !isMem ∧ Config.scratchBase + privsz ≤ a ∧ a < Config.scratchEnd then 1
  else if !isMem ∧ Config.clusterBase ≤ a ∧ a < Config.clusterEnd then 2
  else if Config.sramBase ≤ a ∧ a < Config.sramBase + Config.sramSize then 3
  else if Config.externalBase ≤ a ∧ a < Config.externalEnd then 4
  else 15

/-- The space that agrees with a code (R97). -/
def codeSpace (code : Nat) : Nat := if code = 4 then 3 else code

/-- The result of `cspace` (R98). -/
def classify (c : CoreId) (privsz : Nat) (v : Reg) : Nat :=
  let a := v.cursor
  let code := regionCode (isMemCore c) privsz a
  let o := a - Config.sramBase
  let own := match c with
    | .comp k => code == 3 && decide (o < Config.sramClusters) && o / Config.sliceSize == k
    | .mem _ => false
  let ownCl := match c with
    | .comp k => code == 3 && decide (o ≥ Config.sramClusters) && (o - Config.sramClusters) / Config.clusterSize == k / 16
    | .mem _ => false
  let agree := v.tag && code != 15 && v.space == codeSpace code
  code + own.toNat * 16 + ownCl.toNat * 32 + v.tag.toNat * 64 + agree.toNat * 128

/-- Classify the address of g_a (R98). -/
def execCspace (S : Bool) (d a : BitVec 5) (s : State) : Host.Outcome State Fault Refusal :=
  runWord S (do
    bindCheck [a.toNat] [d.toNat]
    let v ← readReg a.toNat
    let s ← get
    let c ← getCore
    writeWord d.toNat (BitVec.ofNat 64 (classify s.cur c.sys.privsz.toNat v))
    pure (.next 1)) s

/-- A capability moved by delta to another space, owner replaced (R99). -/
def moveCap (v : Reg) (delta : Int) (space owner : Nat) : Reg :=
  let w0 := setBits (setBits v.w0 0 57 (unsignedOf 57 ((v.cursor : Int) + delta))) 57 2 space
  let an := unsignedOf 23 ((v.base + delta) / (2 ^ v.SH : Nat))
  { v with w0 := w0, w1 := setBits (setBits v.w1 6 23 an) 52 11 owner }

/-- `ccast` to a target space (R99). [DEDUCED A20, unsafe] -/
def castCap (c : CoreId) (privsz : Nat) (v : Reg) (t : Nat) : Reg :=
  if !v.tag then Reg.zero
  else if v.space = t then v
  else match c with
    | .mem _ => Reg.zero
    | .comp k =>
      let slice : Int := (Config.sramBase + k * Config.sliceSize : Nat)
      let cl : Int := (Config.sramBase + Config.sramClusters + k / 16 * Config.clusterSize : Nat)
      if v.space = 1 ∧ t = 3 then
        moveCap v ((Config.sramBase + v.owner * Config.sliceSize : Nat) - (Config.scratchBase : Int)) 3 v.owner
      else if v.space = 2 ∧ t = 3 then moveCap v (cl - Config.clusterBase) 3 v.owner
      else if v.space = 3 ∧ t = 1 ∧ slice + privsz ≤ v.base ∧ v.top ≤ slice + Config.sliceSize then
        moveCap v (Config.scratchBase - slice) 1 k
      else if v.space = 3 ∧ t = 2 ∧ cl ≤ v.base ∧ v.top ≤ cl + Config.clusterSize then
        moveCap v (Config.clusterBase - cl) 2 k
      else Reg.zero

/-- Convert between aliased and global windows, or null (R99). -/
def execCcast (S : Bool) (d a : BitVec 5) (t : BitVec 2) (s : State) : Host.Outcome State Fault Refusal :=
  runWord S (do
    bindCheck [a.toNat] [d.toNat]
    let v ← readReg a.toNat
    let s ← get
    let c ← getCore
    writeReg d.toNat (castCap s.cur c.sys.privsz.toNat v t.toNat) 1
    pure (.next 1)) s

/-- The rounded region lies within the windows of the space (R100). -/
def deriveOk (space lo hi : Nat) : Bool :=
  match space with
  | 0 => decide (Config.privateBase ≤ lo ∧ hi ≤ Config.scratchBase)
  | 1 => decide (Config.scratchBase ≤ lo ∧ hi ≤ Config.scratchEnd)
  | 2 => decide (Config.clusterBase ≤ lo ∧ hi ≤ Config.clusterEnd)
  | _ => decide (Config.sramBase ≤ lo ∧ hi ≤ Config.sramBase + Config.sramSize) ||
      decide (Config.externalBase ≤ lo ∧ hi ≤ Config.externalEnd)

/-- Create a capability at system level (R100). -/
def execCderive (S : Bool) (d a b : BitVec 5) (s : State) : Host.Outcome State Fault Refusal :=
  runWord S (do
    systemOnly
    let x ← readWord a.toNat
    let y ← readWord b.toNat
    let cur := bitsAt x 0 57
    let (e, lo, hi) := roundRegion cur (bitsAt y 0 53) 34 0
    if !deriveOk (bitsAt x 57 2) lo hi then raise causeCapBound (valOf cur)
    writeReg d.toNat ⟨true, capWord1 (bitsAt y 53 11) e lo hi, x⟩ 1
    pure (.next 1)) s

end Sys2Proof.Machine
end

