-- ==== Sys2Proof/Machine/Translation.lean ====
section
/-! DEFINITION. Page tables and their walk (R133-R137, R310), the TLBs (R138), the walk steps and the replay queue (R178). -/

namespace Sys2Proof.Machine
open Sys2Proof

/-- The end of LPDDR6 in the physical space (R137). -/
def lpddrEnd : Nat := Config.dies * Config.lpddrPerDie

/-- n physical addresses, of one page, that it may map: in LPDDR6, or below HLEN in a host window (R135, R137, R370). -/
def State.mappable (s : State) (pa : Nat) (n : Nat := 1) : Bool :=
  decide (pa + n ≤ lpddrEnd) ||
    (decide (Config.hostBase ≤ pa ∧ pa < Config.scratchpadHome) &&
      decide ((pa - Config.hostBase) % 2 ^ 47 + n ≤ (s.module.windows.toList.getD ((pa - Config.hostBase) / 2 ^ 47) (0, 0)).2))

/-- The addresses of a page from a physical one on that may be mapped: in a host window those below HLEN (R370). -/
def State.mappedFrom (s : State) (pa : Nat) : Nat :=
  if Config.hostBase ≤ pa ∧ pa < Config.scratchpadHome then
    (s.module.windows.toList.getD ((pa - Config.hostBase) / 2 ^ 47) (0, 0)).2 - (pa - Config.hostBase) % 2 ^ 47
  else 4096

/-- The home of a physical address: a host window maps it to the host address HBASE + x, modulo 2^64 (R370). [DESIGN CHOICE A5, safe] -/
def State.physHome (s : State) (pa : Nat) : Nat :=
  if Config.hostBase ≤ pa ∧ pa < Config.scratchpadHome then
    Config.hostHome + ((s.module.windows.toList.getD ((pa - Config.hostBase) / 2 ^ 47) (0, 0)).1 + (pa - Config.hostBase) % 2 ^ 47) % 2 ^ 64
  else pa

/-- Fields of an entry (R134). -/
def pteFrame (e : Word) : Nat := bitsAt e 12 40
def pteOk (e : Word) : Bool := bitAt e 0 && bitsAt e 52 12 == 0 && bitsAt e 10 2 == 0

/-- The pair rule (R136) for the level-2 entry at an address. -/
def State.pairOk (s : State) (addr : Nat) : Bool :=
  let even := addr / 16 * 16
  let e0 := BitVec.ofNat 64 (s.num even 8)
  let e1 := BitVec.ofNat 64 (s.num (even + 8) 8)
  let strip (e : Word) : Word := setBits (e &&& 0x1FF) 5 2 0
  bitAt e0 8 && bitAt e1 8 && bitAt e0 9 && bitAt e1 9 && strip e0 == strip e1 &&
    pteFrame e0 % 2 ^ 19 == 0 && pteFrame e1 == pteFrame e0 + 0x4_0000

/-- Does an entry of a level-2 table stand beside or in a pair that fails the pair rule: no access goes through it (R136). -/
def State.brokenPair (s : State) (addr : Nat) : Bool :=
  let paired (a : Nat) : Bool := let e := BitVec.ofNat 64 (s.num a 8); bitAt e 0 && bitAt e 8 && bitAt e 9
  (paired (addr / 16 * 16) || paired (addr / 16 * 16 + 8)) && !s.pairOk addr

/-- The level-0 leaf entries of the tables below one that map a frame (R134, R141). -/
def State.leavesOf (s : State) (frame : Nat) : Nat → Nat → List Nat
  | level, table => (List.range 512).flatMap (fun i =>
    let addr := table + 8 * i
    let e := BitVec.ofNat 64 (s.num addr 8)
    if !pteOk e then []
    else if bitAt e 8 then (if level = 0 ∧ pteFrame e = frame then [addr] else [])
    else match level with
      | 0 => []
      | l + 1 => s.leavesOf frame l (pteFrame e * 4096))
termination_by structural level => level

/-- Does a leaf with C = 1, or one of a weight page, in the tables below one of a level map the frame that holds an address (R134, R141). -/
def State.tableClean (s : State) (h : Nat) : Nat → Nat → Bool
  | level, table => (List.range 512).any (fun i =>
    let e := BitVec.ofNat 64 (s.num (table + 8 * i) 8)
    pteOk e && (if bitAt e 8 then
        decide (level ≤ 2) && (bitAt e 7 || bitAt e 3) && decide (pteFrame e * 4096 ≤ h ∧ h < pteFrame e * 4096 + 2 ^ (12 + 9 * level))
      else match level with
        | 0 => false
        | l + 1 => s.tableClean h l (pteFrame e * 4096)))
termination_by structural level => level

/-- Descend from a table of a level: the leaf's level, address and value, or a failure (R133-R135). -/
def State.descend (s : State) (va : Nat) : Nat → Nat → Option (Nat × Nat × Word)
  | level, table =>
    let addr := table + 8 * (va / 2 ^ (12 + 9 * level) % 512)
    let e := BitVec.ofNat 64 (s.num addr 8)
    if decide (addr ≥ lpddrEnd) || !pteOk e || (level == 2 && s.brokenPair addr) then none
    else if bitAt e 8 then
      if level > 2 || pteFrame e % 2 ^ (9 * level) != 0 then none
      else if bitAt e 9 && level != 2 then none
      else some (level, addr, e)
    else match level with
      | 0 => none
      | l + 1 => if bitAt e 9 || bitsAt e 1 7 != 0 then none else s.descend va l (pteFrame e * 4096)
termination_by structural level => level

/-- Does a leaf give what an access needs (R134, R135). [DEDUCED A52, unsafe] [DEDUCED A55, unsafe] -/
def leafAllows (e : Word) : Need → Bool
  | .read => bitAt e 1
  | .write => bitAt e 2
  | .update => bitAt e 1 && bitAt e 2
  | .grant => bitAt e 4
  | .tern => bitAt e 4 && bitAt e 3
  | .exec => bitAt e 3

/-- Does the need write. [DEDUCED A52, unsafe] -/
def needWrites : Need → Bool
  | .write | .update | .grant | .tern => true
  | _ => false

/-- A walk on die d for a context (R135): the translation, with A and D set in the entry walked; none for XLATE. [DEDUCED A55, unsafe] -/
def State.walk (s : State) (d ctx va : Nat) (need : Need) : Option (TlbEntry × State) :=
  let root := (mapGet (s.die d).roots ctx).getD 0
  if !bitAt root 0 then none else
  match s.descend va 4 (pteFrame root * 4096) with
  | none => none
  | some (level, addr, e) =>
    if !leafAllows e need || (bitAt e 3 && bitAt e 2) then none else
    let pair := bitAt e 9
    let size := if pair then 2 ^ 31 else 2 ^ (12 + 9 * level)
    let frame := if pair then (pteFrame e / 2 ^ 19 * 2 ^ 19) * 4096 else pteFrame e * 4096
    let e' := if needWrites need then setBit (setBit e 5 true) 6 true else setBit e 5 true
    if !s.mappable (frame + va % size) then none
    else some (⟨ctx, va / size * size, size, frame, e'⟩, s.writeNum addr 8 e'.toNat)

/-- The entry of a TLB that serves an access: it covers the address, allows the need, and has D set for a write (R138, R178). -/
def tlbHit (tlb : List TlbEntry) (ctx va : Nat) (need : Need) : Option TlbEntry :=
  tlb.find? (fun e => e.ctx == ctx && decide (e.base ≤ va ∧ va < e.base + e.size) && leafAllows e.leaf need &&
    (!needWrites need || bitAt e.leaf 6))

/-- The physical address an entry gives. -/
def TlbEntry.pa (e : TlbEntry) (va : Nat) : Nat := e.frame + (va - e.base)

/-- A TLB with an entry added: it replaces what covers the same page, and the oldest leaves beyond the capacity (R138). [DESIGN CHOICE A14, unsafe] -/
def tlbInsert (cap : Nat) (tlb : List TlbEntry) (e : TlbEntry) : List TlbEntry :=
  let l := tlb.filter (fun x => !(x.ctx == e.ctx && decide (x.base < e.base + e.size ∧ e.base < x.base + x.size))) ++ [e]
  l.drop (l.length - cap)

/-- The die of a translator. -/
def translatorDie : Translator → Nat
  | .memCore m => m / 8
  | .dipper q => q / 8

/-- A translator's TLB, and the state with it replaced. -/
def State.tlbOf (s : State) : Translator → List TlbEntry
  | .memCore m => (s.core (.mem m)).tlb
  | .dipper q => (s.cluster q).tlb
def State.setTlb (s : State) (t : Translator) (l : List TlbEntry) : State :=
  match t with
  | .memCore m => s.modCore (.mem m) (fun c => { c with tlb := l })
  | .dipper q => s.setCluster q { s.cluster q with tlb := l }
/-- Entries a translator holds (R138). [DESIGN CHOICE A14, unsafe] -/
def tlbSize : Translator → Nat
  | .memCore _ => 1024
  | .dipper _ => 512

/-- A memory core's word waits for a walk; with the outcome of the walk it goes on. -/
def endWalk (s : State) (m : Nat) (w : Wait) : State :=
  s.modCore (.mem m) (fun c => { c with issue := { c.issue with wait := w, readyAt := s.now (.mem m) } })

/-- A walk that has returned an entry serves every word and every entry of a replay queue of its die that waits on the same page
and finds there what it needs: their walk is the one that has ended (R138). [DESIGN CHOICE A14, unsafe] -/
def serveOthers (s : State) (d : Nat) (e : TlbEntry) : State :=
  (List.range 8).foldl (fun s i =>
    let m := 8 * d + i
    let x := s.core (.mem m)
    let served (va : Nat) (need : Need) : Bool := x.context == e.ctx && (tlbHit [e] e.ctx va need).isSome
    let word : Bool := match x.issue.wait with | .walk va need => served va need | _ => false
    let s := if word || x.replay.any (fun r => !r.parked && served r.va .write) then
        s.setTlb (.memCore m) (tlbInsert (tlbSize (.memCore m)) (s.tlbOf (.memCore m)) e) else s
    if word then endWalk s m .none else s) s

/-- A miss of a translator (R135, R138): the walk for its page ends now, one that is in progress for the same page with it; it fills the
translator's TLB and serves the others that wait on it. [DESIGN CHOICE A14, unsafe] -/
def State.fill (s : State) (t : Translator) (ctx va : Nat) (need : Need) : Option (TlbEntry × State) :=
  match s.walk (translatorDie t) ctx va need with
  | none => none
  | some (e, s') => some (e, serveOthers (s'.setTlb t (tlbInsert (tlbSize t) (s'.tlbOf t) e)) (translatorDie t) e)

/-- Translate n addresses of one page for an engine to their home, walking on a miss (R135, R138, R370). -/
def State.translate (s : State) (t : Translator) (ctx va : Nat) (need : Need) (n : Nat := 1) : Option (Nat × State) :=
  match tlbHit (s.tlbOf t) ctx va need with
  | some e => if s.mappable (e.pa va) n then some (s.physHome (e.pa va), s) else none
  | none => (s.fill t ctx va need).bind (fun (e, s') => if s.mappable (e.pa va) n then some (s.physHome (e.pa va), s') else none)

/-- The memory core whose channel holds a physical address: frame f of a die is on its channel f mod 8 (R137). -/
def channelCore (pa : Nat) : Option Nat :=
  if pa < lpddrEnd then some (pa / Config.lpddrPerDie * 8 + pa % Config.lpddrPerDie / 4096 % 8) else none

/-- Translate a cascade fetch of core c to its home, with the number of addresses from there on that are mapped with it (R138, R248, R370): in
the TLB of the memory core that serves the read, the one whose channel holds the frame; one of the core's own die for a frame in host memory.
A miss is walked on the core's die, and that walk serves the others. [DESIGN CHOICE A14, unsafe] -/
def State.translateFetch (s : State) (c ctx va : Nat) : Option (Nat × Nat × State) :=
  let own := c / 128 * 8 + c / 16 % 8
  let server (pa : Nat) : Nat := (channelCore pa).getD own
  let place (e : TlbEntry) (s' : State) : Nat × Nat × State := (s.physHome (e.pa va), s.mappedFrom (e.pa va), s')
  let hit (m : Nat) : Option TlbEntry := (tlbHit (s.tlbOf (.memCore m)) ctx va .exec).filter (fun e => server (e.pa va) == m)
  match (List.range Config.memoryCores).findSome? hit with
  | some e => some (place e s)
  | none => (s.walk (c / 128) ctx va .exec).map (fun (e, s') =>
      let t : Translator := .memCore (server (e.pa va))
      place e (serveOthers (s'.setTlb t (tlbInsert (tlbSize t) (s'.tlbOf t) e)) (c / 128) e))

/-- Translate for a scalar access of n bytes of a memory core (R170, R176): a hit answers, a miss waits for the walk, a failed walk raises
XLATE precisely with SOURCE 0. -/
def translateScalar (va n : Nat) (need : Need) : Op (Option Nat) := do
  let s ← get
  let c ← getCore
  match c.issue.wait with
  | .walkFailed v =>
    if v = va then
      modCore (fun c => { c with issue := { c.issue with wait := .none } })
      raise causeXlate (valOf va)
  | _ => pure ()
  match tlbHit c.tlb c.context va need with
  | some e =>
    if s.mappable (e.pa va) n then
      noteThrough va e
      pure (some (s.physHome (e.pa va)))
    else raise causeXlate (valOf va)
  | none => pure none

/-- The entries of a replay queue that are not parked and stand behind no entry of their page (R178). -/
def replayHeads (l : List ReplayEntry) : List ReplayEntry :=
  (l.zipIdx.filter (fun (e, i) => !e.parked && (l.take i).all (fun x => x.va / 4096 != e.va / 4096))).map (fun r => r.1)

/-- The entry that goes on next: the oldest of them that has its translation, else the oldest, whose walk ends now; stores to different
pages perform in no order (R178). -/
def replayHead (x : Core) : Option ReplayEntry :=
  let l := replayHeads x.replay
  (l.find? (fun e => (tlbHit x.tlb x.context e.va .write).isSome)).or l.head?

/-- A walk for the page of a virtual address has failed (R178): the entries for it park, and the oldest parked one that has not been
reported is what the core's next boundary reports, as XLATE with SOURCE 3. [DEDUCED A34, unsafe] -/
def parkPage (x : Core) (va now : Nat) : Core :=
  let replay := x.replay.map (fun f => if f.va / 4096 == va / 4096 then { f with parked := true } else f)
  let others := x.issue.faults.filter (fun f => !(f.code == causeXlate && f.source == 3 && f.seq.isNone))
  { x with
    replay := replay
    issue := { x.issue with faults := others ++ (match replay.find? (fun f => f.parked && !f.told) with
      | some f => [⟨causeXlate, valOf f.va, none, 3, false, now⟩]
      | none => []) } }

/-- REPLAY_WALK_DONE (R178): the walk of a waiting `dst` ends; it performs, once no recovery holds it (R141), or parks with those behind it
for its page and is reported at the next boundary. The walk serves the others that wait on its page (R138). [DESIGN CHOICE A14, unsafe] -/
def execReplayWalkDone (m : Nat) (s : State) : Host.Outcome State Fault Refusal :=
  if m ≥ Config.memoryCores then .fault .noSuchUnit else
  let c : CoreId := .mem m
  let x := s.core c
  match replayHead x with
  | none => .next s
  | some e =>
    match tlbHit x.tlb x.context e.va .write with
    | some t =>
      let o : MemOp := ⟨s.nextId, .direct, s.physHome (t.pa e.va), 8, e.data.toNat, none, false, none, none⟩
      if !s.mappable (t.pa e.va) 8 then .next (s.modCore c (fun x => parkPage x e.va (s.now c)))
      else if mayPerform c x.ops o && !s.recovers o.home 8 then
        .next ((performAt s o none).1.modCore c (fun x => { x with replay := x.replay.erase e }))
      else .next s
    | none =>
      match s.fill (.memCore m) x.context e.va .write with
      | some (_, s') => .next s'
      | none => .next (s.modCore c (fun x => parkPage x e.va (s.now c)))

end Sys2Proof.Machine
end

