-- ==== Sys2Proof/Machine/Memory.lean ====
section
/-! DEFINITION. Loads, stores, atomics, fences, streams, Basin banks, and external memory (R165-R179). -/

namespace Sys2Proof.Machine
open Sys2Proof

/-- The permission of an access of R166 and R167. -/
def permRC (r : Reg) : Bool := r.permR && r.permC
def permWC (r : Reg) : Bool := r.permW && r.permC
def permRW (r : Reg) : Bool := r.permR && r.permW

/-- A load of n bytes (R165, R166). -/
def loadWord (kind : MemKind) (n : Nat) (perm : Reg → Bool) (d b : BitVec 5) (o : BitVec 14) : Op Flow := do
  notBound [d.toNat]
  bindCheck [b.toNat] []
  memoryGate
  let r ← readReg b.toNat
  let p ← checkAccess r (o.toInt * n) n n perm false false
  issueLoad kind p n d.toNat
  pure (.next 1)

/-- A store of n bytes (R165, R166). [DEDUCED A45, unsafe] -/
def storeWord (n : Nat) (perm : Reg → Bool) (d b : BitVec 5) (o : BitVec 14) : Op Flow := do
  bindCheck [d.toNat, b.toNat] []
  memoryGate
  let v ← readReg d.toNat
  let r ← readReg b.toNat
  let p ← checkAccess r (o.toInt * n) n n perm true false
  issueStore (if n = 16 then .storeCap v.tag else .store) p n v.num
  pure (.next 1)

/-- A byte, sign-extended (R166). -/
def execLdSb (S : Bool) (d b : BitVec 5) (o : BitVec 14) (s : State) : Host.Outcome State Fault Refusal :=
  runWord S (loadWord (.load true) 1 Reg.permR d b o) s

/-- A byte, zero-extended (R166). -/
def execLdZb (S : Bool) (d b : BitVec 5) (o : BitVec 14) (s : State) : Host.Outcome State Fault Refusal :=
  runWord S (loadWord (.load false) 1 Reg.permR d b o) s

/-- A half, sign-extended (R166). -/
def execLdSh (S : Bool) (d b : BitVec 5) (o : BitVec 14) (s : State) : Host.Outcome State Fault Refusal :=
  runWord S (loadWord (.load true) 2 Reg.permR d b o) s

/-- A half, zero-extended (R166). -/
def execLdZh (S : Bool) (d b : BitVec 5) (o : BitVec 14) (s : State) : Host.Outcome State Fault Refusal :=
  runWord S (loadWord (.load false) 2 Reg.permR d b o) s

/-- A word, sign-extended (R166). -/
def execLdSw (S : Bool) (d b : BitVec 5) (o : BitVec 14) (s : State) : Host.Outcome State Fault Refusal :=
  runWord S (loadWord (.load true) 4 Reg.permR d b o) s

/-- A word, zero-extended (R166). -/
def execLdZw (S : Bool) (d b : BitVec 5) (o : BitVec 14) (s : State) : Host.Outcome State Fault Refusal :=
  runWord S (loadWord (.load false) 4 Reg.permR d b o) s

/-- A doubleword (R166). -/
def execLdD (S : Bool) (d b : BitVec 5) (o : BitVec 14) (s : State) : Host.Outcome State Fault Refusal :=
  runWord S (loadWord (.load false) 8 Reg.permR d b o) s

/-- A granule with its tag (R167). -/
def execLdC (S : Bool) (d b : BitVec 5) (o : BitVec 14) (s : State) : Host.Outcome State Fault Refusal :=
  runWord S (loadWord .loadCap 16 permRC d b o) s

/-- A byte stored (R166). -/
def execStB (S : Bool) (d b : BitVec 5) (o : BitVec 14) (s : State) : Host.Outcome State Fault Refusal :=
  runWord S (storeWord 1 Reg.permW d b o) s

/-- A half stored (R166). -/
def execStH (S : Bool) (d b : BitVec 5) (o : BitVec 14) (s : State) : Host.Outcome State Fault Refusal :=
  runWord S (storeWord 2 Reg.permW d b o) s

/-- A word stored (R166). -/
def execStW (S : Bool) (d b : BitVec 5) (o : BitVec 14) (s : State) : Host.Outcome State Fault Refusal :=
  runWord S (storeWord 4 Reg.permW d b o) s

/-- A doubleword stored (R166). -/
def execStD (S : Bool) (d b : BitVec 5) (o : BitVec 14) (s : State) : Host.Outcome State Fault Refusal :=
  runWord S (storeWord 8 Reg.permW d b o) s

/-- A register with its tag stored (R167). -/
def execStC (S : Bool) (d b : BitVec 5) (o : BitVec 14) (s : State) : Host.Outcome State Fault Refusal :=
  runWord S (storeWord 16 permWC d b o) s

/-- Stall while the replay queue holds an entry for the page of an address (R179, R181). -/
def pageGate (va : Nat) : Op Unit := do
  let c ← getCore
  if c.replay.any (fun e => e.va / 4096 == va / 4096) then stall

/-- Stall while the replay queue holds an entry that touches the n bytes at an address (R179, R181, R184). -/
def replayGate (va n : Nat) : Op Unit := do
  let c ← getCore
  if c.replay.any (fun e => decide (e.va < va + n ∧ va < e.va + 8)) then stall

/-- Stall while the memory core has 512 translated accesses outstanding (R138). -/
def outstandingGate : Op Unit := do
  let c ← getCore
  if c.translated.length ≥ 512 then stall

/-- The word waits for a walk in the state in which it issued, and issues again after it (R61, R135). -/
def awaitWalk (before : State) (va : Nat) (need : Need) : Op Unit :=
  set (before.modCore before.cur (fun c => { c with issue := { c.issue with wait := .walk va need } }))

/-- The place of an atomic-group access, translated when a memory core names external memory (R169, R170); none while the word
waits for the walk, in the state in which it issued: nothing has been popped then (R61). It comes after the `dst`s of the same bytes that wait in
the replay queue (R181, R184). [DEDUCED A55, unsafe] -/
def atomicPlace (before : State) (r : Reg) (n : Nat) (perm : Reg → Bool) (need : Need) : Op (Option Place) := do
  let s ← get
  let p ← checkAccess r 0 n n perm (needWrites need) (isMemCore s.cur)
  if p.external then
    replayGate p.resolved n
    outstandingGate
    match (← translateScalar p.resolved n need) with
    | none =>
      awaitWalk before p.resolved need
      pure none
    | some h => pure (some { p with home := h })
  else pure (some p)

/-- An atomic operation of R169: it joins the core's accesses and performs at the home of its address; `cas` (7) expects g_d, at
system level as R62 reads it. -/
def atomicWord (op : Nat) (d a b : BitVec 5) (z : BitVec 1) : Op Flow := do
  let before ← get
  notBound [d.toNat]
  bindCheck [a.toNat, b.toNat] []
  memoryGate
  let n := 4 * 2 ^ z.toNat
  let r ← readReg a.toNat
  let v ← readWord b.toNat
  let c ← getCore
  if op = 7 then interlock d.toNat
  match ← atomicPlace before r n permRW .update with
  | none => pure .hold
  | some p =>
    addOp ⟨0, .amo op ((c.seen d.toNat).w0.toNat % 256 ^ n), p.home, n, v.toNat % 256 ^ n,
      if d = 0 then none else some d.toNat, p.near, none, none⟩
    pure (.next 1)

/-- Atomically writes old + data; g_d receives old (R169, R170). -/
def execAmoAdd (S : Bool) (d a b : BitVec 5) (z : BitVec 1) (s : State) : Host.Outcome State Fault Refusal :=
  runWord S (atomicWord 0 d a b z) s

/-- Atomically writes old & data; g_d receives old (R169, R170). -/
def execAmoAnd (S : Bool) (d a b : BitVec 5) (z : BitVec 1) (s : State) : Host.Outcome State Fault Refusal :=
  runWord S (atomicWord 1 d a b z) s

/-- Atomically writes old or data; g_d receives old (R169, R170). -/
def execAmoOr (S : Bool) (d a b : BitVec 5) (z : BitVec 1) (s : State) : Host.Outcome State Fault Refusal :=
  runWord S (atomicWord 2 d a b z) s

/-- Atomically writes old exclusive-or data; g_d receives old (R169, R170). -/
def execAmoXor (S : Bool) (d a b : BitVec 5) (z : BitVec 1) (s : State) : Host.Outcome State Fault Refusal :=
  runWord S (atomicWord 3 d a b z) s

/-- Atomically writes data; g_d receives old (R169, R170). -/
def execAmoSwap (S : Bool) (d a b : BitVec 5) (z : BitVec 1) (s : State) : Host.Outcome State Fault Refusal :=
  runWord S (atomicWord 4 d a b z) s

/-- Atomically writes the signed larger; g_d receives old (R169, R170). -/
def execAmoSmax (S : Bool) (d a b : BitVec 5) (z : BitVec 1) (s : State) : Host.Outcome State Fault Refusal :=
  runWord S (atomicWord 5 d a b z) s

/-- Atomically writes the signed smaller; g_d receives old (R169, R170). -/
def execAmoSmin (S : Bool) (d a b : BitVec 5) (z : BitVec 1) (s : State) : Host.Outcome State Fault Refusal :=
  runWord S (atomicWord 6 d a b z) s

/-- Atomically writes data when old equals g_d; g_d receives old (R169, R170). -/
def execAmoCas (S : Bool) (d a b : BitVec 5) (z : BitVec 1) (s : State) : Host.Outcome State Fault Refusal :=
  runWord S (atomicWord 7 d a b z) s

/-- Earlier RSENDs and stream DRAINs of the core have placed their last beat (R186, ring scope). -/
def Core.beatsPlaced (c : Core) : Bool :=
  (c.eng.queues.toList.getD 5 []).all (fun k => cmdOp k.word != 1) && c.eng.ringRuns.all (fun r => cmdOp r.cmd.word != 1) &&
    (c.eng.queues.toList.getD 0 []).all (fun k => !(cmdOp k.word == 3 && fmtD (cmdFmt k.word) == 2)) &&
    (match c.eng.array with | some r => !(cmdOp r.cmd.word == 3 && fmtD (cmdFmt r.cmd.word) == 2) | none => true)

/-- What a release waits for before it issues: the replay queue, and at ring scope the beats (R179, R186). [DEDUCED A45, unsafe] -/
def releaseGate (scope : Nat) : Op Unit := do
  let c ← getCore
  if !c.replay.isEmpty || (scope = 6 && !c.beatsPlaced) then stall

/-- Acquire load at a scope (R169, R170, R187); in a window it completes at once (R195). [DEDUCED A45, unsafe] -/
def execLdAcq (S : Bool) (d a : BitVec 5) (z : BitVec 1) (p : BitVec 4) (s : State) : Host.Outcome State Fault Refusal :=
  runWord S (do
    let before ← get
    legal (scopeOk p)
    notBound [d.toNat]
    bindCheck [a.toNat] []
    memoryGate
    let n := 4 * 2 ^ z.toNat
    let r ← readReg a.toNat
    match ← atomicPlace before r n Reg.permR .read with
    | none => pure .hold
    | some q =>
      let c ← getCore
      if c.tw then issueLoad (.load (n == 4)) q n d.toNat 1
      else addOp ⟨0, .loadAcq p.toNat, q.home, n, 0, if d = 0 then none else some d.toNat, q.near, none, none⟩
      pure (.next 1)) s

/-- Release store at a scope (R169, R179, R187); in a window it is an own-slice store like any other (R195). -/
def execStRel (S : Bool) (a b : BitVec 5) (z : BitVec 1) (p : BitVec 4) (s : State) : Host.Outcome State Fault Refusal :=
  runWord S (do
    let before ← get
    legal (scopeOk p)
    bindCheck [a.toNat, b.toNat] []
    memoryGate
    let n := 4 * 2 ^ z.toNat
    let r ← readReg a.toNat
    let v ← readWord b.toNat
    match ← atomicPlace before r n Reg.permW .write with
    | none => pure .hold
    | some q =>
      let c ← getCore
      if c.tw then issueStore .store q n v.toNat
      else
        releaseGate p.toNat
        issueStore (.storeRel p.toNat) q n v.toNat
      pure (.next 1)) s

/-- A fence of R171, which waits for the replay queue where R179 says so: a memory core's quad and cluster scopes are its die's
(R186). In a window it completes in one cycle and orders nothing more (R195). -/
def fenceWord (kind scope : Nat) : Op Flow := do
  legal (if kind = 0 then scope == 0 else decide (1 ≤ scope ∧ scope ≤ 6))
  let s ← get
  let c ← getCore
  if !c.tw then
    if kind = 2 || decide (scope ≥ 4) || (isMemCore s.cur && decide (scope ≥ 2)) then releaseGate (if kind ≥ 2 then scope else 0)
    addOp ⟨0, .fence kind scope, 0, 0, 0, none, false, none, none⟩
  pure (.next 1)

/-- Earlier near stores before later loads (R171). -/
def execFenceSl (S : Bool) (s : State) : Host.Outcome State Fault Refusal := runWord S (fenceWord 0 0) s
/-- Earlier loads before later accesses in scope (R171). -/
def execFenceAcq (S : Bool) (p : BitVec 4) (s : State) : Host.Outcome State Fault Refusal := runWord S (fenceWord 1 p.toNat) s
/-- Earlier accesses in scope before later stores (R171). -/
def execFenceRel (S : Bool) (p : BitVec 4) (s : State) : Host.Outcome State Fault Refusal := runWord S (fenceWord 2 p.toNat) s
/-- Earlier accesses in scope before every later access (R171). -/
def execFenceFull (S : Bool) (p : BitVec 4) (s : State) : Host.Outcome State Fault Refusal := runWord S (fenceWord 3 p.toNat) s

/-! ## Streams -/

/-- Bind generator n to g_d with capability g_a and descriptor g_b (R172). -/
def execSbind (S : Bool) (d a b : BitVec 5) (n : BitVec 2) (r : BitVec 1) (z : BitVec 2) (s : State) : Host.Outcome State Fault Refusal :=
  runWord S (do
    let c ← getCore
    legal (!c.system && decide (24 ≤ d.toNat))
    legal (match c.genOf d.toNat with | some m => m == n.toNat | none => true)
    bindCheck [a.toNat, b.toNat] []
    let v ← readReg a.toNat
    let w ← readWord b.toNat
    if !v.tag then raise causeCapTag v.w0
    if !(if r = 0 then v.permR else v.permW) then raise causeCapPerm (valOf v.cursor)
    let size := 2 ^ z.toNat
    if v.cursor % size ≠ 0 then raise causeAlign (valOf v.cursor)
    if bitsAt w 0 32 % size ≠ 0 then raise causeAlign (BitVec.ofNat 64 (bitsAt w 0 32))
    let byte := c.streamByte n.toNat
    if byte / 128 == 1 then appendGate (byte % 8 + 24)
    modCore (fun c =>
      let c := c.setStreamByte n.toNat (128 + r.toNat * 64 + z.toNat * 16 + (d.toNat - 24))
      { c with gen := c.gen.setIfInBounds n.toNat v
               sys := { c.sys with stream := c.sys.stream.setIfInBounds n.toNat w } })
    pure (.next 1)) s

/-- Release generator n and return its capability (R173). [DEDUCED A42, unsafe] -/
def execSunbind (S : Bool) (d : BitVec 5) (n : BitVec 2) (s : State) : Host.Outcome State Fault Refusal :=
  runWord S (do
    let c ← getCore
    legal (!c.system && decide (24 ≤ d.toNat))
    let byte := c.streamByte n.toNat
    let bound := byte / 128 == 1
    legal (!bound || byte % 8 + 24 == d.toNat)
    if bound then appendGate d.toNat
    let t ← nowOp
    modCore (fun c =>
      let cap := c.gen.toList.getD n.toNat Reg.zero
      let c := c.setStreamByte n.toNat 0
      let c := { c with sys := { c.sys with stream := c.sys.stream.setIfInBounds n.toNat 0 } }
      if bound then c.setRegAt d.toNat cap (t + 1) else c)
    pure (.next 1)) s

/-! ## Basin banks -/

/-- Who the current level is (R109). -/
def Core.holder (c : Core) : Holder := if c.system then .system else .program

/-- The cells of a bank set to zero. -/
def zeroBank (cells : List (Nat × BitVec 32)) (h : Nat) : List (Nat × BitVec 32) := cells.filter (fun p => p.1 / 512 != h)

/-- The lowest free bank, or all ones (R174). -/
def execBalloc (S : Bool) (d : BitVec 5) (s : State) : Host.Outcome State Fault Refusal :=
  runWord S (do
    computeOnly
    bindCheck [] [d.toNat]
    let c ← getCore
    let t ← nowOp
    match (List.range 32).find? (fun h => c.slice.holders.toList.getD h .free == .free) with
    | none => writeWord d.toNat 0xFFFF_FFFF_FFFF_FFFF
    | some h =>
      modCore (fun c => { c with
        sys := { c.sys with mstat := setOvf c.sys.mstat h false }
        slice := { c.slice with
          holders := c.slice.holders.setIfInBounds h c.holder
          zeroed := c.slice.zeroed.setIfInBounds h (t + 16)
          basin := zeroBank c.slice.basin h } })
      writeWord d.toNat (BitVec.ofNat 64 h)
    pure (.next 1)) s

/-- BANK_ZEROING_END (R174): from 16 cycles after its `balloc` a bank counts as zeroed. -/
def execBankZeroingEnd (c h : Nat) (s : State) : Host.Outcome State Fault Refusal :=
  if c ≥ Config.computeCores ∨ h ≥ 32 then .fault .noSuchUnit else
  let x := s.core (.comp c)
  let z := x.slice.zeroed.toList.getD h 0
  if z ≠ 0 ∧ z ≤ s.now (.comp c) then
    .next (s.modCore (.comp c) (fun x => { x with slice := { x.slice with zeroed := x.slice.zeroed.setIfInBounds h 0 } }))
  else .next s

/-- Does a matrix command name a bank (R221, R231). -/
def namesBank (w : BitVec 256) (h : Nat) : Bool :=
  let op := cmdOp w
  if op = 4 then cmdBank w == h else
  let n := spanBanks (cmdM w) (cmdN w)
  let fold := bitsAt (wordAt w 7) 16 5
  decide (cmdBank w ≤ h ∧ h < cmdBank w + n) ||
    (op == 3 && fmtD (cmdFmt w) == 1 && decide (fold ≤ h ∧ h < fold + n))

/-- Does a command of core k name a bank; a following part of a deep join names none (R239). -/
def Cmd.names (x : Cmd) (k h : Nat) : Bool := !(x.joint == some false && k % 4 != 0) && namesBank x.word h

/-- A command of core k that names a bank is queued or runs. -/
def Core.bankBusy (c : Core) (k h : Nat) : Bool :=
  (c.eng.queues.toList.getD 0 []).any (fun x => x.names k h) ||
    (match c.eng.array with | some r => r.cmd.names k h | none => false)

/-- Release a bank once no command names it (R175). -/
def execBfree (S : Bool) (a : BitVec 5) (s : State) : Host.Outcome State Fault Refusal :=
  runWord S (do
    computeOnly
    bindCheck [a.toNat] []
    let v ← readWord a.toNat
    let c ← getCore
    legal (decide (v.toNat < 32) && c.slice.holders.toList.getD v.toNat .free == c.holder)
    let s ← get
    if c.bankBusy (coreIndex s.cur) v.toNat then stall
    modCore (fun c => { c with slice := { c.slice with holders := c.slice.holders.setIfInBounds v.toNat .free } })
    pure (.next 1)) s

/-! ## External memory (R176-R179) -/

/-- The external address of `dld` and `dst`, checked in the order of R165 (R176). -/
def externalPlace (b : BitVec 5) (o : BitVec 14) (isStore : Bool) : Op Place := do
  let r ← readReg b.toNat
  let off := o.toInt * 8
  let p ← checkAddress r off 8 (if isStore then Reg.permW else Reg.permR) (if isStore then .plain else .no) true
  if !p.external then raise causeCapBound (valOf ((r.cursor : Int) + off))
  if p.resolved % 8 ≠ 0 then raise causeAlign (valOf p.resolved)
  checkSluice p 8 isStore (valOf p.resolved)
  pure p

/-- 8 bytes from external memory, translated before the next word issues (R176, R179). -/
def execDld (S : Bool) (d b : BitVec 5) (o : BitVec 14) (s : State) : Host.Outcome State Fault Refusal :=
  runWord S (do
    memoryOnly
    let before ← get
    notBound [d.toNat]
    bindCheck [b.toNat] []
    memoryGate
    let p ← externalPlace b o false
    pageGate p.resolved
    outstandingGate
    match (← translateScalar p.resolved 8 .read) with
    | none =>
      awaitWalk before p.resolved .read
      pure .hold
    | some h =>
      addOp ⟨0, .load false, h, 8, 0, if d = 0 then none else some d.toNat, false, none, none⟩
      pure (.next 1)) s

/-- 8 bytes to external memory: direct on a TLB hit with D set, else through the replay queue (R176, R178). -/
def execDst (S : Bool) (d b : BitVec 5) (o : BitVec 14) (s : State) : Host.Outcome State Fault Refusal :=
  runWord S (do
    memoryOnly
    bindCheck [d.toNat, b.toNat] []
    memoryGate
    let v ← readWord d.toNat
    let p ← externalPlace b o true
    let s ← get
    let c ← getCore
    let va := p.resolved
    let direct := !c.replay.any (fun e => e.va / 4096 == va / 4096)
    match (if direct then tlbHit c.tlb c.context va .write else none) with
    | some e =>
      if s.mappable (e.pa va) 8 then
        outstandingGate
        noteThrough va e
        addOp ⟨0, .direct, s.physHome (e.pa va), 8, v.toNat, none, false, none, none⟩
      else
        if c.replay.length ≥ 16 then stall
        modCore (fun c => { c with replay := c.replay ++ [⟨va, v, false, false⟩] })
    | none =>
      if c.replay.length ≥ 16 then stall
      modCore (fun c => { c with replay := c.replay ++ [⟨va, v, false, false⟩] })
    pure (.next 1)) s

/-- Wait for every earlier `dld` and `dst` (R177, R179). -/
def execDfence (S : Bool) (s : State) : Host.Outcome State Fault Refusal :=
  runWord S (do
    memoryOnly
    let c ← getCore
    if !c.replay.isEmpty || c.ops.any (fun o => o.kind == .direct || (o.kind == .load false && homeDie o.home == 16)) then stall
    pure (.next 1)) s

end Sys2Proof.Machine
end

