-- ==== Sys2Proof/Machine/Queue.lean ====
section
/-! DEFINITION. Command composition (R201-R203), the checks and effect of `push` and `gissue` (R41, R204, R219-R222, R237-R239,
R276-R289, R304), the command ring (R315), `qsave` and `qload` (R112). -/

namespace Sys2Proof.Machine
open Sys2Proof

/-! ## Composing commands -/

/-- Clear k_N (R201). -/
def execKclr (S : Bool) (k : BitVec 3) (s : State) : Host.Outcome State Fault Refusal :=
  runWord S (do
    modCore (fun c => { c with k := c.k.setIfInBounds k.toNat 0 })
    pure (.next 1)) s

/-- The bit range of k_N that a field code names (R42). -/
def fieldRange (f : BitVec 6) : Nat × Nat :=
  let word := f.toNat / 8
  let (lo, len) : Nat × Nat := if word = 0 then
      match f.toNat % 8 with
      | 0 => (0, 32) | 1 => (0, 4) | 2 => (4, 8) | 3 => (12, 1) | 4 => (13, 1) | 5 => (14, 8) | _ => (22, 10)
    else
      match f.toNat % 8 with
      | 0 => (0, 32) | 1 => (0, 16) | 2 => (16, 16) | 3 => (0, 8) | 4 => (8, 8) | 5 => (16, 8) | _ => (24, 8)
  (32 * word + lo, len)

/-- Write g_a + sext(imm10) into a part (R42, R202). -/
def execKset (S : Bool) (k : BitVec 3) (a : BitVec 5) (f : BitVec 6) (i : BitVec 10) (s : State) : Host.Outcome State Fault Refusal :=
  runWord S (do
    legal (decide (f.toNat % 8 ≠ 7))
    bindCheck [a.toNat] []
    let v ← readWord a.toNat
    let (lo, len) := fieldRange f
    let x := (v + sextW i).toNat % 2 ^ len
    modCore (fun c => { c with k := c.k.setIfInBounds k.toNat (setBits (c.k.toList.getD k.toNat 0) lo len x) })
    pure (.next 1)) s

/-- Write a slot into W2-W7 (R39, R203). -/
def execKcap (S : Bool) (k : BitVec 3) (a : BitVec 5) (w : BitVec 3) (i : BitVec 10) (s : State) : Host.Outcome State Fault Refusal :=
  runWord S (do
    legal (decide (2 ≤ w.toNat))
    let off := unsignedOf 27 (64 * i.toInt)
    modCore (fun c => { c with
      k := c.k.setIfInBounds k.toNat (setBits (c.k.toList.getD k.toNat 0) (32 * w.toNat) 32 (a.toNat * 2 ^ 27 + off)) })
    pure (.next 1)) s

/-! ## The checks of a command -/

/-- A slot of a command as `push` checks it: word, permission, extent, alignment, whether it is a destination, runs to its
capability's top (R276), may be external, must lie in the own slice, may name no operand, is a barrier, and whether its write
is a grant write when it carries G (1) or must carry G (2) (R132). -/
structure SlotSpec where
  n : Nat
  perm : Reg → Bool
  extent : Nat
  align : Nat
  dst : Bool := false
  isOpen : Bool := false
  ext : Bool := false
  own : Bool := false
  optional : Bool := false
  barrier : Bool := false
  grant : Nat := 0

/-- The role of a core in a joint operation: wide, and the leading core (R238, R239). -/
abbrev Role := Option (Bool × Bool)

/-- The barrier slot W7 (R330). -/
def barrierSpec : SlotSpec := { n := 7, perm := permRW, extent := 8, align := 8, optional := true, barrier := true }

/-- The slots of an op in the order W2, W3, W4, W7 (R40, R220, R276-R289, R304); `w` carries FMT for engine 0. [DEDUCED A19, unsafe]
[DEDUCED A43, unsafe] -/
def slotSpecs (w : BitVec 256) (isMem : Bool) (role : Role) : List SlotSpec :=
  let M := cmdM w
  let K := cmdK w
  let N := cmdN w
  let f := cmdFmt w
  let W5 := cmdW5 w
  let W6 := cmdW6 w
  let joint := role.isSome
  let follows := match role with | some (wide, lead) => wide && !lead | none => false
  match cmdEngine w, cmdOp w with
  | 0, 1 | 0, 2 =>
    (if follows then [] else [{ n := 2, perm := Reg.permR, extent := M * rowBytes K, align := 64, own := joint }]) ++
    [if cmdOp w = 1 then { n := 3, perm := Reg.permR, extent := N * tileBytes K, align := 64, own := true }
     else { n := 3, perm := Reg.permR, extent := 16, align := 16, own := true }] ++
    (if fmtA f = 1 && !follows then [{ n := 7, perm := Reg.permR, extent := M * scaleRow K, align := 4, own := joint }] else [])
  | 0, 3 =>
    [{ n := 2, perm := Reg.permR, extent := 2 * N, align := 2, optional := true },
     (if fmtA f = 0 then { n := 3, perm := Reg.permR, extent := 4 * M, align := 4, optional := true }
      else { n := 3, perm := Reg.permR, extent := M, align := 1 })] ++
    (if fmtD f = 0 then
      [{ n := 4, perm := Reg.permW, align := 64, dst := true,
         extent := M * outRow N (outSize (fmtO f)) + (if fmtO f = 1 then M * scaleRow N else 0) }] else [])
  | 1, 1 => [{ n := 2, perm := Reg.permR, extent := 2 * N * seedRow K, align := 64, own := true },
      { n := 4, perm := Reg.permW, extent := 16, align := 16, dst := true }]
  | 1, 2 => [{ n := 2, perm := permRW, extent := 2 * N * seedRow K, align := 64, own := true, dst := true }]
  | 2, 1 => [{ n := 2, perm := Reg.permR, extent := W5, align := 1, ext := isMem },
      { n := 4, perm := Reg.permW, extent := W5, align := 1, dst := true, ext := isMem, grant := 1 }, barrierSpec]
  | 2, 2 => [{ n := 2, perm := Reg.permR, extent := 64, align := 64, ext := isMem },
      { n := 3, perm := Reg.permR, extent := 0, align := 1, isOpen := true, ext := isMem },
      { n := 4, perm := Reg.permW, extent := 0, align := 1, isOpen := true, dst := true, ext := isMem, grant := 1 }, barrierSpec]
  | 2, 3 => [{ n := 2, perm := Reg.permR, extent := 64, align := 64, ext := isMem },
      { n := 3, perm := Reg.permR, extent := 0, align := 1, isOpen := true, ext := isMem },
      { n := 4, perm := Reg.permW, extent := 0, align := 1, isOpen := true, dst := true, ext := isMem, grant := 2 }, barrierSpec]
  | 2, _ => [{ n := 4, perm := Reg.permW, extent := W5, align := 1, dst := true, ext := isMem }, barrierSpec]
  | 3, 1 => [{ n := 2, perm := Reg.permR, extent := (if bitAt w 23 then 8 else 4) * (W5 % 2 ^ 16), align := 4, ext := true },
      { n := 3, perm := Reg.permR, extent := W6 % 2 ^ 24 * (W5 / 2 ^ 16), align := 1, ext := true },
      { n := 4, perm := Reg.permW, extent := (if bitAt w 23 then 0 else W5 % 2 ^ 16 * (W5 / 2 ^ 16)), align := 1, dst := true,
        isOpen := bitAt w 23 }, barrierSpec]
  | 3, 2 | 3, 3 => [{ n := 2, perm := Reg.permR, extent := 4 * (W5 % 2 ^ 16), align := 4, ext := true },
      { n := 3, perm := Reg.permR, extent := W5 % 2 ^ 16 * (W5 / 2 ^ 16), align := 1, ext := true },
      { n := 4, perm := if cmdOp w = 2 then Reg.permW else permRW, extent := W6 % 2 ^ 24 * (W5 / 2 ^ 16), align := 1, dst := true,
        ext := cmdOp w == 2 }, barrierSpec]
  | 3, _ => [{ n := 2, perm := Reg.permR, extent := 4 * W5, align := 4, ext := true },
      { n := 3, perm := Reg.permR, extent := 0, align := 1, isOpen := true, ext := true },
      { n := 4, perm := Reg.permW, extent := 0, align := 1, isOpen := true, dst := true }, barrierSpec]
  | 4, _ => [{ n := 2, perm := Reg.permR, extent := (W6 % 32 - 1) * (64 * ceilDiv (4 * W5) 64) + 4 * W5, align := 1 },
      { n := 4, perm := Reg.permW, extent := 4 * W5, align := 1, dst := true }, barrierSpec]
  | 5, 1 => [{ n := 2, perm := Reg.permR, extent := W5, align := 64 }]
  | 5, _ => [{ n := 4, perm := Reg.permW, extent := W5, align := 64, dst := true }]
  | _, _ => []

/-- An admitted stream names this core as its end, in the context (R303, R304). -/
def State.streamOk (s : State) (c : CoreId) (n : Nat) (sender : Bool) : Bool :=
  match c, mapGet s.streams n with
  | .comp k, some t =>
    let e := t.entry
    e.context == (s.core c).context &&
      (if sender then e.senderModule == s.module.number && e.senderCore == k
       else e.receiverModule == s.module.number && e.receiverCore == k)
  | _, _ => false

/-- Every bank of a span is held by the current level (R109, R221). -/
def Core.spanHeld (c : Core) (h n : Nat) : Bool :=
  decide (h + n ≤ 32) && (List.range n).all (fun i => c.slice.holders.toList.getD (h + i) .free == c.holder)

/-- Step 1 of R41: the fields, counts, banks and streams of a command; `w` carries FMT for engine 0. The ISSUE for a bank that the core
does not hold (R221) and for a stream that is not admitted (R304) stands here, before the faults of the slots. [DEDUCED A18, unsafe]
[DEDUCED A19, unsafe] [DEDUCED A22, unsafe] [DEDUCED A65, unsafe] [DEDUCED A81, unsafe] -/
def commandOk (s : State) (c : CoreId) (w : BitVec 256) (role : Role) : Bool :=
  let x := s.core c
  let z (ns : List Nat) : Bool := ns.all (fun n => wordAt w n == 0)
  let M := cmdM w
  let K := cmdK w
  let N := cmdN w
  let f := cmdFmt w
  let W5 := cmdW5 w
  let W6 := cmdW6 w
  let fl := cmdFlags w
  let eng := cmdEngine w
  let isMem := isMemCore c
  let shape := decide (W6 / 2 ^ 21 = 0 ∧ bitsAt w 202 6 = 0)
  let common := (cmdE w || cmdEvent w == 0) &&
    (if cmdT w then cmdStart w != 0xFFFF_FFFF else cmdStart w == 0 || cmdStart w == 0xFFFF_FFFF) && (!isMem || eng == 2)
  let fit := decide (1 ≤ N ∧ N ≤ 128 ∧ M * N ≤ 16384)
  common && match eng, cmdOp w with
  | 0, 1 | 0, 2 =>
    let lead := match role with | some (false, l) => l | _ => true
    let follows := match role with | some (wide, l) => wide && !l | none => false
    shape && fit && decide (1 ≤ K ∧ M ≤ 4096) && z [4] && (fmtA f == 1 || z [7]) && (!follows || z [2, 7]) &&
      (if lead then x.spanHeld (cmdBank w) (spanBanks M N) else cmdBank w == 0)
  | 0, 3 =>
    let n := spanBanks M N
    let fold := bitsAt (wordAt w 7) 16 5
    shape && fit && bitsAt (wordAt w 5) 16 16 == 0 && !cmdAcc w && bitsAt (wordAt w 7) 21 11 == 0 &&
      x.spanHeld (cmdBank w) n &&
      (match fmtD f with
       | 0 => z [7]
       | 1 => z [4] && bitsAt (wordAt w 7) 0 16 == 0 && x.spanHeld fold n &&
           decide (fold + n ≤ cmdBank w ∨ cmdBank w + n ≤ fold)
       | _ => z [4] && fold == 0 && s.streamOk c (bitsAt (wordAt w 7) 0 16) true)
  | 0, 4 => z [2, 3, 4, 5, 7] && !cmdAcc w && W6 == cmdBank w * 2 ^ 16 && x.spanHeld (cmdBank w) 1
  | 1, 1 => fl == 0 && z [3] && bitsAt w 202 2 == 0 && W5 % 2 ^ 16 == 0 && decide (1 ≤ K ∧ 1 ≤ N ∧ N * seedRow K ≤ 0x8_0000)
  | 1, 2 => fl == 0 && z [3, 4] && bitsAt w 202 6 == 0 && W6 / 2 ^ 24 == 0 && bitsAt w 212 3 == 0 && W5 % 2 ^ 16 == 0 &&
      decide (1 ≤ K ∧ 1 ≤ N ∧ N * seedRow K ≤ 0x8_0000)
  | 2, 1 => fl == 0 && z [3, 6] && decide (1 ≤ W5)
  | 2, 2 => fl == 0 && z [5] && decide (W6 < 8)
  | 2, 3 => fl == 0 && z [5, 6] && isMem
  | 2, 4 => fl == 0 && z [2, 3]
  | 3, 1 => fl / 4 == 0 && decide (1 ≤ W5 % 2 ^ 16 ∧ 1 ≤ W5 / 2 ^ 16) && (!bitAt w 22 || W5 / 2 ^ 16 % 256 == 0)
  | 3, 2 => fl == 0 && decide (1 ≤ W5 % 2 ^ 16 ∧ 1 ≤ W5 / 2 ^ 16) && W6 / 2 ^ 24 == 0
  | 3, 3 => (fl == 0 || fl == 4) && decide (1 ≤ W5 % 2 ^ 16 ∧ 1 ≤ W5 / 2 ^ 16 ∧ W5 / 2 ^ 16 % 4 = 0) && W6 / 2 ^ 24 == 0
  | 3, 4 => fl == 0 && W5 / 2 ^ 16 == 0 && z [6]
  | 4, 1 => fl / 2 == 0 && z [3] && decide (1 ≤ W6 ∧ W6 ≤ 16)
  | 5, 1 => fl == 0 && z [3, 4, 7] && decide (1 ≤ W5 ∧ W5 % 64 = 0) && W6 / 2 ^ 16 == 0 && s.streamOk c W6 true
  | 5, 2 => fl == 0 && z [2, 3, 7] && decide (1 ≤ W5 ∧ W5 % 64 = 0) && W6 / 2 ^ 16 == 0 && s.streamOk c W6 false
  | _, _ => false

/-- A range that a checked slot names: its place, extent and kind. -/
structure Range where
  place : Place
  len : Nat
  dst : Bool
  isOpen : Bool
  barrier : Bool
  own : Bool

/-- Step 2 of R41 for one slot: R56, R129, then the alignment (R39, R220); the result is the range, or the trap. [DEDUCED A22, unsafe] -/
def checkSlot (s : State) (c : CoreId) (w : BitVec 256) (r : Reg) (sp : SlotSpec) : Except (Nat × Int) (Option Range) :=
  let a : Int := (r.cursor : Int) + slotOff w sp.n
  if slotReg w sp.n = 0 then (if sp.optional then .ok none else .error (causeCapTag, slotOff w sp.n)) else
  let len := if sp.isOpen then (if a < r.top then (r.top - a).toNat else 1) else sp.extent
  match checkCap c r (slotOff w sp.n) len sp.perm with
  | .error e => .error (e, a)
  | .ok _ =>
    if sp.grant = 2 ∧ !r.permG then .error (causeCapPerm, a) else
    let wr : Writing := if !sp.dst && !sp.barrier then .no else if sp.grant ≥ 1 ∧ r.permG then .grant else .plain
    if len = 0 then .ok none else
    match s.resolve c (s.core c).system a len wr sp.ext with
    | .error e => .error (e, a)
    | .ok p => if a.toNat % sp.align ≠ 0 then .error (causeAlign, a)
      else .ok (some ⟨p, len, sp.dst, sp.isOpen, sp.barrier, sp.own⟩)

/-- The bounding rectangle of a gang's compute cores on the die: columns and rows (R11, R298). -/
def Gang.inRectangle (g : Gang) (k : Nat) : Bool :=
  let xs := g.compute.map coreX
  let ys := g.compute.map coreY
  let lo (l : List Nat) := l.foldl min 16
  let hi (l : List Nat) := l.foldl max 0
  k / 128 == g.die && decide (lo xs ≤ coreX k ∧ coreX k ≤ hi xs ∧ lo ys ≤ coreY k ∧ coreY k ≤ hi ys)

/-- The slice a home address lies in. -/
def sliceOf (h : Nat) : Option Nat :=
  if Config.sramHome ≤ h ∧ h < Config.sramHome + Config.sramClusters then some ((h - Config.sramHome) / Config.sliceSize) else none

/-- A range lies in a slice of the gang's rectangle (R15). -/
def State.inGangSlices (s : State) (c : CoreId) (p : Place) : Bool :=
  match s.gangOf c, sliceOf p.home with
  | some g, some k => g.inRectangle k
  | _, _ => false

/-- Step 3 of R41: the timed-domain rules (R14-R16, R204, R220, R231, R276, R278) and the places a slot must lie in. [DEDUCED A43, unsafe] -/
def timedOk (s : State) (c : CoreId) (w : BitVec 256) (rs : List Range) : Bool :=
  let x := s.core c
  let eng := cmdEngine w
  let lens := rs.filter (fun r => !r.barrier)
  let W5 := cmdW5 w
  (lens.all (fun r => !r.own || r.place.own)) &&
  (if cmdT w then
    x.tw && decide (eng ≤ 2) && !isMemCore c && decide (cmdStart w ≥ x.eng.lastStart.toList.getD eng 0) &&
      (if eng = 2 then
        (cmdOp w == 1 || cmdOp w == 4) && W5 % 64 == 0 &&
          lens.all (fun r => r.place.home % 64 == 0) && rs.all (fun r => s.inGangSlices c r.place)
       else lens.all (fun r => r.place.own) && !(eng == 0 && cmdOp w == 3 && fmtD (cmdFmt w) == 2))
   else !(x.tw && decide (eng ≤ 2)))

/-- What R277 and R289 ask of two resolved ranges: no overlap of source and destination (a MERGE destination may equal copy
0), and whole lines into weight frames (R277). -/
def pairOk (s : State) (c : CoreId) (w : BitVec 256) (rs : List Range) : Bool :=
  let src := rs.find? (fun r => !r.dst && !r.barrier)
  let dst := rs.find? (fun r => r.dst)
  match cmdEngine w, cmdOp w, src, dst with
  | 2, 1, some a, some d =>
    let clash := a.place.loc == d.place.loc && decide (a.place.resolved < d.place.resolved + d.len ∧ d.place.resolved < a.place.resolved + a.len)
    let inFrame := match sliceOf d.place.home with
      | some k => !d.place.external && s.inWeights (dieOf c) k ((d.place.home - Config.sramHome) % Config.sliceSize) d.len
      | none => false
    !clash && (!inFrame || (d.place.resolved % 64 == 0 && d.len % 64 == 0))
  | 4, _, some a, some d =>
    let clash := decide (a.place.resolved < d.place.resolved + d.len ∧ d.place.resolved < a.place.resolved + a.len)
    let stride := 64 * ceilDiv (4 * cmdW5 w) 64
    !clash || (a.place.resolved == d.place.resolved && (decide (d.len ≤ stride) || cmdW6 w == 1))
  | _, _, _, _ => true

/-- Check every slot in order (R41 step 2): each reads its register as any operand is read, the stream-bound one with a pop (R39, R61,
R62), and what a slot's register held is kept by its index (R110). -/
def readSlots (w : BitVec 256) : List SlotSpec → Op (List Range × List (Nat × Reg))
  | [] => pure ([], [])
  | sp :: r => do
    let v ← readReg (slotReg w sp.n)
    let s ← get
    match checkSlot s s.cur w v sp with
    | .error (e, a) => raise e (valOf a)
    | .ok o => do
      let (rs, vs) ← readSlots w r
      pure (o.toList ++ rs, (slotIndex sp.n, v) :: vs)

/-- Do the n bytes at an external address touch a range. -/
def Range.meets (r : Range) (va n : Nat) : Bool := decide (va < r.place.resolved + r.len ∧ r.place.resolved < va + n)

/-- Does a pending access of the core hold the command back (R190): one that touches a range, at its home or at its external address. -/
def rangeBusy (c : Core) (rs : List Range) : Bool :=
  rs.any (fun r => !r.barrier && (c.ops.any (fun o =>
    !o.performed && !o.kind.isFence &&
    (if r.place.external then c.through.any (fun p => p.1 == o.id && r.meets p.2.1 o.size)
     else decide (o.home < r.place.home + r.len ∧ r.place.home < o.home + o.size)) &&
    (o.kind.isStore || o.kind == .deposit || (match o.kind with | .vector st => st || r.dst | _ => r.dst))) ||
    (r.place.external && c.replay.any (fun e => r.meets e.va 8))))

/-- The Sluice entries a command registers (R190, R312, R313). -/
def sluiceOf (rs : List Range) (q : BitVec 32) : List SluiceEntry :=
  (rs.filter (fun r => !r.barrier)).map (fun r => ⟨r.place.loc, r.place.resolved, r.place.resolved + r.len, r.dst, r.isOpen, q⟩)

/-- Record a command in the ring (R315); the number from which the gang's own count moves on after it, so that it stays comparable.
[DEDUCED A30, unsafe] [DEDUCED A37, unsafe] -/
def Engines.record (e : Engines) (q : BitVec 32) (w : BitVec 256) (origin status : Nat) : Engines :=
  { e with ring := mapSet e.ring (q.toNat % 64) ⟨w, origin, status, q⟩
           ringBase := if (q - e.ringBase).toNat ≥ 2 ^ 30 then q - 2 ^ 30 else e.ringBase }
/-- Change the status of a sequence number's entry, when the ring still holds it (R315). -/
def Engines.mark (e : Engines) (q : BitVec 32) (status : Nat) : Engines :=
  match mapGet e.ring (q.toNat % 64) with
  | some r => if r.seq = q then { e with ring := mapSet e.ring (q.toNat % 64) { r with status := status } } else e
  | none => e
/-- Replace a queue. -/
def Engines.setQueue (e : Engines) (n : Nat) (l : List Cmd) : Engines := { e with queues := e.queues.setIfInBounds n l }
/-- A queue. -/
def Engines.queue (e : Engines) (n : Nat) : List Cmd := e.queues.toList.getD n []

/-- The command as it is queued: FMT carried for engine 0, W1 all ones when untimed (R204, R219). -/
def queuedWord (c : Core) (w : BitVec 256) : BitVec 256 :=
  let w := if cmdEngine w = 0 then setBits w 23 9 (bitsAt c.sys.fmt 0 9) else w
  if cmdT w then w else setBits w 32 32 0xFFFF_FFFF

/-- Raise ISSUE with W0 of the command as composed (R104). -/
def issueFault {α : Type} (w : BitVec 256) : Op α := raise causeIssue ((wordAt w 0).setWidth 64)

/-- Check, wait and enter a command (R41, R190, R204, R237): its sequence number. -/
def enterCommand (k : BitVec 3) (joint : Option Bool) (role : Role) : Op (BitVec 32) := do
  let s ← get
  let c ← getCore
  if c.isHeld && c.system && !c.eng.saved then raise causeQheld 0
  let raw := c.k.toList.getD k.toNat 0
  let w := queuedWord c raw
  let specs := slotSpecs w (isMemCore s.cur) role
  bindCheck (specs.map (fun sp => slotReg w sp.n)) []
  if cmdEngine raw = 0 ∧ bitsAt raw 23 9 ≠ 0 then issueFault raw
  if cmdEngine raw > 5 then issueFault raw
  let eng := cmdEngine raw
  if !commandOk s s.cur (setWordAt w 1 (wordAt raw 1)) role then issueFault raw
  let (rs, held) ← readSlots w specs
  if !timedOk s s.cur w rs || !pairOk s s.cur w rs then issueFault raw
  memoryGate
  let c ← getCore
  if rangeBusy c rs then stall
  if (c.eng.queue eng).length ≥ queueDepth eng then stall
  let q := c.eng.seq
  let entries := sluiceOf rs q
  if c.eng.sluice.length + entries.length > 16 then stall
  let t ← nowOp
  let cmd : Cmd := ⟨w, q, t + 1, Vector.ofFn (fun i : Fin 4 => (mapGet held i.val).getD Reg.zero), c.system, joint, 0⟩
  modCore (fun c => { c with eng :=
    let e := c.eng.setQueue eng (c.eng.queue eng ++ [cmd])
    { e.record q w (if joint.isSome then 1 else 0) 0 with
      sluice := e.sluice ++ entries, seq := q + 1
      lastStart := if cmdT w then e.lastStart.setIfInBounds eng (cmdStart w) else e.lastStart } })
  pure q

/-- Hand the command in k_N to its queue; g_a receives its number (R204). -/
def execPush (S : Bool) (k : BitVec 3) (a : BitVec 5) (s : State) : Host.Outcome State Fault Refusal :=
  runWord S (do
    bindCheck [] [a.toNat]
    let q ← enterCommand k none none
    writeWord a.toNat (q.setWidth 64)
    pure (.next 1)) s

/-- One part of a joint operation of the quad (R234, R237-R239); with HELD it raises QHELD at system level, whether `qsave` has executed or
not (R237). -/
def gissueWord (wide : Bool) (k : BitVec 3) : Op Flow := do
  computeOnly
  let s ← get
  let c ← getCore
  if c.isHeld && c.system then raise causeQheld 0
  let raw := c.k.toList.getD k.toNat 0
  let n := coreIndex s.cur
  if cmdEngine raw ≠ 0 ∨ (cmdOp raw ≠ 1 ∧ cmdOp raw ≠ 2) then issueFault raw
  if (List.range 4).any (fun j => fencedBits (s.core (.comp (4 * (n / 4) + j))).sys.mstat != 0) then issueFault raw
  let _ ← enterCommand k (some wide) (some (wide, n % 4 == 0))
  pure (.next 1)

/-- Wide join (R237, R238). -/
def execGissueWide (S : Bool) (k : BitVec 3) (s : State) : Host.Outcome State Fault Refusal := runWord S (gissueWord true k) s
/-- Deep join (R237, R239). -/
def execGissueDeep (S : Bool) (k : BitVec 3) (s : State) : Host.Outcome State Fault Refusal := runWord S (gissueWord false k) s

/-! ## qsave and qload (R110, R112) -/

/-- The queues in the order of the header: ring, copy, Dipper, reduction, seed, matrix (R110). -/
def headerOrder : List Nat := [5, 2, 3, 4, 1, 0]

/-- Every command that an engine has accepted has completed or stopped (R108, R112). -/
def Core.enginesQuiet (c : Core) : Bool :=
  c.eng.array.isNone && c.eng.copyRun.isNone && c.eng.landing.isEmpty && c.eng.dipperRun.isNone && c.eng.reduction.isNone && c.eng.ringRuns.isEmpty

/-- A capability image of a slot (R110). -/
def writeCap (s : State) (a : Nat) (r : Reg) : State :=
  let s := s.writeNum a 16 r.num
  if r.tag then s.setTag a else s

/-- The Basin cells of a bank as 2048 bytes. -/
def bankBytes (c : Core) (h : Nat) : List Byte :=
  (List.range 512).flatMap (fun i => leBytes 4 ((mapGet c.slice.basin (512 * h + i)).getD 0).toNat)

/-- Write the image of the held queues, the command registers and the banks (R110, R112). [DEDUCED A15, unsafe] [DEDUCED A68, unsafe] -/
def saveImage (s : State) (c : CoreId) : State :=
  let x := s.core c
  let base := s.contextHome c
  let s := (List.range 8).foldl (fun s i => s.writeNum (base + 0x400 + 32 * i) 32 (x.k.toList.getD i 0).toNat) s
  let counts := headerOrder.map (fun n => BitVec.ofNat 8 (x.eng.queue n).length)
  let mask := (heldBanks x).foldl (fun m h => m + 2 ^ h) 0
  let header := counts ++ [0, 1] ++ leBytes 4 mask ++ leBytes 2 (if isMemCore c then 0 else x.slice.fmtRecord.toNat) ++
    List.replicate 18 0
  let s := s.write (base + 0x500) header
  let cmds := headerOrder.flatMap (fun n => x.eng.queue n)
  let s := (cmds.zipIdx).foldl (fun s (k, i) =>
    let s := s.writeNum (base + 0x520 + 32 * i) 32 k.word.toNat
    (List.range 4).foldl (fun s j => writeCap s (base + 0x1_2000 + 64 * i + 16 * j) (k.slots.toList.getD j Reg.zero)) s) s
  let s := (heldBanks x).foldl (fun s h => s.write (base + 0x2000 + 0x800 * h) (bankBytes x h)) s
  let s := s.notePieces c ([(base + 0x400, 0x120 + 32 * cmds.length), (base + 0x1_2000, 64 * cmds.length)] ++
    (heldBanks x).map (fun h => (base + 0x2000 + 0x800 * h, 0x800)))
  s.modCore c (fun x => { x with
    slice := { x.slice with holders := x.slice.holders.toList.foldl (fun (acc : Vector Holder 32 × Nat) h =>
      (if h = .program then acc.1.setIfInBounds acc.2 .free else acc.1, acc.2 + 1)) (x.slice.holders, 0) |>.1 }
    eng :=
      let done := (headerOrder.flatMap (fun n => x.eng.queue n)).map (fun k => k.seq)
      let e := done.foldl (fun e q => e.mark q 6) x.eng
      { e with queues := Vector.replicate 6 [], saved := true, refilled := false, savedJoint := (headerOrder.flatMap (fun n => x.eng.queue n)).map (fun k => k.joint),
               savedBase := (headerOrder.flatMap (fun n => x.eng.queue n)).map (fun k => k.base), sluice := e.sluice.filter (fun r => !done.contains r.seq) } })
where
  /-- The banks the interrupted context holds. -/
  heldBanks (x : Core) : List Nat := (List.range 32).filter (fun h => x.slice.holders.toList.getD h .free == .program)

/-- Save the held queues (R112). [DEDUCED A27, unsafe] [DEDUCED A68, unsafe] -/
def execQsave (S : Bool) (s : State) : Host.Outcome State Fault Refusal :=
  runWord S (do
    systemOnly
    let c ← getCore
    legal c.isHeld
    if !c.enginesQuiet then stall
    let s ← get
    set (saveImage s s.cur)
    pure (.next 1)) s

/-- The home of an address that a `push` has checked; the boundary of the private part does not matter to it (R97, R128,
R311, R312). -/
def rawHome (c : CoreId) (a : Nat) : Nat :=
  if a < Config.scratchEnd then
    match c with
    | .comp k => sliceHome k (a % Config.sliceSize)
    | .mem m => scratchpadHome m (a - Config.privateBase)
  else if a < Config.clusterEnd then sramHome (Config.sramClusters + clusterOf c * Config.clusterSize + (a - Config.clusterBase))
  else sramHome (a - Config.sramBase)

/-- Does an address lie in the global external window. -/
def isExternal (a : Nat) : Bool := decide (Config.externalBase ≤ a)

/-- The place of such an address, with its resolved form and LOC as Sluice entries hold them (R312). -/
def rawPlace (c : CoreId) (a : Nat) : Place :=
  if isExternal a then ⟨0, 2, a, false, false, true⟩ else
  let h := rawHome c a
  if isMemCore c && decide (a < Config.scratchEnd) then ⟨h, 1, a, true, true, false⟩
  else ⟨h, 0, Config.sramBase + (h - Config.sramHome), homeDie h == dieOf c, ownSlice h, false⟩
where
  /-- The home lies in the core's own slice. -/
  ownSlice (h : Nat) : Bool := match c with
    | .comp k => decide (sliceHome k 0 ≤ h ∧ h < sliceHome (k + 1) 0)
    | .mem _ => false

/-- The ranges of a restored command, from the capabilities its slots were saved with; no check is made (R112). -/
def restoredRanges (c : CoreId) (k : Cmd) : List Range :=
  (slotSpecs k.word (isMemCore c) (k.joint.map (fun wide => (wide, coreIndex c % 4 == 0)))).filterMap (fun sp =>
    let a := k.addr sp.n
    let len := if sp.isOpen then ((k.slot sp.n).top - a).toNat else sp.extent
    if slotReg k.word sp.n = 0 ∨ len = 0 then none
    else some ⟨rawPlace c a.toNat, len, sp.dst, sp.isOpen, sp.barrier, sp.own⟩)

/-- Restore the image: banks under their handles, the FMT record, the queues with fresh numbers (R112, R244, R315). The image does not
mark a joint part, nor say how many rows a stopped GATHER has written: the core keeps both of the commands it has saved, by their places
(R164, R237, R243, R284). [DEDUCED A15, unsafe] -/
def loadImage (s : State) (c : CoreId) : State :=
  let x := s.core c
  let base := s.contextHome c
  let counts := (List.range 6).map (fun i => s.num (base + 0x500 + i) 1)
  let mask := s.num (base + 0x508) 4
  let banks := (List.range 32).filter (fun h => mask / 2 ^ h % 2 == 1)
  let ks := (List.range 8).map (fun i => BitVec.ofNat 256 (s.num (base + 0x400 + 32 * i) 32))
  let cells := banks.foldl (fun cells h => (List.range 512).foldl (fun cells i =>
    let v := s.num (base + 0x2000 + 0x800 * h + 4 * i) 4
    if v = 0 then cells else mapSet cells (512 * h + i) (BitVec.ofNat 32 v)) (zeroBank cells h)) x.slice.basin
  let t := s.now c
  let readCap (a : Nat) : Reg :=
    let n := s.num a 16
    if s.tagAt a then ⟨true, BitVec.ofNat 64 (n / 2 ^ 64), BitVec.ofNat 64 n⟩ else Reg.ofWord (BitVec.ofNat 64 n)
  let wasJoint (i : Nat) (w : BitVec 256) : Option Bool := if cmdEngine w = 0 then (x.eng.savedJoint.getD i none) else none
  let rows (i : Nat) (w : BitVec 256) : Nat := if cmdEngine w = 3 then x.eng.savedBase.getD i 0 else 0
  let cmds := (headerOrder.zip counts).foldl (fun (acc : List (Nat × Cmd) × Nat) (n, k) =>
    ((List.range k).foldl (fun (acc : List (Nat × Cmd) × Nat) _ =>
      let i := acc.2
      let w := BitVec.ofNat 256 (s.num (base + 0x520 + 32 * i) 32)
      let caps : Vector Reg 4 := Vector.ofFn (fun j : Fin 4 => readCap (base + 0x1_2000 + 64 * i + 16 * j.val))
      (acc.1 ++ [(n, ⟨w, x.eng.seq + BitVec.ofNat 32 i, t, caps, false, wasJoint i w, rows i w⟩)], i + 1)) acc)) ([], 0)
  let eng := cmds.1.foldl (fun (e : Engines) (n, k) =>
    let e := (e.setQueue n (e.queue n ++ [k])).record k.seq k.word 3 0
    { e with sluice := e.sluice ++ sluiceOf (restoredRanges c k) k.seq, seq := k.seq + 1 }) { x.eng with refilled := true }
  let head := eng.queue 0 |>.head?
  let kind := bitsAt x.sys.progress 2 3
  let progress := match head with
    | some k => if kind = 1 ∨ kind = 3 then setBits x.sys.progress 32 32 k.seq.toNat else x.sys.progress
    | none => x.sys.progress
  let s := s.modCore c (fun x => { x with
    k := Vector.ofFn (fun i : Fin 8 => ks.getD i.val 0)
    sys := { x.sys with progress := progress }
    slice := { x.slice with
      basin := cells, fmtRecord := BitVec.ofNat 9 (s.num (base + 0x50C) 2)
      holders := banks.foldl (fun v h => v.setIfInBounds h .program) x.slice.holders }
    eng := eng })
  (s.write (base + 0x507) [0]).notePieces c [(base + 0x507, 1)]

/-- Restore the held queues (R112). [DEDUCED A27, unsafe] [DEDUCED A93, unsafe] -/
def execQload (S : Bool) (s : State) : Host.Outcome State Fault Refusal :=
  runWord S (do
    systemOnly
    let c ← getCore
    legal c.isHeld
    let m := BitVec.ofNat 64 (((List.range 32).filter (fun h => c.slice.holders.toList.getD h .free == .system)).foldl (fun m h => m + 2 ^ h) 0)
    if m ≠ 0 then raise causeBasin m
    if c.eng.saved && !c.eng.refilled && !(c.enginesQuiet && c.eng.queues.toList.all List.isEmpty) then stall
    let s ← get
    if s.num (s.contextHome s.cur + 0x507) 1 = 1 then set (loadImage s s.cur)
    pure (.next 1)) s

end Sys2Proof.Machine
end

