-- ==== Sys2Proof/Machine/Fp32.lean ====
section
/-! DEFINITION. FP32 and BF16 arithmetic (R144-R146), the approximations of R266, MXINT8 quantisation (R152) and E8M10
(R147): exact values rounded once. -/

namespace Sys2Proof.Machine
open Sys2Proof

/-- An FP32 value after the flush of subnormal inputs (R144): `fin neg m e` is ±m × 2^e with m > 0. -/
inductive Fp where
  | nan
  | inf (neg : Bool)
  | zero (neg : Bool)
  | fin (neg : Bool) (m : Nat) (e : Int)
  deriving DecidableEq, Repr

/-- The canonical NaN (R144). -/
def canonicalNan : BitVec 32 := 0x7FC0_0000

/-- Read a pattern (R144). -/
def fpOf (x : BitVec 32) : Fp :=
  let s := bitAt x 31
  let e := bitsAt x 23 8
  let f := bitsAt x 0 23
  if e = 255 then (if f = 0 then .inf s else .nan)
  else if e = 0 then .zero s
  else .fin s (2 ^ 23 + f) ((e : Int) - 150)

/-- m × 2^k to the nearest integer, ties to even. -/
def rneShift (m : Nat) (k : Int) : Nat :=
  if 0 ≤ k then m * 2 ^ k.toNat
  else
    let d := 2 ^ (-k).toNat
    let q := m / d
    let r := m % d
    if 2 * r > d ∨ (2 * r = d ∧ q % 2 = 1) then q + 1 else q

/-- A signed pattern from its low 31 bits. -/
def signed32 (neg : Bool) (mag : Nat) : BitVec 32 := BitVec.ofNat 32 (mag + (if neg then 2 ^ 31 else 0))

/-- Round ±m × 2^e to FP32 once: ties to even, below 2^-126 after rounding to the format gives zero, beyond the largest
finite value gives infinity (R144). [DEDUCED A12, unsafe] -/
def round32 (neg : Bool) (m : Nat) (e : Int) : BitVec 32 :=
  if m = 0 then signed32 neg 0 else
  let top : Int := e + (Nat.log2 m : Nat)
  if top < -126 then
    if rneShift m (e + 149) < 2 ^ 23 then signed32 neg 0 else signed32 neg (2 ^ 23)
  else
    let q := rneShift m (e - (top - 23))
    let mag := (top + 126).toNat * 2 ^ 23 + q
    if mag ≥ 255 * 2 ^ 23 then signed32 neg (255 * 2 ^ 23) else signed32 neg mag

/-- The pattern of a value. [DEDUCED A12, unsafe] -/
def fpBits : Fp → BitVec 32
  | .nan => canonicalNan
  | .inf s => signed32 s (255 * 2 ^ 23)
  | .zero s => signed32 s 0
  | .fin s m e => round32 s m e

/-- The exact product. -/
def fpMulX : Fp → Fp → Fp
  | .nan, _ | _, .nan => .nan
  | .inf _, .zero _ | .zero _, .inf _ => .nan
  | .inf a, .inf b | .inf a, .fin b _ _ | .fin a _ _, .inf b => .inf (a != b)
  | .zero a, .zero b | .zero a, .fin b _ _ | .fin a _ _, .zero b => .zero (a != b)
  | .fin a m e, .fin b n f => .fin (a != b) (m * n) (e + f)

/-- The exact sum. -/
def fpAddX : Fp → Fp → Fp
  | .nan, _ | _, .nan => .nan
  | .inf a, .inf b => if a = b then .inf a else .nan
  | .inf a, _ => .inf a
  | _, .inf b => .inf b
  | .zero a, .zero b => .zero (a && b)
  | .zero _, y => y
  | x, .zero _ => x
  | .fin a m e, .fin b n f =>
    let g := min e f
    let sg (neg : Bool) (m : Nat) : Int := if neg then -(m : Int) else m
    let t := sg a (m * 2 ^ (e - g).toNat) + sg b (n * 2 ^ (f - g).toNat)
    if t = 0 then .zero false else .fin (decide (t < 0)) t.natAbs g

/-- Negation of a value. -/
def fpNegX : Fp → Fp
  | .nan => .nan
  | .inf s => .inf (!s)
  | .zero s => .zero (!s)
  | .fin s m e => .fin (!s) m e

/-- FP32 operations, each rounded once (R144, R266). -/
def fpAdd (x y : BitVec 32) : BitVec 32 := fpBits (fpAddX (fpOf x) (fpOf y))
def fpSub (x y : BitVec 32) : BitVec 32 := fpBits (fpAddX (fpOf x) (fpNegX (fpOf y)))
def fpMul (x y : BitVec 32) : BitVec 32 := fpBits (fpMulX (fpOf x) (fpOf y))
def fpFma (acc x y : BitVec 32) : BitVec 32 := fpBits (fpAddX (fpOf acc) (fpMulX (fpOf x) (fpOf y)))
/-- Clear or flip the sign; NaN canonical (R266). -/
def fpAbs (x : BitVec 32) : BitVec 32 :=
  match fpOf x with
  | .nan => canonicalNan
  | v => (fpBits v) &&& 0x7FFF_FFFF
def fpNeg (x : BitVec 32) : BitVec 32 := fpBits (fpNegX (fpOf x))
/-- The order key of a pattern that is no NaN: rises with the value, -0 below +0. -/
def fpKey (x : BitVec 32) : Int :=
  let b := fpBits (fpOf x)
  if bitAt b 31 then -(bitsAt b 0 31 : Int) - 1 else bitsAt b 0 31
/-- Is a pattern a NaN. -/
def fpIsNan (x : BitVec 32) : Bool := fpOf x == .nan
/-- Minimum and maximum (R266). -/
def fpMin (x y : BitVec 32) : BitVec 32 :=
  if fpIsNan x then fpBits (fpOf y) else if fpIsNan y then fpBits (fpOf x)
  else fpBits (fpOf (if fpKey x ≤ fpKey y then x else y))
def fpMax (x y : BitVec 32) : BitVec 32 :=
  if fpIsNan x then fpBits (fpOf y) else if fpIsNan y then fpBits (fpOf x)
  else fpBits (fpOf (if fpKey x ≥ fpKey y then x else y))
/-- The order key in which -0 equals +0. -/
def fpValueKey (x : BitVec 32) : Int := if (fpBits (fpOf x)) &&& 0x7FFF_FFFF = 0 then 0 else
  (let k := fpKey x; if k < 0 then k + 1 else k)

/-! ## Conversions (R145, R146, R147) -/

/-- FP32 to BF16 (R4, R145). -/
def toBf16 (x : BitVec 32) : BitVec 16 :=
  match fpOf x with
  | .nan => 0x7FC0
  | v =>
    let p := (fpBits v).toNat % 2 ^ 31
    BitVec.ofNat 16 ((p + 0x7FFF + p / 2 ^ 16 % 2) / 2 ^ 16 + (if bitAt x 31 then 2 ^ 15 else 0))
/-- BF16 to FP32 (R145). -/
def ofBf16 (x : BitVec 16) : BitVec 32 := fpBits (fpOf (x.setWidth 32 <<< 16))
/-- An integer to FP32 (R146). -/
def fpOfInt (x : Int) : BitVec 32 := round32 (decide (x < 0)) x.natAbs 0
/-- A finite value to the nearest integer, ties to even. -/
def fpRne : Fp → Int
  | .fin s m e => let q : Int := (rneShift m e : Nat); if s then -q else q
  | _ => 0
/-- FP32 to INT32 (R146). -/
def fpToInt (x : BitVec 32) : Int :=
  match fpOf x with
  | .inf s => if s then -(2 ^ 31 : Nat) else (2 ^ 31 : Nat) - 1
  | v => clampInt (-(2 ^ 31 : Nat)) ((2 ^ 31 : Nat) - 1) (fpRne v)
/-- E8M10 to FP32 (R147). -/
def widenE8M10 (e : BitVec 19) : BitVec 32 :=
  let s := bitAt e 18
  let x := bitsAt e 10 8
  let f := bitsAt e 0 10
  if x = 0 then signed32 s 0
  else if x = 255 then (if f = 0 then signed32 s (255 * 2 ^ 23) else canonicalNan)
  else signed32 s (x * 2 ^ 23 + f * 2 ^ 13)

/-- INT8 output of a drain (R231): NaN 0, infinity the limit, else rne, saturated or wrapped. -/
def drainInt8 (wrap : Bool) (x : BitVec 32) : BitVec 8 :=
  match fpOf x with
  | .nan => 0
  | .inf s => if s then 0x80 else 0x7F
  | v => BitVec.ofInt 8 (if wrap then fpRne v else sat8 (fpRne v))

/-! ## MXINT8 (R149, R152) -/

/-- Quantise one block: its code and elements (R152). -/
def mxQuantise (xs : List (BitVec 32)) : Nat × List Int :=
  let vs := xs.map fpOf
  if vs.any (fun v => match v with | .nan | .inf _ => true | _ => false) then (255, xs.map (fun _ => 0)) else
  let mags : List Nat := xs.map (fun x => (fpBits (fpOf x)).toNat % 2 ^ 31)
  let mx := mags.foldl max 0
  if mx = 0 then (0, xs.map (fun _ => 0)) else
  let code : Nat := mx / 2 ^ 23
  let e : Int := (code : Int) - 127
  (code, vs.map (fun v => match v with
    | .fin s m f => clampInt (-127) 127 (fpRne (.fin s m (f + 6 - e)))
    | _ => 0))

/-- Dequantise an element under a code (R149, R272). -/
def mxDequantise (code : Nat) (v : Int) : BitVec 32 :=
  if code = 255 then canonicalNan else round32 (decide (v < 0)) v.natAbs ((code : Int) - 133)

/-! ## Approximations (R266) -/

/-- Fractional bits of the fixed-point figures below. -/
def fixBits : Nat := 96
/-- ln 2 in fixed point. -/
def fixLn2 : Nat := 54916777467707473351141471128
/-- 2^f for a fixed-point f in [0, 1): the series of e^(f ln 2). -/
def fixExp2 (f : Nat) : Nat :=
  let y := f * fixLn2 / 2 ^ fixBits
  ((List.range 32).foldl (fun (acc : Nat × Nat) k =>
    let t := acc.2 * y / ((k + 1) * 2 ^ fixBits)
    (acc.1 + t, t)) (2 ^ fixBits, 2 ^ fixBits)).1
/-- log2 of a fixed-point m in [1, 2): the series of atanh. -/
def fixLog2 (m : Nat) : Nat :=
  let one := 2 ^ fixBits
  let z := (m - one) * one / (m + one)
  let z2 := z * z / one
  let sum := ((List.range 34).foldl (fun (acc : Nat × Nat) k =>
    (acc.1 + acc.2 / (2 * k + 1), acc.2 * z2 / one)) (0, z)).1
  2 * sum * one / fixLn2
/-- The integer square root, by bits. -/
def isqrt (n : Nat) : Nat :=
  (List.range (Nat.log2 n / 2 + 1)).reverse.foldl (fun r i => if (r + 2 ^ i) * (r + 2 ^ i) ≤ n then r + 2 ^ i else r) 0

/-- The true result of an approximate op on a finite x in fixed point, ±a × 2^e with a relative error below 2^-60. -/
def approxTrue (op : Nat) (s : Bool) (m : Nat) (e : Int) : Bool × Nat × Int :=
  let one := 2 ^ fixBits
  match op with
  | 8 =>
    let t : Int := if 0 ≤ e then (m * 2 ^ (e.toNat + fixBits) : Nat) else ((m * one / 2 ^ (-e).toNat : Nat) : Int)
    let x : Int := if s then -t else t
    (false, fixExp2 (x % (one : Int)).toNat, x / (one : Int) - fixBits)
  | 9 =>
    let k : Int := e + 23
    let v : Int := k * one + (fixLog2 (m * 2 ^ (fixBits - 23)) : Nat)
    (decide (v < 0), v.natAbs, -fixBits)
  | 10 => (s, 2 ^ (fixBits + 24) / m, -e - (fixBits + 24 : Nat))
  | _ =>
    let (m, e) := if e % 2 = 0 then (m, e) else (2 * m, e - 1)
    (false, isqrt (2 ^ 200 / m), -e / 2 - 100)

/-- Is a pattern within the bound of an op for an input whose true result is ±a × 2^e (R266). [DESIGN CHOICE A9, safe] -/
def approxOk (op : Nat) (x : BitVec 32) (neg : Bool) (a : Nat) (e : Int) (p : BitVec 32) : Bool :=
  match fpOf p with
  | .fin s m f =>
    let g := min e f
    let sg (neg : Bool) (m : Nat) : Int := if neg then -(m : Int) else m
    let diff := (sg s (m * 2 ^ (f - g).toNat) - sg neg (a * 2 ^ (e - g).toNat)).natAbs
    let ulp : Int := e + (Nat.log2 a : Nat) - 23
    let units := if op = 10 ∨ op = 11 then 1 else 2
    let byUlp := if ulp ≥ g then decide (diff ≤ units * 2 ^ (ulp - g).toNat) else decide (diff * 2 ^ (g - ulp).toNat ≤ units)
    let near1 := op == 9 && decide (0x3F00_0000 ≤ x.toNat ∧ x.toNat ≤ 0x4000_0000)
    let byAbs := near1 && (if g ≤ -21 then decide (diff ≤ 2 ^ (-21 - g).toNat) else false)
    byUlp || byAbs
  | .zero _ => op == 9 && p &&& 0x7FFF_FFFF == 0 && decide (0x3F00_0000 ≤ x.toNat ∧ x.toNat ≤ 0x4000_0000) && decide (e ≤ -21) && decide (a ≤ 2 ^ (-21 - e).toNat)
  | _ => false

/-- `exp2`, `log2`, `recip` and `rsqrt` (R266): the exact and special results, else the device's own value within the bound.
[DESIGN CHOICE A9, safe] -/
def fpApprox (op : Nat) (x : BitVec 32) : BitVec 32 :=
  let general (s : Bool) (m : Nat) (e : Int) : BitVec 32 :=
    let (neg, a, f) := approxTrue op s m e
    let c := Config.approxChoice op x
    if approxOk op x neg a f c then c else round32 neg a f
  match fpOf x with
  | .nan => canonicalNan
  | .inf s => match op with
    | 8 => if s then 0 else 0x7F80_0000
    | 9 => if s then canonicalNan else 0x7F80_0000
    | 10 => signed32 s 0
    | _ => if s then canonicalNan else 0
  | .zero s => match op with
    | 8 => 0x3F80_0000
    | 9 => 0xFF80_0000
    | _ => signed32 s (255 * 2 ^ 23)
  | .fin s m e => match op with
    | 8 =>
      let big := decide (e ≥ 8)
      let whole : Int := if e ≥ 0 then (m * 2 ^ (min e 8).toNat : Nat) else ((m / 2 ^ (-e).toNat : Nat) : Int)
      let isInt := decide (e ≥ 0) || decide (m % 2 ^ (-e).toNat = 0)
      if s then
        if big || decide (whole > 126) || (decide (whole = 126) && !isInt) then 0
        else if isInt then round32 false 1 (-whole) else general s m e
      else if big || decide (whole ≥ 128) then 0x7F80_0000
      else if isInt then round32 false 1 whole else general s m e
    | 9 =>
      if s then canonicalNan
      else if m = 2 ^ 23 then fpOfInt (e + 23)
      else general s m e
    | 10 => if e + 23 ≥ 126 then signed32 s 0 else general s m e
    | _ => if s then canonicalNan else general s m e

end Sys2Proof.Machine
end

