-- ==== Sys2Proof/Machine/Vector.lean ====
section
/-! DEFINITION. The vector unit (R207, R208, R262-R275): issue into the vector queue, binding by the arbiter, and the effect of
each instruction on the vector registers. -/

namespace Sys2Proof.Machine
open Sys2Proof

/-! ## Element arithmetic -/

/-- The low w bits of an element as a signed number (R265). -/
def elemInt (w : Nat) (x : Word32) : Int := signedNat w x.toNat
/-- A w-bit result sign-extended to an element (R265). -/
def elemOf (w : Nat) (x : Int) : Word32 := BitVec.ofInt 32 (signedNat w (unsignedOf w x))
/-- Clamp to w bits (R265). -/
def satTo (w : Nat) (x : Int) : Int := clampInt (-(2 ^ (w - 1) : Nat)) ((2 ^ (w - 1) : Nat) - 1) x
/-- The element width of a type code (R35). -/
def vintWidth (t : BitVec 2) : Nat := 8 * 2 ^ t.toNat

/-- `vint` op on two elements of w bits (R265). -/
def vintFn (op w : Nat) (x y : Word32) : Word32 :=
  let a := elemInt w x
  let b := elemInt w y
  let ua := unsignedOf w a
  let ub := unsignedOf w b
  elemOf w (match op with
    | 0 => a + b
    | 1 => a - b
    | 2 => satTo w (a + b)
    | 3 => satTo w (a - b)
    | 4 => a * b
    | 5 => a * b / (2 ^ w : Nat)
    | 6 => min a b
    | 7 => max a b
    | 8 => (min ua ub : Nat)
    | 9 => (max ua ub : Nat)
    | 10 => (ua &&& ub : Nat)
    | 11 => (ua ||| ub : Nat)
    | 12 => (ua ^^^ ub : Nat)
    | 13 => a * (2 ^ (ub % w) : Nat)
    | 14 => (ua / 2 ^ (ub % w) : Nat)
    | 15 => a / (2 ^ (ub % w) : Nat)
    | 16 => (a.natAbs : Int)
    | _ => -a)

/-- `vfp` op on elements; `acc` is vd (R266). -/
def vfpFn (op : Nat) (acc x y : Word32) : Word32 :=
  match op with
  | 0 => fpAdd x y
  | 1 => fpSub x y
  | 2 => fpMul x y
  | 3 => fpFma acc x y
  | 4 => fpMin x y
  | 5 => fpMax x y
  | 6 => fpAbs x
  | 7 => fpNeg x
  | _ => fpApprox op x

/-- A comparison of `vcmp` (R35, R267). -/
def vcmpFn (fp : Bool) (cond : Nat) (x y : Word32) : Bool :=
  if fp then
    if fpIsNan x || fpIsNan y then cond == 1 else
    let a := fpValueKey x
    let b := fpValueKey y
    match cond with
    | 0 => a == b
    | 1 => a != b
    | 2 => decide (a < b)
    | 3 => decide (a ≤ b)
    | 4 => decide (a > b)
    | _ => decide (a ≥ b)
  else match cond with
    | 0 => x == y
    | 1 => x != y
    | 2 => x.slt y
    | 3 => !y.slt x
    | 4 => y.slt x
    | 5 => !x.slt y
    | 6 => x.ult y
    | _ => !x.ult y

/-- One step of a reduction, and its value with no active element (R269). [DEDUCED A21, unsafe] -/
def vredFn (op : Nat) (r x : Word32) : Word32 :=
  match op with
  | 0 => r + x
  | 1 => if r.slt x then r else x
  | 2 => if r.slt x then x else r
  | 3 => fpAdd r x
  | 4 => fpMin r x
  | _ => fpMax r x
def vredStart (op : Nat) : Word32 :=
  match op with
  | 0 => 0
  | 1 => 0x7FFF_FFFF
  | 2 => 0x8000_0000
  | 3 => 0
  | 4 => 0x7F80_0000
  | _ => 0xFF80_0000

/-- Does element (x, i) rank before (y, j) in `vtopk` (R270). -/
def topBefore (smallest fp : Bool) (p q : Word32 × Nat) : Bool :=
  let (x, i) := p
  let (y, j) := q
  if fp && (fpIsNan x || fpIsNan y) then
    if fpIsNan x && fpIsNan y then decide (i < j) else fpIsNan y
  else
    let a := if fp then fpValueKey x else x.toInt
    let b := if fp then fpValueKey y else y.toInt
    if a = b then decide (i < j) else if smallest then decide (a < b) else decide (b < a)

/-- Insertion into a ranked list. -/
def topInsert (smallest fp : Bool) (p : Word32 × Nat) : List (Word32 × Nat) → List (Word32 × Nat)
  | [] => [p]
  | q :: r => if topBefore smallest fp p q then p :: q :: r else q :: topInsert smallest fp p r

/-- The worst value that fills a `vtopk` result beyond VL (R270). -/
def topWorst (smallest fp : Bool) : Word32 :=
  match fp, smallest with
  | false, false => 0x8000_0000
  | false, true => 0x7FFF_FFFF
  | true, false => 0xFF80_0000
  | true, true => 0x7F80_0000

/-- The code of an FP32 value by the decode table (R273): the entries as values, nearest first by the ties given. -/
def encodeTable (tab : List (BitVec 32)) (x : BitVec 32) : Nat :=
  let codes : List (Nat × Fp × BitVec 32) := (List.range 256).map (fun i => (i, fpOf (tab.getD i 0), fpBits (fpOf (tab.getD i 0))))
  let finite := codes.filter (fun c => match c.2.1 with | Fp.zero _ | Fp.fin _ _ _ => true | _ => false)
  let keyOf (c : Nat × Fp × BitVec 32) : Int := fpValueKey c.2.2
  match fpOf x with
  | .nan => ((codes.find? (fun c => c.2.1 == Fp.nan)).map (fun c => c.1)).getD 0
  | v =>
    match (match v with | .inf s => codes.find? (fun (c : Nat × Fp × BitVec 32) => c.2.1 == Fp.inf s) | _ => none : Option (Nat × Fp × BitVec 32)) with
    | some c => c.1
    | none =>
      let dist (f : Fp) : Fp := fpAddX v (fpNegX f)
      let mag : Fp → Fp
        | .fin _ m e => .fin false m e
        | .zero _ => .zero false
        | f => f
      let less (p q : Fp) : Bool := match fpAddX (mag q) (fpNegX (mag p)) with | .fin false _ _ => true | _ => false
      let sameSign (c : Nat × Fp × BitVec 32) : Bool := bitAt c.2.2 31 == bitAt x 31
      let tie (c d : Nat × Fp × BitVec 32) : Bool :=
        let zc := c.2.2 &&& 0x7FFF_FFFF == 0
        let zd := d.2.2 &&& 0x7FFF_FFFF == 0
        let zero := match v with | .zero _ => true | _ => false
        if zero && zc && zd && sameSign c != sameSign d then sameSign c
        else if c.1 % 2 != d.1 % 2 then c.1 % 2 == 0
        else if (c.2.2.toNat % 2 ^ 31) != (d.2.2.toNat % 2 ^ 31) then decide (c.2.2.toNat % 2 ^ 31 < d.2.2.toNat % 2 ^ 31)
        else decide (c.1 < d.1)
      let better (c d : Nat × Fp × BitVec 32) : Bool :=
        match v with
        | .inf s => if keyOf c = keyOf d then tie c d else if s then decide (keyOf c < keyOf d) else decide (keyOf d < keyOf c)
        | _ =>
          if less (dist c.2.1) (dist d.2.1) then true else if less (dist d.2.1) (dist c.2.1) then false else tie c d
      let best := finite.foldl (fun (acc : Option (Nat × Fp × BitVec 32)) c => match acc with
        | none => some c
        | some d => if better c d then some c else some d) none
      (best.map (fun (c : Nat × Fp × BitVec 32) => c.1)).getD 0

/-! ## Issue (R207, R263) -/

/-- The vector queue's depth (R197). -/
def vectorDepth : Nat := 32

/-- Enter the vector queue with the operand values taken (R207, R263). -/
def enqueueVector (i : Instr) (mask : Option Word) (x y : Word) (dst : Option Nat) (home : Nat) : Op Unit := do
  let s ← get
  let c ← getCore
  if c.vq.length ≥ vectorDepth then stall
  let t ← nowOp
  set { s with nextId := s.nextId + 1 }
  modCore (fun c => { c with
    vq := c.vq ++ [⟨s.nextId, i, t + 1, c.vl, mask, x, y, dst, home, none, none, [], 0, 0⟩] })

/-- The mask register of an instruction: m = 0 makes every element below VL active (R34). -/
def readMask (m : BitVec 5) : Op (Option Word) := do
  if m = 0 then pure none
  else
    let w ← readWord m.toNat
    pure (some w)

/-- A masked vector instruction of vector operands only. -/
def issueMasked (i : Instr) (m : BitVec 5) : Op Flow := do
  computeOnly
  bindCheck [m.toNat] []
  let k ← readMask m
  enqueueVector i k 0 0 none 0
  pure (.next 1)

/-- An unmasked vector instruction with one g source (R34). -/
def issueSource (i : Instr) (g : BitVec 5) : Op Flow := do
  computeOnly
  bindCheck [g.toNat] []
  let x ← readWord g.toNat
  enqueueVector i none x 0 none 0
  pure (.next 1)

/-- `vld` and `vst` (R274): checked over the whole extent at issue, ordered by a marker among the core's accesses (R189). -/
def issueVecMem (i : Instr) (isStore : Bool) (b m : BitVec 5) (z : BitVec 2) : Op Flow := do
  legal (decide (z.toNat < 3))
  computeOnly
  bindCheck [b.toNat, m.toNat] []
  memoryGate
  let k ← readMask m
  let r ← readReg b.toNat
  let c ← getCore
  let size := 2 ^ z.toNat
  let p ← checkAccess r 0 (c.vl * size) size (if isStore then Reg.permW else Reg.permR) isStore false
  let s ← get
  enqueueVector i k 0 0 none p.home
  let s' ← get
  set { s' with nextId := s.nextId }
  addOp ⟨0, .vector isStore, p.home, c.vl * size, 0, none, p.near, none, none⟩
  pure (.next 1)

/-- `vint` op 0 (R265). -/
def execVintAdd (S : Bool) (d a b : BitVec 4) (m : BitVec 5) (t : BitVec 2) (s : State) : Host.Outcome State Fault Refusal :=
  runWord S (do legal (decide (t.toNat < 3)); issueMasked (.vintAdd S d a b m t) m) s

/-- `vint` op 1 (R265). -/
def execVintSub (S : Bool) (d a b : BitVec 4) (m : BitVec 5) (t : BitVec 2) (s : State) : Host.Outcome State Fault Refusal :=
  runWord S (do legal (decide (t.toNat < 3)); issueMasked (.vintSub S d a b m t) m) s

/-- `vint` op 2 (R265). -/
def execVintAdds (S : Bool) (d a b : BitVec 4) (m : BitVec 5) (t : BitVec 2) (s : State) : Host.Outcome State Fault Refusal :=
  runWord S (do legal (decide (t.toNat < 3)); issueMasked (.vintAdds S d a b m t) m) s

/-- `vint` op 3 (R265). -/
def execVintSubs (S : Bool) (d a b : BitVec 4) (m : BitVec 5) (t : BitVec 2) (s : State) : Host.Outcome State Fault Refusal :=
  runWord S (do legal (decide (t.toNat < 3)); issueMasked (.vintSubs S d a b m t) m) s

/-- `vint` op 4 (R265). -/
def execVintMul (S : Bool) (d a b : BitVec 4) (m : BitVec 5) (t : BitVec 2) (s : State) : Host.Outcome State Fault Refusal :=
  runWord S (do legal (decide (t.toNat < 3)); issueMasked (.vintMul S d a b m t) m) s

/-- `vint` op 5 (R265). -/
def execVintMulh (S : Bool) (d a b : BitVec 4) (m : BitVec 5) (t : BitVec 2) (s : State) : Host.Outcome State Fault Refusal :=
  runWord S (do legal (decide (t.toNat < 3)); issueMasked (.vintMulh S d a b m t) m) s

/-- `vint` op 6 (R265). -/
def execVintMin (S : Bool) (d a b : BitVec 4) (m : BitVec 5) (t : BitVec 2) (s : State) : Host.Outcome State Fault Refusal :=
  runWord S (do legal (decide (t.toNat < 3)); issueMasked (.vintMin S d a b m t) m) s

/-- `vint` op 7 (R265). -/
def execVintMax (S : Bool) (d a b : BitVec 4) (m : BitVec 5) (t : BitVec 2) (s : State) : Host.Outcome State Fault Refusal :=
  runWord S (do legal (decide (t.toNat < 3)); issueMasked (.vintMax S d a b m t) m) s

/-- `vint` op 8 (R265). -/
def execVintMinu (S : Bool) (d a b : BitVec 4) (m : BitVec 5) (t : BitVec 2) (s : State) : Host.Outcome State Fault Refusal :=
  runWord S (do legal (decide (t.toNat < 3)); issueMasked (.vintMinu S d a b m t) m) s

/-- `vint` op 9 (R265). -/
def execVintMaxu (S : Bool) (d a b : BitVec 4) (m : BitVec 5) (t : BitVec 2) (s : State) : Host.Outcome State Fault Refusal :=
  runWord S (do legal (decide (t.toNat < 3)); issueMasked (.vintMaxu S d a b m t) m) s

/-- `vint` op 10 (R265). -/
def execVintAnd (S : Bool) (d a b : BitVec 4) (m : BitVec 5) (t : BitVec 2) (s : State) : Host.Outcome State Fault Refusal :=
  runWord S (do legal (decide (t.toNat < 3)); issueMasked (.vintAnd S d a b m t) m) s

/-- `vint` op 11 (R265). -/
def execVintOr (S : Bool) (d a b : BitVec 4) (m : BitVec 5) (t : BitVec 2) (s : State) : Host.Outcome State Fault Refusal :=
  runWord S (do legal (decide (t.toNat < 3)); issueMasked (.vintOr S d a b m t) m) s

/-- `vint` op 12 (R265). -/
def execVintXor (S : Bool) (d a b : BitVec 4) (m : BitVec 5) (t : BitVec 2) (s : State) : Host.Outcome State Fault Refusal :=
  runWord S (do legal (decide (t.toNat < 3)); issueMasked (.vintXor S d a b m t) m) s

/-- `vint` op 13 (R265). -/
def execVintShl (S : Bool) (d a b : BitVec 4) (m : BitVec 5) (t : BitVec 2) (s : State) : Host.Outcome State Fault Refusal :=
  runWord S (do legal (decide (t.toNat < 3)); issueMasked (.vintShl S d a b m t) m) s

/-- `vint` op 14 (R265). -/
def execVintShr (S : Bool) (d a b : BitVec 4) (m : BitVec 5) (t : BitVec 2) (s : State) : Host.Outcome State Fault Refusal :=
  runWord S (do legal (decide (t.toNat < 3)); issueMasked (.vintShr S d a b m t) m) s

/-- `vint` op 15 (R265). -/
def execVintSra (S : Bool) (d a b : BitVec 4) (m : BitVec 5) (t : BitVec 2) (s : State) : Host.Outcome State Fault Refusal :=
  runWord S (do legal (decide (t.toNat < 3)); issueMasked (.vintSra S d a b m t) m) s

/-- `vint` op 16 (R265). -/
def execVintAbs (S : Bool) (d a : BitVec 4) (m : BitVec 5) (t : BitVec 2) (s : State) : Host.Outcome State Fault Refusal :=
  runWord S (do legal (decide (t.toNat < 3)); issueMasked (.vintAbs S d a m t) m) s

/-- `vint` op 17 (R265). -/
def execVintNeg (S : Bool) (d a : BitVec 4) (m : BitVec 5) (t : BitVec 2) (s : State) : Host.Outcome State Fault Refusal :=
  runWord S (do legal (decide (t.toNat < 3)); issueMasked (.vintNeg S d a m t) m) s

/-- `vfp` op 0 (R266). -/
def execVfpAdd (S : Bool) (d a b : BitVec 4) (m : BitVec 5) (s : State) : Host.Outcome State Fault Refusal :=
  runWord S (issueMasked (.vfpAdd S d a b m) m) s

/-- `vfp` op 1 (R266). -/
def execVfpSub (S : Bool) (d a b : BitVec 4) (m : BitVec 5) (s : State) : Host.Outcome State Fault Refusal :=
  runWord S (issueMasked (.vfpSub S d a b m) m) s

/-- `vfp` op 2 (R266). -/
def execVfpMul (S : Bool) (d a b : BitVec 4) (m : BitVec 5) (s : State) : Host.Outcome State Fault Refusal :=
  runWord S (issueMasked (.vfpMul S d a b m) m) s

/-- `vfp` op 3 (R266). -/
def execVfpFma (S : Bool) (d a b : BitVec 4) (m : BitVec 5) (s : State) : Host.Outcome State Fault Refusal :=
  runWord S (issueMasked (.vfpFma S d a b m) m) s

/-- `vfp` op 4 (R266). -/
def execVfpMin (S : Bool) (d a b : BitVec 4) (m : BitVec 5) (s : State) : Host.Outcome State Fault Refusal :=
  runWord S (issueMasked (.vfpMin S d a b m) m) s

/-- `vfp` op 5 (R266). -/
def execVfpMax (S : Bool) (d a b : BitVec 4) (m : BitVec 5) (s : State) : Host.Outcome State Fault Refusal :=
  runWord S (issueMasked (.vfpMax S d a b m) m) s

/-- `vfp` op 6 (R266). -/
def execVfpAbs (S : Bool) (d a : BitVec 4) (m : BitVec 5) (s : State) : Host.Outcome State Fault Refusal :=
  runWord S (issueMasked (.vfpAbs S d a m) m) s

/-- `vfp` op 7 (R266). -/
def execVfpNeg (S : Bool) (d a : BitVec 4) (m : BitVec 5) (s : State) : Host.Outcome State Fault Refusal :=
  runWord S (issueMasked (.vfpNeg S d a m) m) s

/-- `vfp` op 8 (R266). -/
def execVfpExp2 (S : Bool) (d a : BitVec 4) (m : BitVec 5) (s : State) : Host.Outcome State Fault Refusal :=
  runWord S (issueMasked (.vfpExp2 S d a m) m) s

/-- `vfp` op 9 (R266). -/
def execVfpLog2 (S : Bool) (d a : BitVec 4) (m : BitVec 5) (s : State) : Host.Outcome State Fault Refusal :=
  runWord S (issueMasked (.vfpLog2 S d a m) m) s

/-- `vfp` op 10 (R266). -/
def execVfpRecip (S : Bool) (d a : BitVec 4) (m : BitVec 5) (s : State) : Host.Outcome State Fault Refusal :=
  runWord S (issueMasked (.vfpRecip S d a m) m) s

/-- `vfp` op 11 (R266). -/
def execVfpRsqrt (S : Bool) (d a : BitVec 4) (m : BitVec 5) (s : State) : Host.Outcome State Fault Refusal :=
  runWord S (issueMasked (.vfpRsqrt S d a m) m) s

/-- Compare into g_d (R267). -/
def execVcmp (S : Bool) (a b : BitVec 4) (d : BitVec 5) (t : BitVec 2) (c : BitVec 5) (s : State) : Host.Outcome State Fault Refusal :=
  runWord S (do
    legal (decide (t.toNat < 2 ∧ c.toNat < 8 ∧ (t.toNat = 0 ∨ c.toNat < 6)))
    computeOnly
    notBound [d.toNat]
    enqueueVector (.vcmp S a b d t c) none 0 0 (if d = 0 then none else some d.toNat) 0
    pure (.next 1)) s

/-- Select by a mask (R268). -/
def execVsel (S : Bool) (d a b : BitVec 4) (m : BitVec 5) (s : State) : Host.Outcome State Fault Refusal :=
  runWord S (issueMasked (.vsel S d a b m) m) s

/-- Permute by indices (R268). -/
def execVperm (S : Bool) (d a b : BitVec 4) (m : BitVec 5) (s : State) : Host.Outcome State Fault Refusal :=
  runWord S (issueMasked (.vperm S d a b m) m) s

/-- Broadcast g_s (R268). -/
def execVbcast (S : Bool) (d : BitVec 4) (g : BitVec 5) (s : State) : Host.Outcome State Fault Refusal :=
  runWord S (issueSource (.vbcast S d g) g) s

/-- Slide by g_s (R268). -/
def execVslide (S : Bool) (d a : BitVec 4) (g : BitVec 5) (u : BitVec 1) (s : State) : Host.Outcome State Fault Refusal :=
  runWord S (issueSource (.vslide S d a g u) g) s

/-- `vred` op 0 (R269). -/
def execVredSumI32 (S : Bool) (d a : BitVec 4) (m : BitVec 5) (s : State) : Host.Outcome State Fault Refusal :=
  runWord S (issueMasked (.vredSumI32 S d a m) m) s

/-- `vred` op 1 (R269). -/
def execVredMinI32 (S : Bool) (d a : BitVec 4) (m : BitVec 5) (s : State) : Host.Outcome State Fault Refusal :=
  runWord S (issueMasked (.vredMinI32 S d a m) m) s

/-- `vred` op 2 (R269). -/
def execVredMaxI32 (S : Bool) (d a : BitVec 4) (m : BitVec 5) (s : State) : Host.Outcome State Fault Refusal :=
  runWord S (issueMasked (.vredMaxI32 S d a m) m) s

/-- `vred` op 3 (R269). -/
def execVredSumF32 (S : Bool) (d a : BitVec 4) (m : BitVec 5) (s : State) : Host.Outcome State Fault Refusal :=
  runWord S (issueMasked (.vredSumF32 S d a m) m) s

/-- `vred` op 4 (R269). -/
def execVredMinF32 (S : Bool) (d a : BitVec 4) (m : BitVec 5) (s : State) : Host.Outcome State Fault Refusal :=
  runWord S (issueMasked (.vredMinF32 S d a m) m) s

/-- `vred` op 5 (R269). -/
def execVredMaxF32 (S : Bool) (d a : BitVec 4) (m : BitVec 5) (s : State) : Host.Outcome State Fault Refusal :=
  runWord S (issueMasked (.vredMaxF32 S d a m) m) s

/-- The best k elements (R270). -/
def execVtopk (S : Bool) (d a : BitVec 4) (k : BitVec 5) (u : BitVec 1) (t : BitVec 4) (s : State) : Host.Outcome State Fault Refusal :=
  runWord S (do
    legal (decide (d.toNat % 2 = 0 ∧ d.toNat ≠ 14 ∧ t.toNat < 2))
    computeOnly
    notBound [k.toNat]
    let x ← readWord k.toNat
    legal (decide (1 ≤ x.toNat ∧ x.toNat ≤ 64))
    enqueueVector (.vtopk S d a k u t) none x 0 (if k = 0 then none else some k.toNat) 0
    pure (.next 1)) s

/-- `vcvt` tobf (R271). -/
def execVcvtTobf (S : Bool) (d a : BitVec 4) (m : BitVec 5) (s : State) : Host.Outcome State Fault Refusal :=
  runWord S (issueMasked (.vcvtTobf S d a m) m) s

/-- `vcvt` frombf (R271). -/
def execVcvtFrombf (S : Bool) (d a : BitVec 4) (m : BitVec 5) (s : State) : Host.Outcome State Fault Refusal :=
  runWord S (issueMasked (.vcvtFrombf S d a m) m) s

/-- `vcvt` itof (R271). -/
def execVcvtItof (S : Bool) (d a : BitVec 4) (m : BitVec 5) (s : State) : Host.Outcome State Fault Refusal :=
  runWord S (issueMasked (.vcvtItof S d a m) m) s

/-- `vcvt` ftoi (R271). -/
def execVcvtFtoi (S : Bool) (d a : BitVec 4) (m : BitVec 5) (s : State) : Host.Outcome State Fault Refusal :=
  runWord S (issueMasked (.vcvtFtoi S d a m) m) s

/-- `vcvt` sat8 (R271). -/
def execVcvtSat8 (S : Bool) (d a : BitVec 4) (m : BitVec 5) (s : State) : Host.Outcome State Fault Refusal :=
  runWord S (issueMasked (.vcvtSat8 S d a m) m) s

/-- `vcvt` sat16 (R271). -/
def execVcvtSat16 (S : Bool) (d a : BitVec 4) (m : BitVec 5) (s : State) : Host.Outcome State Fault Refusal :=
  runWord S (issueMasked (.vcvtSat16 S d a m) m) s

/-- `vcvt` tdec (R271). -/
def execVcvtTdec (S : Bool) (d a : BitVec 4) (m : BitVec 5) (s : State) : Host.Outcome State Fault Refusal :=
  runWord S (issueMasked (.vcvtTdec S d a m) m) s

/-- `vcvt` tenc (R273). -/
def execVcvtTenc (S : Bool) (d a : BitVec 4) (m : BitVec 5) (s : State) : Host.Outcome State Fault Refusal :=
  runWord S (issueMasked (.vcvtTenc S d a m) m) s

/-- `vcvt` mxq: vb differs from vd and no mask (R271, R272). -/
def execVcvtMxq (S : Bool) (d a b : BitVec 4) (s : State) : Host.Outcome State Fault Refusal :=
  runWord S (do legal (b != d); issueMasked (.vcvtMxq S d a b) 0) s

/-- `vcvt` mxd: vb differs from vd and no mask (R271, R272). -/
def execVcvtMxd (S : Bool) (d a b : BitVec 4) (s : State) : Host.Outcome State Fault Refusal :=
  runWord S (do legal (b != d); issueMasked (.vcvtMxd S d a b) 0) s

/-- Vector load (R274). -/
def execVld (S : Bool) (d : BitVec 4) (b m : BitVec 5) (z : BitVec 2) (s : State) : Host.Outcome State Fault Refusal :=
  runWord S (issueVecMem (.vld S d b m z) false b m z) s

/-- Vector store (R274). -/
def execVst (S : Bool) (d : BitVec 4) (b m : BitVec 5) (z : BitVec 2) (s : State) : Host.Outcome State Fault Refusal :=
  runWord S (issueVecMem (.vst S d b m z) true b m z) s

/-- Set VL in the scalar pipeline (R275). -/
def execVsetvl (S : Bool) (d a : BitVec 5) (s : State) : Host.Outcome State Fault Refusal :=
  runWord S (do
    computeOnly
    bindCheck [a.toNat] [d.toNat]
    let x ← readWord a.toNat
    let vl := min (max x.toNat 1) 64
    modCore (fun c => { c with sys := { c.sys with status := setBits c.sys.status 24 6 (vl % 64) } })
    writeWord d.toNat (BitVec.ofNat 64 vl)
    pure (.next 1)) s

/-- An element to a g register, through the vector queue (R275). -/
def execVmovgToG (S : Bool) (d : BitVec 5) (v : BitVec 4) (b : BitVec 5) (s : State) : Host.Outcome State Fault Refusal :=
  runWord S (do
    computeOnly
    notBound [d.toNat]
    bindCheck [b.toNat] []
    let x ← readWord b.toNat
    enqueueVector (.vmovgToG S d v b) none x 0 (if d = 0 then none else some d.toNat) 0
    pure (.next 1)) s

/-- A g register to an element, through the vector queue (R275). -/
def execVmovgToV (S : Bool) (v : BitVec 4) (a b : BitVec 5) (s : State) : Host.Outcome State Fault Refusal :=
  runWord S (do
    computeOnly
    bindCheck [a.toNat, b.toNat] []
    let x ← readWord a.toNat
    let y ← readWord b.toNat
    enqueueVector (.vmovgToV S v a b) none x y none 0
    pure (.next 1)) s

/-! ## Binding and effect (R208, R263, R264) -/

/-- How an instruction occupies the unit: occupancy, cycles to its result, vector registers read and written (R264). -/
structure VecPlan where
  occ : Nat
  lat : Nat
  reads : List Nat
  writes : List Nat

/-- Is element i active (R263). -/
def VecEntry.active (e : VecEntry) (i : Nat) : Bool :=
  decide (i < e.vl) && (match e.mask with | some w => bitAt w i | none => true)

/-- Change the active elements of vd by a function of the index. -/
def mapActive (c : Core) (e : VecEntry) (d : BitVec 4) (f : Nat → Word32) : Core :=
  c.setVec d.toNat (fun i => if e.active i then some (f i) else none)

/-- The decode table as FP32 values (R147, R271). -/
def Core.tableValues (c : Core) : List (BitVec 32) :=
  (List.range 256).map (fun i => widenE8M10 ((mapGet c.slice.dtab i).getD 0))

/-- A reduction into vd[0] (R269). [DEDUCED A21, unsafe] -/
def reduceInto (c : Core) (e : VecEntry) (d a : BitVec 4) (op : Nat) : Core :=
  let els := ((List.range 64).filter e.active).map (c.velem a.toNat)
  let r := if decide (op ≥ 4) && !els.isEmpty && els.all fpIsNan then canonicalNan else els.foldl (vredFn op) (vredStart op)
  c.setVec d.toNat (fun i => if i = 0 then some r else none)

/-- `vtopk` (R270): values to vd, FP32 ones as R144 gives a result, indices to vd + 1, and the mask of the chosen indices. -/
def topkInto (c : Core) (e : VecEntry) (d a : BitVec 4) (smallest fp : Bool) : Core × Word :=
  let ranked := (List.range e.vl).foldl (fun l i => topInsert smallest fp (c.velem a.toNat i, i) l) []
  let k := e.x.toNat
  let value (x : Word32) : Word32 := if fp then fpBits (fpOf x) else x
  let vals := c.setVec d.toNat (fun j => if j < k then some (((ranked[j]?).map (fun p => value p.1)).getD (topWorst smallest fp)) else none)
  let c' := vals.setVec (d.toNat + 1) (fun j => if j < k then some (((ranked[j]?).map (fun p => BitVec.ofNat 32 p.2)).getD 0xFFFF_FFFF) else none)
  (c', BitVec.ofNat 64 ((ranked.take k).foldl (fun m p => m + 2 ^ p.2) 0))

/-- `vcvt mxq` (R272). -/
def quantiseInto (c : Core) (e : VecEntry) (d a b : BitVec 4) : Core :=
  let block (j : Nat) : List (BitVec 32) := (List.range (min 32 (e.vl - 32 * j))).map (fun i => c.velem a.toNat (32 * j + i))
  let q0 := mxQuantise (block 0)
  let q1 := mxQuantise (block 1)
  let two := decide (32 < e.vl)
  let elems := q0.2 ++ (if two then q1.2 else [])
  let c' := c.setVec d.toNat (fun i => if i < e.vl then some (BitVec.ofInt 32 (elems.getD i 0)) else none)
  c'.setVec b.toNat (fun i => match i with
    | 0 => some (BitVec.ofNat 32 q0.1)
    | 1 => some (if two then BitVec.ofNat 32 q1.1 else 0)
    | 2 => some (BitVec.ofNat 32 (if two then max q0.1 q1.1 else q0.1))
    | _ => none)

/-- The result register's value of `vcmp`, `vtopk` and `vmovg gD`, and the core with its vector registers changed
(R265-R275); `vld` and `vst` are served by the caller. -/
def vectorEffect (c : Core) (e : VecEntry) : Core × Option Word :=
  let r := fun (n : BitVec 4) i => c.velem n.toNat i
  let vint (op : Nat) (d a b : BitVec 4) (t : BitVec 2) : Core × Option Word :=
    (mapActive c e d (fun i => vintFn op (vintWidth t) (r a i) (r b i)), none)
  let vfp (op : Nat) (d a b : BitVec 4) : Core × Option Word := (mapActive c e d (fun i => vfpFn op (r d i) (r a i) (r b i)), none)
  let cvt (d a : BitVec 4) (f : Word32 → Word32) : Core × Option Word := (mapActive c e d (fun i => f (r a i)), none)
  match e.instr with

  | .vintAdd _ d a b _ t => vint 0 d a b t
  | .vintSub _ d a b _ t => vint 1 d a b t
  | .vintAdds _ d a b _ t => vint 2 d a b t
  | .vintSubs _ d a b _ t => vint 3 d a b t
  | .vintMul _ d a b _ t => vint 4 d a b t
  | .vintMulh _ d a b _ t => vint 5 d a b t
  | .vintMin _ d a b _ t => vint 6 d a b t
  | .vintMax _ d a b _ t => vint 7 d a b t
  | .vintMinu _ d a b _ t => vint 8 d a b t
  | .vintMaxu _ d a b _ t => vint 9 d a b t
  | .vintAnd _ d a b _ t => vint 10 d a b t
  | .vintOr _ d a b _ t => vint 11 d a b t
  | .vintXor _ d a b _ t => vint 12 d a b t
  | .vintShl _ d a b _ t => vint 13 d a b t
  | .vintShr _ d a b _ t => vint 14 d a b t
  | .vintSra _ d a b _ t => vint 15 d a b t
  | .vintAbs _ d a _ t => vint 16 d a a t
  | .vintNeg _ d a _ t => vint 17 d a a t
  | .vfpAdd _ d a b _ => vfp 0 d a b
  | .vfpSub _ d a b _ => vfp 1 d a b
  | .vfpMul _ d a b _ => vfp 2 d a b
  | .vfpFma _ d a b _ => vfp 3 d a b
  | .vfpMin _ d a b _ => vfp 4 d a b
  | .vfpMax _ d a b _ => vfp 5 d a b
  | .vfpAbs _ d a _ => vfp 6 d a a
  | .vfpNeg _ d a _ => vfp 7 d a a
  | .vfpExp2 _ d a _ => vfp 8 d a a
  | .vfpLog2 _ d a _ => vfp 9 d a a
  | .vfpRecip _ d a _ => vfp 10 d a a
  | .vfpRsqrt _ d a _ => vfp 11 d a a
  | .vcmp _ a b _ t k =>
    (c, some (BitVec.ofNat 64 ((List.range e.vl).foldl (fun m i =>
      if vcmpFn (t == 1) k.toNat (r a i) (r b i) then m + 2 ^ i else m) 0)))
  | .vsel _ d a b _ =>
    (c.setVec d.toNat (fun i => if i < e.vl then some (if e.active i then r a i else r b i) else none), none)
  | .vperm _ d a b _ =>
    (mapActive c e d (fun i => if (r b i).toNat < 64 then r a (r b i).toNat else 0), none)
  | .vbcast _ d _ => (mapActive c e d (fun _ => e.x.setWidth 32), none)
  | .vslide _ d a _ u =>
    let n := e.x.toNat
    (mapActive c e d (fun i => if u = 0 then (if n ≤ i then r a (i - n) else 0) else if i + n < e.vl then r a (i + n) else 0), none)
  | .vredSumI32 _ d a _ => (reduceInto c e d a 0, none)
  | .vredMinI32 _ d a _ => (reduceInto c e d a 1, none)
  | .vredMaxI32 _ d a _ => (reduceInto c e d a 2, none)
  | .vredSumF32 _ d a _ => (reduceInto c e d a 3, none)
  | .vredMinF32 _ d a _ => (reduceInto c e d a 4, none)
  | .vredMaxF32 _ d a _ => (reduceInto c e d a 5, none)
  | .vtopk _ d a _ u t => let p := topkInto c e d a (u == 1) (t == 1); (p.1, some p.2)
  | .vcvtTobf _ d a _ => cvt d a (fun x => (toBf16 x).setWidth 32)
  | .vcvtFrombf _ d a _ => cvt d a (fun x => ofBf16 (x.setWidth 16))
  | .vcvtItof _ d a _ => cvt d a (fun x => fpOfInt x.toInt)
  | .vcvtFtoi _ d a _ => cvt d a (fun x => BitVec.ofInt 32 (fpToInt x))
  | .vcvtSat8 _ d a _ => cvt d a (fun x => BitVec.ofInt 32 (sat8 x.toInt))
  | .vcvtSat16 _ d a _ => cvt d a (fun x => BitVec.ofInt 32 (sat16 x.toInt))
  | .vcvtMxq _ d a b => (quantiseInto c e d a b, none)
  | .vcvtMxd _ d a b =>
    (mapActive c e d (fun i => mxDequantise (bitsAt (r b (i / 32)) 0 8) (elemInt 8 (r a i))), none)
  | .vcvtTdec _ d a _ => let tab := c.tableValues; cvt d a (fun x => tab.getD (bitsAt x 0 8) 0)
  | .vcvtTenc _ d a _ =>
    if bitAt c.sys.dtstat 0 then
      let tab := c.tableValues
      cvt d a (fun x => BitVec.ofNat 32 (encodeTable tab x))
    else
      let p := mapActive c e d (fun _ => 0)
      ({ p with sys := { p.sys with dtstat := setBit p.sys.dtstat 1 true } }, none)
  | .vmovgToG _ _ v _ => (c, some (if e.x.toNat < 64 then (r v e.x.toNat).setWidth 64 else 0))
  | .vmovgToV _ v _ _ =>
    (c.setVec v.toNat (fun i => if i = e.y.toNat then some (e.x.setWidth 32) else none), none)
  | _ => (c, none)

/-- Occupancy, latency and registers of an instruction (R264). -/
def vectorPlan (e : VecEntry) : VecPlan :=
  let q := ceilDiv e.vl 16
  let three (occ lat : Nat) (d a b : BitVec 4) : VecPlan := ⟨occ, lat, [d.toNat, a.toNat, b.toNat], [d.toNat]⟩
  let two (occ lat : Nat) (d a : BitVec 4) : VecPlan := ⟨occ, lat, [d.toNat, a.toNat], [d.toNat]⟩
  match e.instr with
  | .vintAdd _ d a b _ _ => three q 2 d a b
  | .vintSub _ d a b _ _ => three q 2 d a b
  | .vintAdds _ d a b _ _ => three q 2 d a b
  | .vintSubs _ d a b _ _ => three q 2 d a b
  | .vintMul _ d a b _ _ => three q 4 d a b
  | .vintMulh _ d a b _ _ => three q 4 d a b
  | .vintMin _ d a b _ _ => three q 2 d a b
  | .vintMax _ d a b _ _ => three q 2 d a b
  | .vintMinu _ d a b _ _ => three q 2 d a b
  | .vintMaxu _ d a b _ _ => three q 2 d a b
  | .vintAnd _ d a b _ _ => three q 2 d a b
  | .vintOr _ d a b _ _ => three q 2 d a b
  | .vintXor _ d a b _ _ => three q 2 d a b
  | .vintShl _ d a b _ _ => three q 2 d a b
  | .vintShr _ d a b _ _ => three q 2 d a b
  | .vintSra _ d a b _ _ => three q 2 d a b
  | .vintAbs _ d a _ _ | .vintNeg _ d a _ _ => two q 2 d a
  | .vfpAdd _ d a b _ | .vfpSub _ d a b _ | .vfpMul _ d a b _ | .vfpFma _ d a b _ | .vfpMin _ d a b _ | .vfpMax _ d a b _ => three q 4 d a b
  | .vfpAbs _ d a _ | .vfpNeg _ d a _ => two q 4 d a
  | .vfpExp2 _ d a _ | .vfpLog2 _ d a _ | .vfpRecip _ d a _ | .vfpRsqrt _ d a _ => two (2 * q) 6 d a
  | .vcmp _ a b _ _ _ => ⟨q, 2, [a.toNat, b.toNat], []⟩
  | .vsel _ d a b _ | .vperm _ d a b _ => three q 2 d a b
  | .vbcast _ d _ => two q 2 d d
  | .vslide _ d a _ _ => two q 2 d a
  | .vredSumI32 _ d a _ | .vredMinI32 _ d a _ | .vredMaxI32 _ d a _ | .vredSumF32 _ d a _ | .vredMinF32 _ d a _
  | .vredMaxF32 _ d a _ => two (q + 2) 4 d a
  | .vtopk _ d a _ _ _ => ⟨16, 4, [a.toNat, d.toNat, d.toNat + 1], [d.toNat, d.toNat + 1]⟩
  | .vcvtTobf _ d a _ | .vcvtFrombf _ d a _ | .vcvtItof _ d a _ | .vcvtFtoi _ d a _ | .vcvtSat8 _ d a _ | .vcvtSat16 _ d a _
  | .vcvtTdec _ d a _ => two q 2 d a
  | .vcvtMxq _ d a b => ⟨q + 1, 4, [d.toNat, a.toNat, b.toNat], [d.toNat, b.toNat]⟩
  | .vcvtMxd _ d a b => three (q + 1) 4 d a b
  | .vcvtTenc _ d a _ => two (2 * q) 4 d a
  | .vld _ d _ _ z => two (max 1 (ceilDiv (e.vl * 2 ^ z.toNat) 64)) 4 d d
  | .vst _ d _ _ z => ⟨max 1 (ceilDiv (e.vl * 2 ^ z.toNat) 64), 0, [d.toNat], []⟩
  | .vmovgToG _ _ v _ => ⟨1, 2, [v.toNat], []⟩
  | .vmovgToV _ v _ _ => two 1 2 v v
  | _ => ⟨1, 0, [], []⟩

/-- The head of a core's vector queue: its first entry that is not bound. -/
def Core.vectorHead (c : Core) : Option VecEntry := c.vq.find? (fun e => e.bound.isNone)

/-- Does a bound `vld` from outside the own slice, which has not read its elements yet, stand before a use of register r (R264). -/
def Core.vectorPending (c : Core) (k r : Nat) : Bool :=
  c.vq.any (fun e => e.bound.isSome && leavesSlice k e.home && (vectorPlan e).writes.contains r && c.ops.any (fun o => o.id == e.id))

/-- Is the head ready to bind on a cycle (R189, R264): one cycle in the queue, its registers written, and for a memory
instruction the earlier accesses it follows performed and no block under recovery touched (R141). -/
def headReady (s : State) (k : Nat) : Bool :=
  let c := s.core (.comp k)
  let t := s.now (.comp k)
  match c.vectorHead with
  | none => false
  | some e =>
    let p := vectorPlan e
    decide (e.enters + 1 ≤ t) && (p.reads ++ p.writes).all (fun r => decide ((mapGet c.vready r).getD 0 ≤ t) && !c.vectorPending k r) &&
      (match c.ops.find? (fun o => o.id == e.id) with
        | some o => mayPerform (.comp k) (opsBefore c.ops e.id) o && !s.recovers o.home o.size
        | none => true)

/-- Has a lane group bound a head of the core on this cycle. -/
def boundNow (s : State) (k : Nat) : Bool :=
  (s.core (.comp k)).vq.any (fun e => e.bound.isSome && e.performAt + 1 == s.now (.comp k) + (vectorPlan e).occ)

/-- The weights of a cycle: a `syswr SHARE` takes effect on the next (R208). -/
def Quad.weights (q : Quad) : Word := q.shareBefore.getD q.share

/-- w and c of a core with a ready head: they count this cycle, unless a head of the core has bound on it (R208). -/
def arbiterCount (s : State) (k : Nat) : Nat × Nat :=
  let c := s.core (.comp k)
  if boundNow s k then (c.vwait, c.vcredit)
  else (c.vwait + 1, min (c.vcredit + bitsAt (s.quad (k / 4)).weights (8 * (k % 4)) 8) 0xFFFF)

/-- The core of the quad that the arbiter gives a lane group to (R17, R208). -/
def pickCore (s : State) (q l : Nat) : Option Nat :=
  if (s.quad q).reserved.toList.getD l false then
    (if headReady s (4 * q + l) then some (4 * q + l) else none)
  else
    let cands := ((List.range 4).map (fun j => 4 * q + j)).filter (fun k => !(s.core (.comp k)).tw && headReady s k)
    let w (k : Nat) := (arbiterCount s k).1
    let cr (k : Nat) := (arbiterCount s k).2
    let key (k : Nat) := if cands.any (fun k => decide (w k ≥ 32)) then w k else cr k
    cands.foldl (fun acc k => match acc with
      | none => some k
      | some b => if key k > key b then some k else some b) none

/-- Piece j of an own-slice `vld`, the 64 bytes that it reads on cycle b + j, into its elements (R264, R274). -/
def loadPiece (s : State) (c : Core) (e : VecEntry) (d : BitVec 4) (z j : Nat) : Core :=
  c.setVec d.toNat (fun i => if e.active i ∧ i * z / 64 = j then
    some (BitVec.ofInt 32 (signedNat (8 * z) (s.num (e.home + i * z) z))) else none)

/-- The elements a `vld` reads (R274). -/
def loadVector (s : State) (c : Core) (e : VecEntry) (d : BitVec 4) (z : Nat) : Core :=
  mapActive c e d (fun i => BitVec.ofInt 32 (signedNat (8 * z) (s.num (e.home + i * z) z)))

/-- The bytes a `vst` writes (R274). -/
def storeBytes (c : Core) (e : VecEntry) (d : BitVec 4) (z : Nat) : List (Nat × Byte) :=
  (List.range e.vl).flatMap (fun i => if e.active i then
    ((leBytes z (c.velem d.toNat i).toNat).zipIdx.map (fun (b, j) => (e.home + i * z + j, b))) else [])

/-- VECTOR_BIND (R207, R208, R264): a free lane group takes the head the arbiter chooses; the instruction reads its vector
operands, and its results are visible from the cycles of R264. A `vld` from the own slice reads a piece on each cycle, from this one on;
another performs at a time that is not fixed, a `vst` from the last cycle of its occupancy on. -/
def execVectorBind (q l : Nat) (s : State) : Host.Outcome State Fault Refusal :=
  if q ≥ 512 ∨ l ≥ 4 then .fault .noSuchUnit else
  let t := s.now (.comp (4 * q))
  if (s.quad q).groupEnd.toList.getD l 0 > t then .next s else
  match pickCore s q l with
  | none => .next s
  | some k =>
    let c := s.core (.comp k)
    match c.vectorHead with
    | none => .next s
    | some e =>
      let p := vectorPlan e
      let finish := t + p.occ + p.lat
      let (c', res, data) : Core × Option Word × List (Nat × Byte) := match e.instr with
        | .vld _ _ _ _ _ => (c, none, [])
        | .vst _ d _ _ z => (c, none, storeBytes c e d (2 ^ z.toNat))
        | _ => let r := vectorEffect c e; (r.1, r.2, [])
      let e' := { e with bound := some (l, finish), result := res, data := data, performAt := t + p.occ - 1 }
      let c' := { c' with
        vq := c'.vq.map (fun x => if x.id == e.id then e' else x)
        vready := p.writes.foldl (fun m r => mapSet m r finish) c'.vready
        vwait := 0, vcredit := 0 }
      let qd := s.quad q
      .next ((s.setCore (.comp k) c').setQuad q { qd with groupEnd := qd.groupEnd.setIfInBounds l (t + p.occ) })

/-- The bytes of a `vst` of core k land and the access leaves the core's list. -/
def landVst (s : State) (k : Nat) (e : VecEntry) (write : Bool) : State :=
  let s := if write then e.data.foldl (fun s (a, b) => (s.write a [b]).noteOwn k a 1) s else s
  s.modCore (.comp k) (fun c => { c with ops := pruneFences (.comp k) [] (c.ops.filter (fun o => o.id != e.id)) })

/-- The bytes of a `vst` land on their cycle (R125, R264); one that leaves a core of a checked pair goes once, when the
partner's oldest has the same bytes (R123); part of STORE_PERFORM. -/
def performVst (s : State) (k n : Nat) : State :=
  let c := s.core (.comp k)
  match c.vq.find? (fun e => e.id == n) with
  | none => s
  | some e =>
    if e.bound.isSome && decide (e.performAt ≤ s.now (.comp k)) && c.ops.any (fun o => o.id == n && !s.recovers o.home o.size) then
      match (if e.data.any (fun p => leavesSlice k p.1) then s.partner k else none) with
      | none => landVst s k e true
      | some p =>
        match s.nextAway k, s.nextAway p with
        | some (.inr (.inl a)), some (.inr (.inl f)) =>
          if a.id = n ∧ e.data = f.data ∧ f.performAt ≤ s.now (.comp k) then landVst (landVst s k e true) p f false else s
        | _, _ => s
    else s

/-- The pieces of an own-slice `vld` of core k that are due are read, one a cycle; another `vld` is read at once, at any time (R264). After the
last piece the access leaves the core's list; part of STORE_PERFORM. -/
def performVld (s : State) (k n : Nat) : State :=
  let c := s.core (.comp k)
  match c.vq.find? (fun e => e.id == n) with
  | none => s
  | some e =>
    let occ := (vectorPlan e).occ
    match e.instr with
    | .vld _ d _ _ z =>
      if e.bound.isSome && leavesSlice k e.home then
        if c.ops.any (fun o => o.id == n && !s.recovers o.home o.size) then
          let c := loadVector s c e d (2 ^ z.toNat)
          s.setCore (.comp k) { c with
            vready := mapSet c.vready d.toNat (max (s.now (.comp k)) ((mapGet c.vready d.toNat).getD 0))
            ops := pruneFences (.comp k) [] (c.ops.filter (fun o => o.id != n)) }
        else s
      else if e.bound.isSome && decide (e.performAt + 1 + e.pieces ≤ s.now (.comp k) + occ) && c.ops.any (fun o => o.id == n && !s.recovers o.home o.size) then
        let c := loadPiece s c e d (2 ^ z.toNat) e.pieces
        s.setCore (.comp k) { c with
          vq := c.vq.map (fun x => if x.id == n then { x with pieces := x.pieces + 1 } else x)
          ops := if occ ≤ e.pieces + 1 then pruneFences (.comp k) [] (c.ops.filter (fun o => o.id != n)) else c.ops }
      else s
    | _ => s

/-- A g result of the vector unit returns two cycles after the vector result (R264); part of LOAD_RETURN. -/
def returnVector (s : State) (k n : Nat) : State :=
  let c := s.core (.comp k)
  match c.vq.find? (fun e => e.id == n) with
  | none => s
  | some e =>
    match e.bound, e.result with
    | some (_, f), some w =>
      if f + 2 ≤ s.now (.comp k) then
        s.modCore (.comp k) (fun c =>
          let c := { c with vq := c.vq.filter (fun x => x.id != n) }
          match e.dst with
          | some d => c.returnReg n d (Reg.ofWord w)
          | none => c)
      else s
    | _, _ => s

/-- Entries whose results are all written leave the queue, and the arbiter's counters move (R197, R208): part of a die
cycle. -/
def vectorTick (s : State) (k : Nat) : State :=
  let c := s.core (.comp k)
  if c.vq.isEmpty && c.vwait == 0 && c.vcredit == 0 then s else
  let t := s.now (.comp k)
  let vq := c.vq.filter (fun e => match e.bound with
    | some (_, f) => e.result.isSome || decide (f > t) || c.ops.any (fun o => o.id == e.id)
    | none => true)
  let s := s.setCore (.comp k) { c with vq := vq }
  if headReady s k then
    let (w, cr) := arbiterCount s k
    s.modCore (.comp k) (fun c => { c with vwait := w, vcredit := cr })
  else s

end Sys2Proof.Machine
end

