-- ==== Sys2Proof/Machine/Engine.lean ====
section
/-! DEFINITION. What the engines share: where an operand lies, when a queue's head may be accepted (R108, R112, R205), how a
command completes (R192, R225, R313, R315) or faults (R105), event bits and barriers (R327, R331), and the beats of Rill
streams (R304). The store side's two steps that also serve vector accesses stand here (R72, R180-R183, R264). -/

namespace Sys2Proof.Machine
open Sys2Proof

/-! ## The store side -/

/-- The home lies in the core's own slice or scratchpad. -/
def ownHome (c : CoreId) (h : Nat) : Bool :=
  match c with
  | .comp k => !leavesSlice k h
  | .mem m => decide (scratchpadHome m 0 ≤ h ∧ h < scratchpadHome (m + 1) 0)

/-- An access of a core performs at its home, and what it writes there is noted as the core's own (R126): the state after it and the value
it delivers. -/
def performOwn (s : State) (c : CoreId) (o : MemOp) : State × Reg :=
  let (s', v) := performAt s o (forwards (opsBefore (s.core c).ops o.id) o)
  (if o.kind.isStore then s'.notePieces c [(o.home, o.size)] else s', v)

/-- The access performs: a store leaves the list, a load or atomic keeps its value until it returns. A later store to the own
slice that has waited for a near one performs no sooner than the cycle after it (R182). -/
def performOp (s : State) (c : CoreId) (o : MemOp) : State :=
  let (s', v) := performOwn s c o
  let after (p : MemOp) : MemOp :=
    if o.kind.buffered && o.near && p.kind.buffered && decide (o.id < p.id) && ownHome c p.home then
      { p with due := p.due.map (fun t => max t (s.now c + 1)) }
    else p
  s'.modCore c (fun x => { x with ops := pruneFences c [] ((keep x o.id o.kind v).map after) })
where
  /-- The list after the access. -/
  keep (x : Core) (n : Nat) (k : MemKind) (v : Reg) : List MemOp :=
    if k.isLoad then x.ops.map (fun p => if p.id == n then { p with value := some v } else p)
    else x.ops.filter (fun p => p.id != n)

/-- A store that leaves core k performs; in a checked pair it goes once, for both cores, when the partner's oldest is its twin
(R123). -/
def performLeaving (s : State) (k : Nat) (o : MemOp) : State :=
  match s.partner k with
  | none => performOp s (.comp k) o
  | some p =>
    match s.nextAway k, s.nextAway p with
    | some (.inl a), some (.inl b) =>
      if a.id = o.id ∧ a.twin b ∧ mayPerform (.comp p) (opsBefore (s.core (.comp p)).ops b.id) b then
        let v := (performAt s o none).2
        (performOp s (.comp k) o).modCore (.comp p) (fun x => { x with
          ops := pruneFences (.comp p) [] (performOp.keep x b.id b.kind v) })
      else s
    | _, _ => s

/-- STORE_PERFORM (R180-R183, R264): an access of a core performs at its home when everything that must precede it has; a
store then leaves the buffer, a load or atomic keeps its value until it returns. An own-slice store performs on its cycle
(R182), a `vst` on the last cycle of its occupancy, a `vld` from the own slice piece by piece. [DESIGN CHOICE A2, safe] [DESIGN CHOICE A8, unsafe] -/
def execStorePerform (c : CoreId) (n : Nat) (s : State) : Host.Outcome State Fault Refusal :=
  if !c.wf then .fault .noSuchUnit else
  let x := s.core c
  match x.ops.find? (fun o => o.id == n) with
  | none => .next s
  | some o =>
    if o.kind.isVector then .next (match c with | .comp k => if o.kind == .vector true then performVst s k n else performVld s k n | .mem _ => s) else
    let due := match o.due with | some t => o.kind.isLoad || decide (t ≤ s.now c) | none => true
    if o.value.isNone && due && mayPerform c (opsBefore x.ops n) o && !o.kind.isFence && o.kind != .deposit && !s.recovers o.home o.size && !s.ownWrote c o then
      .next (match c with
        | .comp k => if o.kind.isStore && leavesSlice k o.home then performLeaving s k o else performOp s c o
        | .mem _ => performOp s c o)
    else .next s

/-- A result returns to register d (R62, R72); the status of a `launch` into a register bound to writing enters the store buffer as a store,
at the place that the `launch` has taken (R61). [DEDUCED A92, unsafe] -/
def returnTo (s : State) (c : CoreId) (o : MemOp) (d : Nat) (v : Reg) : State :=
  if o.isAppend then
    let due := if ownHome c o.home then s.now c + 4 else s.now c
    s.modCore c (fun x => { x with ops := x.ops.map (fun p => if p.id == o.id then
      { o with kind := .store, data := v.w0.toNat % 256 ^ o.size, dst := none, due := some due, value := none } else p) })
  else
    s.modCore c (fun x => ({ x with ops := pruneFences c [] (x.ops.filter (fun p => p.id != o.id)) } : Core).returnReg o.id d v)

/-- LOAD_RETURN (R72, R264): a long-latency result returns to its register; a load that has not performed performs first. [DESIGN CHOICE A8, unsafe] -/
def execLoadReturn (c : CoreId) (n : Nat) (s : State) : Host.Outcome State Fault Refusal :=
  if !c.wf then .fault .noSuchUnit else
  let x := s.core c
  match x.ops.find? (fun o => o.id == n) with
  | none => .next (match c with | .comp k => returnVector s k n | .mem _ => s)
  | some o =>
    let earlier := opsBefore x.ops n
    let due := match o.due with | some t => decide (t ≤ s.now c) | none => true
    let ok := due && (o.value.isSome || (o.kind.isLoad && mayPerform c earlier o && !s.recovers o.home o.size && !s.ownWrote c o))
    if ok then
      let (s', v) := match o.value with
        | some v => (s, v)
        | none => performOwn s c o
      .next (match o.dst with
        | some d => returnTo s' c o d v
        | none => s'.modCore c (fun x => { x with ops := pruneFences c [] (x.ops.filter (fun p => p.id != n)) }))
    else .next s

/-! ## Where operands lie -/

/-- Home of the slot in W_n of a command. -/
def Cmd.home (k : Cmd) (c : CoreId) (n : Nat) : Nat := rawHome c (k.addr n).toNat

/-! ## Acceptance -/

/-- Do a core's queues dispatch (R106, R108, R112): while they are held, what system code pushes between `qsave` and the `qload` that
refills them. [DEDUCED A93, unsafe] -/
def Core.dispatches (c : Core) : Bool := !c.isHeld || (c.eng.saved && !c.eng.refilled)

/-- The head of queue n of a core. -/
def Core.head (c : Core) (n : Nat) : Option Cmd := (c.eng.queue n).head?

/-- A block that is being recovered and that a command touches; for external memory any external one (R141). -/
def heldBlock (s : State) (c : CoreId) (k : Cmd) : Option Nat :=
  s.module.recovering.find? (fun b => (restoredRanges c k).any (fun r =>
    if r.place.external then decide (4096 * b < lpddrEnd)
    else decide (4096 * b < r.place.home + r.len ∧ r.place.home < 4096 * b + 4096)))

/-- Are the accesses of an untimed command held by a recovery (R141). -/
def heldByRecovery (s : State) (c : CoreId) (k : Cmd) : Bool := !cmdT k.word && (heldBlock s c k).isSome

/-- Is an order of sequence numbers a before b (R105). -/
def seqBefore (a b : BitVec 32) : Bool := bitAt (a - b) 31

/-- May a command at its queue's head be accepted on this cycle as far as its queue goes: one cycle after it entered, and a
timed one exactly when GCYC equals W1 (R205); one that touches a block under recovery waits, or raises ECC when it is timed (R141). -/
def onTime (s : State) (c : CoreId) (k : Cmd) : Bool :=
  let x := s.core c
  x.dispatches && decide (k.enters + 1 ≤ s.now c) && (heldBlock s c k).isNone &&
    (!cmdT k.word || (x.sys.gcycHeld.isNone && s.gcyc c == BitVec.ofNat 32 (cmdStart k.word)))

/-- Take the head of queue n; the command ring says accepted (R315). -/
def Core.take (c : Core) (n : Nat) (k : Cmd) : Core :=
  { c with eng := (c.eng.setQueue n (c.eng.queue n).tail).mark k.seq 1 }

/-- Put a stopped command back at the head of its queue (R108). -/
def Core.requeue (c : Core) (n : Nat) (k : Cmd) : Core :=
  { c with eng := (c.eng.setQueue n (k :: c.eng.queue n)).mark k.seq 3 }

/-! ## Event bits, barriers, completion and faults -/

/-- Let a set or a clear of event bits land on a cycle; an `evpost` has no fixed one (R327). -/
def State.land (s : State) (q : Nat) (due : Option Nat) (isSet : Bool) (mask : BitVec 256) (src : Option Nat := none) : State :=
  let x := s.cluster q
  s.setCluster q { x with landing := x.landing ++ [⟨due, isSet, mask, src⟩] }

/-- The mask of one event bit. -/
def eventMask (e : Nat) : BitVec 256 := BitVec.ofNat 256 (2 ^ e)

/-- Add 1 to the barrier object a command names (R331). -/
def countBarrier (s : State) (c : CoreId) (k : Cmd) : State :=
  if k.has 7 then
    let h := k.home c 7
    (s.writeNum h 8 ((s.num h 8 + 1) % 2 ^ 64)).forgetOwn h 8
  else s

/-- A command completes: its Sluice entries clear, the ring says completed, its event bit is set (R20, R192, R225, R313). -/
def completeCommand (s : State) (c : CoreId) (k : Cmd) : State :=
  let s := s.modCore c (fun x => { x with eng :=
    { x.eng.mark k.seq 2 with sluice := x.eng.sluice.filter (fun e => e.seq != k.seq) } })
  if cmdE k.word then s.land (clusterOf c) (some (s.now c)) true (eventMask (cmdEvent k.word)) else s

/-- An engine raises a fault for a command (R105, R290): it waits for the core's next boundary. [DEDUCED A34, unsafe] [DEDUCED A66, safe] -/
def engineFault (s : State) (c : CoreId) (code val : Nat) (seq : Option (BitVec 32)) (source : Nat) (fatal : Bool) : State :=
  s.modCore c (fun x => { x with
    issue := { x.issue with faults := x.issue.faults ++ [⟨code, BitVec.ofNat 64 val, seq, source, fatal, s.now c⟩] }
    eng := match seq with | some q => x.eng.mark q 4 | none => x.eng })

/-- The global address of a home in SRAM (R128). [DEDUCED A39, unsafe] -/
def homeAddress (h : Nat) : Nat := if Config.sramHome ≤ h ∧ h < Config.sramHome + Config.sramSize then h - Config.sramHome + Config.sramBase else h

/-- ECC at core c, imprecise and fatal, from the memory manager (R141). [DEDUCED A39, unsafe] -/
def eccFault (s : State) (c : CoreId) (h : Nat) : State := engineFault s c causeEcc (homeAddress h) none 9 true

/-! ## Beats of Rill streams (R304) -/

/-- Cut bytes into beats of 64; a last one may be shorter (R231). [DEDUCED A51, unsafe] -/
def beatsOf (bs : List Byte) : List (List Byte) :=
  (List.range (ceilDiv bs.length 64)).map (fun i => (bs.drop (64 * i)).take 64)

/-- The state with a stream changed. -/
def State.modStream (s : State) (n : Nat) (f : Stream → Stream) : State :=
  match mapGet s.streams n with
  | some t => { s with streams := mapSet s.streams n (f t) }
  | none => s

/-- Beats leave while there is credit, each taking a unit of it. -/
def Stream.leave : Nat → Stream → Stream
  | 0, t => t
  | fuel + 1, t =>
    match t.pending with
    | [] => t
    | (_, b) :: r => if t.credit = 0 then t else
        Stream.leave fuel { t with pending := r, flying := t.flying ++ [b], credit := t.credit - 1 }

/-- Place bytes of a command on a stream, behind what the core has placed before (R304). [DEDUCED A51, unsafe] -/
def placeBytes (s : State) (n : Nat) (q : BitVec 32) (bs : List Byte) : State :=
  s.modStream n (fun t =>
    let t := { t with pending := t.pending ++ (beatsOf bs).map (fun b => (q, b)) }
    t.leave t.pending.length)

/-- Has every beat of a command left. -/
def State.allLeft (s : State) (n : Nat) (q : BitVec 32) : Bool :=
  match mapGet s.streams n with
  | some t => t.pending.all (fun p => p.1 != q)
  | none => true

/-- The stream of a ring command (R40). -/
def ringStream (k : Cmd) : Nat := cmdW6 k.word % 2 ^ 16

/-- The stream that a DRAIN names, if it names one (R231). -/
def drainStream (k : Cmd) : Option Nat :=
  if cmdOp k.word = 3 ∧ fmtD (cmdFmt k.word) = 2 then some (bitsAt (wordAt k.word 7) 0 16) else none

/-- Is an RSEND of the core on stream n, with an earlier number than q, still to place its beats (R304)? A DRAIN waits for it, and an
RSEND; an RSEND waits for no DRAIN, since the ring engine waits on the Onold ring alone (R199). [DEDUCED A51, unsafe] -/
def earlierBeats (x : Core) (n : Nat) (q : BitVec 32) : Bool :=
  (x.eng.queue 5).any (fun k => cmdOp k.word == 1 && ringStream k == n && seqBefore k.seq q) ||
    x.eng.ringRuns.any (fun r => cmdOp r.cmd.word == 1 && ringStream r.cmd == n && r.done == 0 && seqBefore r.cmd.seq q)

end Sys2Proof.Machine
end

