-- ==== Sys2Proof/Machine/Matrix.lean ====
section
/-! DEFINITION. The matrix slice (R217-R243): operand forms of activations, packed trits and seeded tiles (R148-R157), windows and
their costs (R227), MM.T, MM.S, DRAIN, STEST and its injection, SRCH and RESID, and the joint array. -/

namespace Sys2Proof.Machine
open Sys2Proof

/-! ## Trits (R153, R157) -/

/-- The five trits of a byte; codes 243-255 are five zeros (R153). -/
def byteTrits (b : Byte) : List Int :=
  let n := b.toNat
  if n < 243 then [(n % 3 : Nat), (n / 3 % 3 : Nat), (n / 9 % 3 : Nat), (n / 27 % 3 : Nat), (n / 81 % 3 : Nat)].map (fun (x : Nat) => (x : Int) - 1)
  else [0, 0, 0, 0, 0]
/-- A code that sets BADTRIT (R153). -/
def badTritCode (b : Byte) : Bool := decide (243 ≤ b.toNat)

/-- One step of the generator's register (R157). -/
def springStep (s : BitVec 32) : BitVec 32 := if bitAt s 0 then (s >>> 1) ^^^ 0x8020_0003 else s >>> 1
/-- The register after k steps. -/
def springSkip : Nat → BitVec 32 → BitVec 32
  | 0, s => s
  | k + 1, s => springSkip k (springStep s)
/-- The state in which a column starts (R157). -/
def springStart (seed : BitVec 32) (n : Nat) : BitVec 32 :=
  let s := seed ^^^ BitVec.ofNat 32 (n * 0x9E37_79B9)
  if s = 0 then 1 else s
/-- The trit that the next two output bits give. -/
def springTrit (s : BitVec 32) : Int :=
  match bitAt s 0, bitAt (springStep s) 0 with
  | true, false => 1
  | false, true => -1
  | _, _ => 0
/-- G(seed)[k][n] of R157. [DEDUCED A10, safe] -/
def generatorTrit (seed : BitVec 32) (k n : Nat) : Int := springTrit (springSkip (2 * k) (springStart seed n))
/-- The next trits of a register. -/
def springRun : Nat → BitVec 32 → List Int
  | 0, _ => []
  | k + 1, s => springTrit s :: springRun k (springStep (springStep s))
/-- Trits k0 to k0 + K - 1 of a column (R157). -/
def springColumn (seed : BitVec 32) (n k0 K : Nat) : List Int := springRun K (springSkip (2 * k0) (springStart seed n))

/-! ## Seeded descriptors (R156) -/

/-- A seeded tile: k0, n0 and the terms with their coefficients. -/
structure Seeded where
  k0 : Nat
  n0 : Nat
  terms : List (BitVec 32 × Int)

/-- Read and check a descriptor through a reader of its bytes, of which `room` exist (R156, R229). [DEDUCED A24, safe] -/
def readSeeded (get : Nat → Byte) (room K N : Nat) : Option Seeded :=
  let num (o n : Nat) : Nat := leNat ((List.range n).map (fun i => get (o + i)))
  let J := num 1 1
  let term (j : Nat) : BitVec 32 × Int :=
    let c := num (16 + 16 * j + 4) 1
    (BitVec.ofNat 32 (num (16 + 16 * j) 4), (if c ≥ 128 then -1 else 1) * (2 ^ (c % 16) : Nat))
  let clean (j : Nat) : Bool := num (16 + 16 * j + 4) 1 / 16 % 8 == 0 && num (16 + 16 * j + 5) 11 == 0
  if num 0 1 = 1 ∧ 1 ≤ J ∧ J ≤ 8 ∧ num 2 2 = K ∧ num 4 2 = N ∧ num 6 2 = 0 ∧ num 14 2 = 0 ∧ 16 + 16 * J ≤ room ∧
      (List.range J).all clean then
    some ⟨num 8 4, num 12 2, (List.range J).map term⟩
  else none

/-! ## The operand port -/

/-- What one slice brings to a product: the lane values of a row, whether a row holds a NaN block code (R149) or a block above
EMAX (R151), the windows or steps of a row, their cost (R227), the nonzero trits of a window and column with their factor, and
whether a window holds a bad code. -/
structure Part where
  lane : Nat → Nat → Int
  bad : Nat → Bool
  clamp : Nat → Bool
  units : Nat
  cost : Nat → Nat
  weights : Nat → Nat → List (Nat × Int)
  badTrit : Nat → Bool

/-- v × 2^s for s < 0, ties to even (R151). -/
def rneDown (v s : Int) : Int := if v < 0 then -((rneShift v.natAbs s : Nat) : Int) else ((rneShift v.natAbs s : Nat) : Int)

/-- The lane value of an element under its block's code and EMAX (R151). -/
def mxLane (v : Int) (code emax : Nat) : Int :=
  let s : Int := (code : Int) - ((emax : Int) - 8)
  if s < 0 then rneDown v s
  else if s ≤ 8 then v * (2 ^ s.toNat : Nat)
  else clampInt (-65536) 65535 (v * (2 ^ s.toNat : Nat))

/-- The activation side of a part: rows at a home (R148), and the scale array at another (R150, R151). -/
def activations (s : State) (acts : Nat) (scales : Option Nat) (K : Nat) : (Nat → Nat → Int) × (Nat → Bool) × (Nat → Bool) :=
  let el (m k : Nat) : Int := (s.byte (acts + rowBytes K * m + k)).toInt
  match scales with
  | none => (el, fun _ => false, fun _ => false)
  | some h =>
    let code (m j : Nat) : Nat := (s.byte (h + scaleRow K * m + 1 + j)).toNat
    let emax (m : Nat) : Nat := (s.byte (h + scaleRow K * m)).toNat
    let blocks := List.range (ceilDiv K 32)
    (fun m k => mxLane (el m k) (code m (k / 32)) (emax m),
     fun m => blocks.any (fun j => code m j == 255),
     fun m => blocks.any (fun j => decide (code m j > emax m)))

/-- The nonzero trits of window w of column n of a packed tile, by K index (R154, R227). -/
def windowTrits (get : Nat → Byte) (K n w : Nat) : List (Nat × Int) :=
  let hi := min K (320 * (w + 1))
  ((List.range (ceilDiv (hi - 320 * w) 5)).flatMap (fun i =>
    ((byteTrits (get (n * tileBytes K + 64 * w + i))).zipIdx).map (fun (t, j) => (320 * w + 5 * i + j, t)))).filter
      (fun p => p.2 != 0 && decide (p.1 < hi))

/-- The weight side of MM.T from the tile's bytes (R153, R154, R227), with L lanes. -/
def packedPart (a : (Nat → Nat → Int) × (Nat → Bool) × (Nat → Bool)) (get : Nat → Byte) (K N L : Nat) : Part :=
  { lane := a.1, bad := a.2.1, clamp := a.2.2
    units := ceilDiv K 320
    cost := fun w => max 1 (ceilDiv ((List.range N).foldl (fun m n => max m (windowTrits get K n w).length) 0) L)
    weights := fun w n => windowTrits get K n w
    badTrit := fun w => (List.range N).any (fun n => (List.range (ceilDiv (min K (320 * (w + 1)) - 320 * w) 5)).any
      (fun i => badTritCode (get (n * tileBytes K + 64 * w + i)))) }

/-- The weight side of MM.S (R157, R229), with L lanes: step u of a row is step u mod S of term u / S. -/
def seededPart (a : (Nat → Nat → Int) × (Nat → Bool) × (Nat → Bool)) (d : Seeded) (K L : Nat) : Part :=
  let S := ceilDiv K L
  { lane := a.1, bad := a.2.1, clamp := a.2.2
    units := d.terms.length * S
    cost := fun _ => 1
    weights := fun u n =>
      match d.terms[u / S]? with
      | none => []
      | some (seed, f) =>
        let lo := L * (u % S)
        ((springColumn seed (d.n0 + n) (d.k0 + lo) (min K (lo + L) - lo)).zipIdx.filter (fun p => p.1 != 0)).map
          (fun (t, i) => (lo + i, f * t))
    badTrit := fun _ => false }

/-! ## The product -/

/-- A running sum in INT32 with the overflow of its steps (R228). -/
def accumulate (r : Int) (xs : List Int) : Int × Bool :=
  xs.foldl (fun (acc : Int × Bool) x =>
    let y := acc.1 + x
    (wrap32 y, acc.2 || decide (y < -2147483648 ∨ 2147483647 < y))) (r, false)

/-- A product as one core sees it: the parts whose sums its cells take, ascending, joined by sums when deep (R239), whether it
holds the cells, its own part, and the windows of a row with their costs. -/
structure Product where
  M : Nat
  N : Nat
  acc : Bool
  bank : Nat
  deep : Bool
  holds : Bool
  parts : List Part
  own : Part
  costs : List Nat

/-- N cells of a row as integers. -/
def rowCells (cells : List (Nat × BitVec 32)) (key N : Nat) : List Int :=
  (List.range N).map (fun n => ((mapGet cells (key + n)).getD 0).toInt)

/-- The cells with a run replaced; a zero cell is not listed. -/
def spliceCells (cells : List (Nat × BitVec 32)) (key : Nat) (vals : List (BitVec 32)) : List (Nat × BitVec 32) :=
  cells.filter (fun p => decide (p.1 < key)) ++
    (vals.zipIdx.map (fun (v, i) => (key + i, v))).filter (fun p => p.2 != 0) ++
    cells.filter (fun p => decide (key + vals.length ≤ p.1))

/-- The products of a column with a row's lanes in one window. -/
def Part.products (p : Part) (m u n : Nat) : List Int := (p.weights u n).map (fun (k, t) => t * p.lane m k)

/-- One cell over one window: the sum and whether a step overflowed (R228, R229, R239). -/
def Product.cell (x : Product) (m u n : Nat) (r : Int) : Int × Bool :=
  if x.deep then
    x.parts.foldl (fun (acc : Int × Bool) p =>
      let si := accumulate 0 (p.products m u n)
      let a := accumulate acc.1 [si.1]
      (a.1, acc.2 || si.2 || a.2)) (r, false)
  else x.parts.foldl (fun (acc : Int × Bool) p =>
      let a := accumulate acc.1 (p.products m u n)
      (a.1, acc.2 || a.2)) (r, false)

/-- The OVF bits of the banks of some cells of a row set (R69, R221). -/
def setOvfs (mstat : Word) (key : Nat) (flags : List Bool) : Word :=
  flags.zipIdx.foldl (fun w (b, n) => if b then setOvf w ((key + n) / 512) true else w) mstat

/-- The first cell of the row that window i belongs to. -/
def Product.key (x : Product) (i : Nat) : Nat := 512 * x.bank + i / x.costs.length * x.N

/-- The flags that a row sets as it begins: OVF of its banks when it holds a block above EMAX (R151). -/
def Product.clampFlags (x : Product) (i : Nat) : Word :=
  if i % x.costs.length = 0 ∧ x.holds ∧ x.parts.any (fun p => p.clamp (i / x.costs.length)) then
    setOvfs 0 (x.key i) (List.replicate x.N true) else 0

/-- The sums of window i: the cells after it, and the flags it sets (R153, R228, R229, R239). -/
def Product.sums (x : Product) (i : Nat) (cells : List (Nat × BitVec 32)) : List (Nat × BitVec 32) × Word :=
  let m := i / x.costs.length
  let u := i % x.costs.length
  let bad : Word := if x.own.badTrit u then setBadTrit 0 else 0
  if !x.holds then (cells, bad) else
  let before := if u = 0 ∧ !x.acc then List.replicate x.N 0 else rowCells cells (x.key i) x.N
  let res := before.zipIdx.map (fun (r, n) => x.cell m u n r)
  (spliceCells cells (x.key i) (res.map (fun p => BitVec.ofInt 32 p.1)), setOvfs bad (x.key i) (res.map (fun p => p.2)))

/-- Window i of a product: the cells and MSTAT after it (R151, R153, R228, R229, R239). -/
def Product.window (x : Product) (i : Nat) (st : List (Nat × BitVec 32) × Word) : List (Nat × BitVec 32) × Word :=
  let (cells, flags) := x.sums i st.1
  (cells, st.2 ||| x.clampFlags i ||| flags)

/-- Windows i to i + n - 1 in order. -/
def Product.windows (x : Product) : Nat → Nat → List (Nat × BitVec 32) × Word → List (Nat × BitVec 32) × Word
  | 0, _, st => st
  | n + 1, i, st => x.windows n (i + 1) (x.window i st)

/-- The flags of windows i to i + n - 1, each with its cycle and its window: those of a row as it begins, those of a window as it ends; `at0` gives the
cycle on which window i begins (R151, R228, R325). -/
def Product.flagTimes (x : Product) (at0 : Nat → Nat) : Nat → Nat → List (Nat × BitVec 32) → List (Nat × Nat × Word)
  | 0, _, _ => []
  | n + 1, i, cells =>
    let (cells', flags) := x.sums i cells
    ([(at0 i, i, x.clampFlags i), (at0 (i + 1), i, flags)].filter (fun p => p.2.2 != 0)) ++ x.flagTimes at0 n (i + 1) cells'

/-! ## Costs and points -/

/-- The cycles of the windows before one (R227). -/
def cyclesTo (costs : List Nat) (i : Nat) : Nat :=
  if costs.length = 0 then 0 else i / costs.length * costs.sum + (costs.take (i % costs.length)).sum

/-- The cycle on which a run passes the boundary before window i. -/
def ArrayRun.passes (r : ArrayRun) (i : Nat) : Nat := r.start + cyclesTo r.costs i - cyclesTo r.costs r.origin

/-- The windows of a whole run. -/
def ArrayRun.total (r : ArrayRun) : Nat := r.rows * r.costs.length

/-- Windows passed by a cycle. -/
def ArrayRun.at (r : ArrayRun) (t : Nat) : Nat :=
  if r.costs.length = 0 then 0 else
  let e := t - r.start + cyclesTo r.costs r.origin
  let row := e / r.costs.sum
  let w := ((List.range r.costs.length).filter (fun i => decide ((r.costs.take (i + 1)).sum ≤ e % r.costs.sum))).length
  min r.total (row * r.costs.length + w)

/-- The first boundary at or after a cycle, past the start of the run (R108, R119). [DEDUCED A94, unsafe] -/
def ArrayRun.boundary (r : ArrayRun) (t : Nat) : Nat :=
  let i := r.at (max t (r.start + 1))
  if r.passes i < max t (r.start + 1) then i + 1 else i

/-- Steps of one term in a row, for the place of a window in PROGRESS (R70); 0 terms for MM.T. -/
def stepsOf (w : BitVec 256) (L : Nat) (units : Nat) : Nat := if cmdOp w = 2 then ceilDiv (cmdK w) L else units

/-- PROGRESS for a window (R70, R241). [DEDUCED A84, unsafe] -/
def progressWord (origin kind i units steps : Nat) : Word :=
  let row := if units = 0 then 0 else i / units
  let u := if units = 0 then 0 else i % units
  BitVec.ofNat 64 (origin % 2 ^ 32 * 2 ^ 32 + row % 2 ^ 13 * 2 ^ 19 +
    (if steps = 0 then 0 else u % steps) % 2 ^ 11 * 2 ^ 8 + (if steps = 0 then 0 else u / steps) % 8 * 2 ^ 5 + kind * 4)

/-- The window that PROGRESS names. [DEDUCED A84, unsafe] -/
def progressPoint (p : Word) (units steps : Nat) : Nat := bitsAt p 19 13 * units + bitsAt p 5 3 * steps + bitsAt p 8 11

/-! ## Commands and their parts -/

/-- The bytes of a slot. -/
def slotReader (s : State) (c : CoreId) (k : Cmd) (n : Nat) : Nat → Byte := let h := k.home c n; fun i => s.byte (h + i)

/-- The usable lanes of a core's slice. -/
def State.lanes (s : State) (c : Nat) : Nat := laneCount (s.core (.comp c)).sys.mstat

/-- The activations of a command of core c (R220, R228). -/
def commandActs (s : State) (c : Nat) (k : Cmd) : (Nat → Nat → Int) × (Nat → Bool) × (Nat → Bool) :=
  activations s (k.home (.comp c) 2) (if fmtA (cmdFmt k.word) = 1 then some (k.home (.comp c) 7) else none) (cmdK k.word)

/-- The seeded descriptor of an MM.S command, within the bounds its slot gave (R229). -/
def commandSeeded (s : State) (c : Nat) (k : Cmd) : Option Seeded :=
  readSeeded (slotReader s (.comp c) k 3) ((k.slot 3).top - k.addr 3).toNat (cmdK k.word) (cmdN k.word)

/-- The part of a command of core c with given activations and lanes; none when its descriptor is invalid. -/
def commandPart (s : State) (c : Nat) (k : Cmd) (a : (Nat → Nat → Int) × (Nat → Bool) × (Nat → Bool)) (L : Nat) : Option Part :=
  if cmdOp k.word = 1 then some (packedPart a (slotReader s (.comp c) k 3) (cmdK k.word) (cmdN k.word) L)
  else (commandSeeded s c k).map (fun d => seededPart a d (cmdK k.word) L)

/-- The windows of a row and their costs: of joined slices the largest (R227, R240). [DEDUCED A47, unsafe] -/
def joinCosts (ps : List Part) : List Nat :=
  let W := ps.foldl (fun m p => max m p.units) 0
  (List.range W).map (fun u => ps.foldl (fun m p => if u < p.units then max m (p.cost u) else m) 1)

/-- The pages of a payload, and the state after the walks: of each its home and the offset at which what is mapped of it ends, none where it
does not translate (R135, R248, R370). -/
def payloadPages (s : State) (c base len : Nat) : List (Option (Nat × Nat)) × State :=
  if len = 0 then ([], s) else
  (List.range ((base + len - 1) / 4096 - base / 4096 + 1)).foldl (fun (acc : List (Option (Nat × Nat)) × State) i =>
    let page := (base / 4096 + i) * 4096
    let va := max base page
    if isExternal va then
      match acc.2.translateFetch c (s.core (.comp c)).context va with
      | some (h, n, s') => (acc.1 ++ [some (h - va % 4096, va % 4096 + n)], s')
      | none => (acc.1 ++ [none], acc.2)
    else (acc.1 ++ [some (rawHome (.comp c) page, 4096)], acc.2)) ([], s)

/-- A byte of a payload; one that no page holds is not read (R260). -/
def payloadByte (s : State) (base : Nat) (pages : List (Option (Nat × Nat))) (i : Nat) : Byte :=
  match pages.getD ((base + i) / 4096 - base / 4096) none with
  | some (h, stop) => if (base + i) % 4096 < stop then s.byte (h + (base + i) % 4096) else 0
  | none => 0

/-- The first of n addresses of a payload that does not translate (R135, R260, R370). -/
def payloadMiss (base : Nat) (pages : List (Option (Nat × Nat))) (a n : Nat) : Option Nat :=
  pages.zipIdx.findSome? (fun (p, j) =>
    let page := (base / 4096 + j) * 4096
    let first := max a (page + (p.map (fun h => h.2)).getD 0)
    if first < min (a + n) (page + 4096) then some first else none)

/-- Bytes of the payload that a block's command reads: of a descriptor, those of its terms (R156, R249). -/
def blockBytes (s : State) (c : Nat) (k : Cmd) : Nat :=
  if cmdOp k.word = 1 then cmdN k.word * tileBytes (cmdK k.word)
  else min 144 (16 + 16 * (payloadByte s k.base (payloadPages s c k.base 16).1 1).toNat)

/-- The product of an MM.T or MM.S block of M rows on L lanes, its weights in the payload (R249, R253). -/
def blockProduct (s : State) (c : Nat) (k : Cmd) (M : Nat) (pages : List (Option (Nat × Nat))) (L : Nat := s.lanes c) : Option Product :=
  let K := cmdK k.word
  let N := cmdN k.word
  let h := k.home (.comp c) 2
  let a := activations s h (if fmtA (cmdFmt k.word) = 1 then some (h + cmdM k.word * rowBytes K) else none) K
  let get := payloadByte s k.base pages
  let p := if cmdOp k.word = 1 then some (packedPart a get K N L)
    else (readSeeded get 144 K N).map (fun d => seededPart a d K L)
  p.map (fun p => ⟨M, N, cmdAcc k.word, cmdBank k.word, false, true, [p], p, joinCosts [p]⟩)

/-- Where an untranslated payload line stops a packed block: the first window from `origin` that needs it, and the first address of the
line that does not translate (R260). -/
def lineStop (k : Cmd) (x : Product) (pages : List (Option (Nat × Nat))) (origin : Nat) : Option (Nat × ArrayEnd) :=
  if cmdOp k.word ≠ 1 then none else
  let W := x.costs.length
  let P := tileBytes (cmdK k.word)
  let miss (w : Nat) : Option Nat := ((List.range x.N).map (fun n => k.base + n * P + 64 * w)).findSome? (fun a =>
    payloadMiss k.base pages a 64)
  ((List.range W).filterMap (fun j =>
    if origin + j < x.M * W then (miss ((origin + j) % W)).map (fun va => (origin + j, ArrayEnd.xlate va)) else none)).head?

/-- The product of a command of one slice on L lanes. -/
def singleProduct (s : State) (c : Nat) (k : Cmd) (L : Nat := s.lanes c) : Option Product :=
  (commandPart s c k (commandActs s c k) L).map (fun p =>
    ⟨cmdM k.word, cmdN k.word, cmdAcc k.word, cmdBank k.word, false, true, [p], p, joinCosts [p]⟩)

/-- The joint command of core c: on its array, or at the head of its queue. -/
def jointCmd (s : State) (c : Nat) : Option Cmd :=
  match (s.core (.comp c)).eng.array with
  | some r => if r.cmd.joint.isSome then some r.cmd else none
  | none => (s.core (.comp c)).head 0

/-- The usable lanes of a joint operation of quad q: the fewest of its slices (R234, R238). [DEDUCED A47, unsafe] -/
def State.jointLanes (s : State) (q : Nat) : Nat := (List.range 4).foldl (fun m i => min m (s.lanes (4 * q + i))) 64

/-- The usable lanes for a command of core c (R234). -/
def State.lanesFor (s : State) (c : Nat) (k : Cmd) : Nat := if k.joint.isSome then s.jointLanes (c / 4) else s.lanes c

/-- The products of a joint operation of quad q on L lanes, core by core (R238, R239); none for a core whose descriptor is invalid.
[DEDUCED A47, unsafe] -/
def jointProducts (s : State) (q : Nat) (wide : Bool) (ks : List Cmd) (L : Nat := s.jointLanes q) : List (Option Product) :=
  let lead := ks.head?.map (commandActs s (4 * q))
  let ps := ks.zipIdx.map (fun (k, i) =>
    commandPart s (4 * q + i) k (if wide then lead.getD (commandActs s (4 * q) k) else commandActs s (4 * q + i) k) L)
  let all := ps.filterMap id
  let costs := joinCosts all
  (ks.zip ps).zipIdx.map (fun ((k, p), i) => p.map (fun (p : Part) =>
    (⟨cmdM k.word, cmdN k.word, cmdAcc k.word, cmdBank k.word, !wide, wide || i == 0, if wide then [p] else all, p, costs⟩ : Product)))

/-- The product of the command that runs on core c's array, on the lanes it was accepted with (R242). -/
def runningProduct (s : State) (c : Nat) (r : ArrayRun) : Option Product :=
  if r.isBlock then blockProduct s c r.cmd r.rows (payloadPages s c r.cmd.base (blockBytes s c r.cmd)).1 r.lanes else
  match r.cmd.joint with
  | none => singleProduct s c r.cmd r.lanes
  | some wide => (jointProducts s (c / 4) wide ((List.range 4).filterMap (fun i => jointCmd s (c / 4 * 4 + i))) r.lanes)[c % 4]?.join

/-! ## Starting -/

/-- Are the banks a command names zeroed (R174). -/
def banksReady (s : State) (c : Nat) (k : Cmd) : Bool :=
  let x := s.core (.comp c)
  (List.range 32).all (fun h => !k.names c h || decide (x.slice.zeroed.toList.getD h 0 ≤ s.now (.comp c)))

/-- Is the slice free for a command on this cycle, the FMT bubble of a matrix command included (R205, R224). [DEDUCED A47, unsafe] -/
def sliceFree (s : State) (c : Nat) (k : Cmd) : Bool :=
  let x := s.core (.comp c)
  let t := s.now (.comp c)
  x.eng.array.isNone && decide (x.eng.freeAt ≤ t) &&
    (cmdEngine k.word != 0 || cmdFmt k.word == x.slice.fmtRecord || x.eng.cmdEnd == 0 || decide (x.eng.cmdEnd + 6 ≤ t))

/-- Does the other of the two queues go first: an untimed head with an earlier number (R223). -/
def otherFirst (x : Core) (k : Cmd) : Bool :=
  !cmdT k.word && (match x.head (1 - cmdEngine k.word) with
    | some o => !cmdT o.word && seqBefore o.seq k.seq
    | none => false)

/-- May the command k at the head of a queue of core c be accepted by the slice on this cycle (R205, R223, R224). -/
def arrayAccepts (s : State) (c : Nat) (k : Cmd) : Bool :=
  onTime s (.comp c) k && sliceFree s c k && banksReady s c k && !otherFirst (s.core (.comp c)) k

/-- The head of queue n of core c when the slice accepts it now and it holds an op, alone. -/
def acceptable (s : State) (c n op : Nat) : Option Cmd :=
  match (s.core (.comp c)).head n with
  | some k => if cmdOp k.word = op ∧ k.joint.isNone ∧ arrayAccepts s c k then some k else none
  | none => none

/-- Where a NaN block code ends a product: the first row from a window on that reads one, as the window it begins with (R236). -/
def badWindow (x : Product) (origin : Nat) : Option (Nat × ArrayEnd) :=
  let W := x.costs.length
  ((List.range x.M).filter (fun m => decide (origin ≤ m * W) && x.parts.any (fun p => p.bad m))).head?.map (fun m => (m * W, .fault 0x0102))

/-- Start a product on core c's array for the command k, from the window `origin` (R225, R227, R228, R242): the run holds the cells
that it leaves and the flags that it sets on the way. [DESIGN CHOICE A7, unsafe] [DEDUCED A84, unsafe] -/
def startProduct (s : State) (c : Nat) (k : Cmd) (x : Product) (origin : Nat) (isBlock : Bool)
    (stop : Option (Nat × ArrayEnd)) : State :=
  let t := s.now (.comp c)
  let (upto, ending) := stop.getD (x.M * x.costs.length, .done)
  let basin := (s.core (.comp c)).slice.basin
  let at0 (i : Nat) : Nat := t + cyclesTo x.costs i - cyclesTo x.costs origin
  let run : ArrayRun :=
    { cmd := k, start := t, finish := if x.M = 0 then t + 1 else at0 upto, origin := origin, lanes := s.lanesFor c k, costs := x.costs, rows := x.M,
      span := if x.holds then (x.bank, spanBanks x.M x.N) else (0, 0)
      cells := (x.windows (upto - origin) origin (basin, 0)).1, bytes := []
      flags := x.flagTimes at0 (upto - origin) origin basin, ending := ending, isBlock := isBlock, bad := 0 }
  s.modCore (.comp c) (fun y => { y with
    slice := { y.slice with fmtRecord := cmdFmt k.word }
    eng := { y.eng with array := some run } })

/-- A command that is refused at acceptance: ENGINE, nothing written; the FMT record takes that of a matrix command (R224, R234,
R236). -/
def refuseAtAcceptance (s : State) (c : Nat) (k : Cmd) (code : Nat) : State :=
  let s := s.modCore (.comp c) (fun y => if cmdEngine k.word = 0 then { y with slice := { y.slice with fmtRecord := cmdFmt k.word } } else y)
  engineFault s (.comp c) causeEngine code (some k.seq) (engineSource (engineOf (cmdEngine k.word))) true

/-- The window at which a command resumes: that of PROGRESS when its origin names it (R241, R242, R315). -/
def resumeWindow (p : Word) (k : Cmd) (kind units steps : Nat) : Nat :=
  if bitsAt p 2 3 = kind ∧ BitVec.ofNat 32 (bitsAt p 32 32) = k.seq then progressPoint p units steps else 0

/-- Accept MM.T or MM.S alone (R205, R228, R229, R234, R236). -/
def acceptProduct (op c : Nat) (s : State) : State :=
  match acceptable s c 0 op with
  | none => s
  | some k =>
    let s := s.modCore (.comp c) (fun x => x.take 0 k)
    if s.lanes c = 0 then refuseAtAcceptance s c k 0x0105 else
    match singleProduct s c k with
    | none => refuseAtAcceptance s c k 0x0101
    | some x =>
      let W := x.costs.length
      let origin := resumeWindow (s.core (.comp c)).sys.progress k 1 W (stepsOf k.word (s.lanes c) W)
      startProduct s c k x origin false (badWindow x origin)

/-- MM_T (R228): the slice accepts the MM.T at the head of core c's matrix queue and multiplies. -/
def execMmT (c : Nat) (s : State) : Host.Outcome State Fault Refusal :=
  if c ≥ Config.computeCores then .fault .noSuchUnit else .next (acceptProduct 1 c s)

/-- MM_S (R229): the slice accepts the MM.S at the head of core c's matrix queue and multiplies by the seeded tile. -/
def execMmS (c : Nat) (s : State) : Host.Outcome State Fault Refusal :=
  if c ≥ Config.computeCores then .fault .noSuchUnit else .next (acceptProduct 2 c s)

/-! ## The joint array (R237-R240) -/

/-- Do the four commands agree (R240). [DEDUCED A47, unsafe] -/
def jointAgrees (ks : List Cmd) : Bool :=
  match ks with
  | [] => false
  | a :: r => r.all (fun b =>
      cmdOp a.word == cmdOp b.word && cmdT a.word == cmdT b.word && cmdStart a.word == cmdStart b.word &&
      cmdAcc a.word == cmdAcc b.word && cmdM a.word == cmdM b.word && cmdK a.word == cmdK b.word &&
      cmdFmt a.word == cmdFmt b.word && a.joint == b.joint && (a.joint == some true || cmdN a.word == cmdN b.word))

/-- Take the four heads and raise a code in those for which it holds. [DEDUCED A47, unsafe] -/
def refuseJoint (s : State) (q : Nat) (ks : List Cmd) (code : Nat) (who : Nat → Bool) : State :=
  ks.zipIdx.foldl (fun s (k, i) => if who i then
    refuseAtAcceptance (s.modCore (.comp (4 * q + i)) (fun x => x.take 0 k)) (4 * q + i) k code else s) s

/-- JOINT_OPERATION (R238-R240): the joint array takes the four parts that stand at the heads of their queues, all four
slices free, and runs them in step. -/
def execJointOperation (q : Nat) (s : State) : Host.Outcome State Fault Refusal :=
  if q ≥ 512 then .fault .noSuchUnit else
  let heads := (List.range 4).map (fun i => (s.core (.comp (4 * q + i))).head 0)
  let ks := heads.filterMap id
  if ks.length = 4 ∧ ks.all (fun k => k.joint.isSome) ∧
      (ks.zipIdx.all (fun (k, i) => let x := s.core (.comp (4 * q + i)); x.dispatches && decide (k.enters + 1 ≤ s.now (.comp (4 * q))))) then
    if !jointAgrees ks then .next (refuseJoint s q ks 0x0103 (fun _ => true))
    else if !(ks.zipIdx.all (fun (k, i) => arrayAccepts s (4 * q + i) k)) then .next s
    else
      let wide := (ks.head?.bind (fun k => k.joint)).getD true
      let ps := jointProducts s q wide ks
      let bad (i : Nat) : Bool := match ps[i]? with | some (some _) => false | _ => true
      if (List.range 4).any (fun i => s.lanes (4 * q + i) == 0) then .next (refuseJoint s q ks 0x0105 (fun i => s.lanes (4 * q + i) == 0))
      else if (List.range 4).any bad then .next (refuseJoint s q ks 0x0101 bad)
      else
        let xs := ps.filterMap id
        let L := s.jointLanes q
        let origin := match xs.head?, ks.head? with
          | some x, some k => resumeWindow (s.core (.comp (4 * q))).sys.progress k 3 x.costs.length (stepsOf k.word L x.costs.length)
          | _, _ => 0
        let nan := xs.foldl (fun (m : Option (Nat × ArrayEnd)) x => match m, badWindow x origin with
          | some a, some b => some (if b.1 < a.1 then b else a)
          | none, b => b
          | a, none => a) none
        .next ((ks.zip xs).zipIdx.foldl (fun s' ((k, x), i) =>
          startProduct (s'.modCore (.comp (4 * q + i)) (fun y => y.take 0 k)) (4 * q + i) k x origin false nan) s)
  else .next s

/-! ## DRAIN (R230, R231) -/

/-- An integer as an exact value. -/
def fpInt (x : Int) : Fp := if x = 0 then .zero false else .fin (decide (x < 0)) x.natAbs 0

/-- The scales of a drain by column and by row (R230). -/
structure DrainScales where
  column : Nat → Fp
  row : Nat → Fp

/-- The scales that a DRAIN's slots name (R230). -/
def commandScales (s : State) (c : Nat) (k : Cmd) : DrainScales :=
  let h2 := k.home (.comp c) 2
  let h3 := k.home (.comp c) 3
  { column := fun n => if k.has 2 then fpOf (ofBf16 (BitVec.ofNat 16 (s.num (h2 + 2 * n) 2))) else .fin false 1 0
    row := fun m => if fmtA (cmdFmt k.word) = 1 then .fin false 1 ((s.num (h3 + m) 1 : Int) - 141)
      else if k.has 3 then fpOf (BitVec.ofNat 32 (s.num (h3 + 4 * m) 4)) else .fin false 1 0 }

/-- y of cell (m, n) (R230). -/
def drainValue (cell : Int) (wscale ascale : Fp) : BitVec 32 := fpBits (fpMulX (fpMulX (fpInt cell) wscale) ascale)

/-- The values of row m. -/
def drainRow (cells : List (Nat × BitVec 32)) (w : BitVec 256) (d : DrainScales) (m : Nat) : List (BitVec 32) :=
  (rowCells cells (512 * cmdBank w + m * cmdN w) (cmdN w)).zipIdx.map (fun (x, n) => drainValue x (d.column n) (d.row m))

/-- Cut a list into groups of 32. -/
def blocks32 {α : Type} (l : List α) : List (List α) :=
  (List.range (ceilDiv l.length 32)).map (fun i => (l.drop (32 * i)).take 32)

/-- Quantise a row: its elements and its scale bytes, EMAX first (R150, R152). -/
def quantiseRow (ys : List (BitVec 32)) : List Byte × List Byte :=
  let qs := (blocks32 ys).map mxQuantise
  let codes := qs.map (fun p => p.1)
  ((qs.flatMap (fun p => p.2)).map (fun x => BitVec.ofInt 8 x),
   (codes.foldl max 0 :: codes).map (fun x => BitVec.ofNat 8 x))

/-- A row in the output format: its elements, and its scale bytes for MXINT8 (R231). -/
def formatRow (ofmt : Nat) (wrap : Bool) (ys : List (BitVec 32)) : List Byte × List Byte :=
  match ofmt with
  | 0 => (ys.map (drainInt8 wrap), [])
  | 1 => quantiseRow ys
  | 2 => (ys.flatMap (fun y => leBytes 2 (toBf16 y).toNat), [])
  | _ => (ys.flatMap (fun y => leBytes 4 y.toNat), [])

/-- Fold a row into FP32 cells (R231, DMODE 1). -/
def foldRow (cells : List (Nat × BitVec 32)) (key : Nat) (ys : List (BitVec 32)) : List (Nat × BitVec 32) :=
  spliceCells cells key ((rowCells cells key ys.length).zip ys |>.map (fun (a, y) => fpAdd (BitVec.ofInt 32 a) y))

/-- Where the values of a drain go: memory at a home, a fold bank, or a stream (R231, R254). -/
inductive DrainTo where
  | home (h : Nat)
  | fold (bank : Nat)
  | beats (stream : Nat)
  deriving DecidableEq, Repr

/-- What a drain of the M × N cells leaves (R230, R231): the fold bank's cells, the bytes of memory, and the bytes for a stream. -/
def drainCells (s : State) (c : Nat) (w : BitVec 256) (d : DrainScales) (target : DrainTo) :
    List (Nat × BitVec 32) × List (Nat × List Byte) × List Byte :=
  let cells := (s.core (.comp c)).slice.basin
  let N := cmdN w
  let M := cmdM w
  let f := cmdFmt w
  let z := outSize (fmtO f)
  let rows := (List.range M).map (fun m => drainRow cells w d m)
  let formed := rows.map (fun ys => formatRow (fmtO f) (fmtWrap f) ys)
  match target with
  | .home h =>
    (cells, formed.zipIdx.flatMap (fun (r, m) => [(h + m * outRow N z, r.1), (h + M * outRow N z + m * scaleRow N, r.2)]), [])
  | .fold bank => ((rows.zipIdx).foldl (fun cs (ys, m) => foldRow cs (512 * bank + m * N) ys) cells, [], [])
  | .beats _ => (cells, [], formed.flatMap (fun r => r.1 ++ r.2))

/-- Where a pushed DRAIN goes (R231). -/
def drainTo (c : Nat) (k : Cmd) : DrainTo :=
  match fmtD (cmdFmt k.word) with
  | 0 => .home (k.home (.comp c) 4)
  | 1 => .fold (bitsAt (wordAt k.word 7) 16 5)
  | _ => .beats (bitsAt (wordAt k.word 7) 0 16)

/-- A run of an op without restart points on core c's array, ending on a cycle. -/
def plainRun (s : State) (c : Nat) (k : Cmd) (occ : Nat) : ArrayRun :=
  { cmd := k, start := s.now (.comp c), finish := s.now (.comp c) + occ, origin := 0, lanes := s.lanesFor c k, costs := [], rows := 0, span := (0, 0),
    cells := [], bytes := [], flags := [], ending := .done, isBlock := false, bad := 0 }

/-- Put a run on core c's array. -/
def setArray (s : State) (c : Nat) (r : ArrayRun) : State :=
  s.modCore (.comp c) (fun x => { x with eng := { x.eng with array := some r } })

/-- Occupancy of a drain (R227). -/
def drainCycles (w : BitVec 256) : Nat := max 1 (ceilDiv (cmdM w * cmdN w) 32)

/-- A DRAIN of core c starts (R230, R231, R254): its values are those of the cells on its start cycle; they stand in memory or in the
fold bank when it ends, and those for a stream are placed behind earlier beats. The FMT record takes its FMT, of a block the register's
(R224, R247, R251). -/
def startDrain (s : State) (c : Nat) (k : Cmd) (d : DrainScales) (target : DrainTo) (isBlock : Bool)
    (fmt : BitVec 9 := cmdFmt k.word) : State :=
  let (cells, bytes, beats) := drainCells s c k.word d target
  let run := { plainRun s c k (drainCycles k.word) with
    cells := cells, bytes := bytes, isBlock := isBlock
    span := match target with | .fold bank => (bank, spanBanks (cmdM k.word) (cmdN k.word)) | _ => (0, 0) }
  let s := match target with | .beats n => placeBytes s n k.seq beats | _ => s
  (setArray s c run).modCore (.comp c) (fun x => { x with slice := { x.slice with fmtRecord := fmt } })

/-- DRAIN (R230, R231): the slice accepts the DRAIN at the head of core c's matrix queue and sends its values; one to a
stream waits for the beats of earlier commands (R304). [DESIGN CHOICE A7, unsafe] -/
def execDrain (c : Nat) (s : State) : Host.Outcome State Fault Refusal :=
  if c ≥ Config.computeCores then .fault .noSuchUnit else
  match acceptable s c 0 3 with
  | none => .next s
  | some k =>
    if (match drainStream k with | some n => earlierBeats (s.core (.comp c)) n k.seq | none => false) then .next s else
    let s := s.modCore (.comp c) (fun x => x.take 0 k)
    if s.lanes c = 0 then .next (refuseAtAcceptance s c k 0x0105) else
    .next (startDrain s c k (commandScales s c k) (drainTo c k) false)

/-! ## Self-test (R232, R233) -/

/-- STEST (R232): the slice accepts the STEST at the head of core c's matrix queue; `bad` are the quarters whose result
differs from the pattern. -/
def execStest (c : Nat) (bad : BitVec 4) (s : State) : Host.Outcome State Fault Refusal :=
  if c ≥ Config.computeCores then .fault .noSuchUnit else
  match acceptable s c 0 4 with
  | none => .next s
  | some k =>
    let s := s.modCore (.comp c) (fun x => x.take 0 k)
    if s.lanes c = 0 then .next (refuseAtAcceptance s c k 0x0105) else
    let s := setArray s c { plainRun s c k 16 with bad := bad, span := (cmdBank k.word, 1) }
    .next (s.modCore (.comp c) (fun x => { x with slice := { x.slice with fmtRecord := cmdFmt k.word } }))

/-- The word that marks an injected self-test on the array: no command has it (R37). -/
def injectionWord : BitVec 256 := BitVec.allOnes 256

/-- Does a core wait for its window to open (R209). -/
def Core.opensWindow (x : Core) : Bool := match x.issue.wait with | .weir .windowOpen _ _ => true | _ => false

/-- SELF_TEST_INJECTION (R233, R251): outside a window, between two untimed operations or blocks, the sequencer occupies the slice for 16
cycles with the pattern, one at a time, none of which may fall in a window; `bad` are the quarters that fail. -/
def execSelfTestInjection (c : Nat) (bad : BitVec 4) (s : State) : Host.Outcome State Fault Refusal :=
  if c ≥ Config.computeCores then .fault .noSuchUnit else
  let x := s.core (.comp c)
  if x.eng.array.isNone && decide (x.eng.freeAt ≤ s.now (.comp c)) && x.eng.freeAt == x.eng.cmdEnd && !x.tw && !x.opensWindow &&
      (match x.cascade with | some k => k.link.isNone | none => true) then
    let k : Cmd := ⟨injectionWord, 0, 0, Vector.replicate 4 Reg.zero, false, none, 0⟩
    .next (setArray s c { plainRun s c k 16 with bad := bad })
  else .next s

/-! ## The seed engine (R235) -/

/-- Element (k, n) of an INT16 tile at a home. -/
def tileElement (s : State) (h K k n : Nat) : Int := signedNat 16 (s.num (h + 2 * (n * seedRow K + k)) 2)

/-- The INT16 tile, column by column. -/
def tileColumns (s : State) (h K N : Nat) : List (List Int) :=
  (List.range N).map (fun n => (List.range K).map (fun k => tileElement s h K k n))

/-- corr(s) and nnz(s) of a candidate (R235). [DEDUCED A10, safe] -/
def scoreSeed (cols : List (List Int)) (seed : BitVec 32) : Int × Nat :=
  cols.zipIdx.foldl (fun (acc : Int × Nat) (col, n) =>
    (col.zip (springColumn seed n 0 col.length)).foldl (fun (acc : Int × Nat) (r, g) =>
      (acc.1 + r * g, acc.2 + if g = 0 then 0 else 1)) acc) (0, 0)

/-- The exponent of R235. -/
def seedExponent (c : Int) (z : Nat) : Nat :=
  if c = 0 ∨ z = 0 then 0 else
  (List.range 15).foldl (fun e i => if e = i ∧ c * c > ((2 ^ (2 * e + 1) * z * z : Nat) : Int) then e + 1 else e) 0

/-- The best of the candidates: largest |corr|, ties to the lowest seed (R235). [DEDUCED A10, safe] -/
def bestSeed (cols : List (List Int)) (first : BitVec 32) : Nat → BitVec 32 × Int × Nat
  | 0 => let (c, z) := scoreSeed cols first; (first, c, z)
  | i + 1 =>
    let best := bestSeed cols first i
    let s := first + BitVec.ofNat 32 (i + 1)
    let (c, z) := scoreSeed cols s
    if c.natAbs > best.2.1.natAbs ∨ (c.natAbs = best.2.1.natAbs ∧ s.toNat < best.1.toNat) then (s, c, z) else best

/-- The 16 bytes of a result (R235). [DEDUCED A10, safe] -/
def seedResult (b : BitVec 32 × Int × Nat) : List Byte :=
  leBytes 4 b.1.toNat ++ leBytes 8 (unsignedOf 64 b.2.1) ++ leBytes 3 b.2.2 ++
    [BitVec.ofNat 8 ((if b.2.1 < 0 then 128 else 0) + seedExponent b.2.1 b.2.2)]

/-- SRCH (R235): the array accepts the SRCH at the head of core c's seed queue and writes the best candidate. [DESIGN CHOICE A7, unsafe] -/
def execSrch (c : Nat) (s : State) : Host.Outcome State Fault Refusal :=
  if c ≥ Config.computeCores then .fault .noSuchUnit else
  match acceptable s c 1 1 with
  | none => .next s
  | some k =>
    let s := s.modCore (.comp c) (fun x => x.take 1 k)
    if s.lanes c = 0 then .next (refuseAtAcceptance s c k 0x0105) else
    let K := cmdK k.word
    let N := cmdN k.word
    let count := cmdW6 k.word / 2 ^ 12
    let cols := tileColumns s (k.home (.comp c) 2) K N
    let best := bestSeed cols (BitVec.ofNat 32 (cmdW7 k.word)) count
    .next (setArray s c { plainRun s c k ((count + 1) * ceilDiv K 64 * ceilDiv N 128 + 8) with
      bytes := [(k.home (.comp c) 4, seedResult best)] })

/-- RESID (R235): the array accepts the RESID at the head of core c's seed queue and subtracts one term in place. -/
def execResid (c : Nat) (s : State) : Host.Outcome State Fault Refusal :=
  if c ≥ Config.computeCores then .fault .noSuchUnit else
  match acceptable s c 1 2 with
  | none => .next s
  | some k =>
    let s := s.modCore (.comp c) (fun x => x.take 1 k)
    if s.lanes c = 0 then .next (refuseAtAcceptance s c k 0x0105) else
    let K := cmdK k.word
    let N := cmdN k.word
    let h := k.home (.comp c) 2
    let f : Int := (if bitAt k.word 215 then -1 else 1) * (2 ^ bitsAt k.word 208 4 : Nat)
    let seed := BitVec.ofNat 32 (cmdW7 k.word)
    .next (setArray s c { plainRun s c k (ceilDiv K 64 * ceilDiv N 128) with
      bytes := ((tileColumns s h K N).zipIdx).map (fun (col, n) =>
        (h + 2 * (n * seedRow K), (col.zip (springColumn seed n 0 K)).flatMap (fun (r, g) =>
          leBytes 2 (unsignedOf 16 (sat16 (r - f * g)))))) })

/-! ## Reading a running command, and stopping it -/

/-- The cells of a run at a window, from those that stand in the Basin while it runs (R242). -/
def ArrayRun.cellsAt (r : ArrayRun) (s : State) (c i : Nat) : List (Nat × BitVec 32) :=
  let basin := (s.core (.comp c)).slice.basin
  match runningProduct s c r with
  | some x => (x.windows (i - r.origin) r.origin (basin, 0)).1
  | none => basin

/-- The flags of a run that are set on a cycle, and by it. -/
def ArrayRun.flagsOn (r : ArrayRun) (t : Nat) : Word := r.flags.foldl (fun w p => if p.1 = t then w ||| p.2.2 else w) 0
def ArrayRun.flagsBy (r : ArrayRun) (t : Nat) : Word := r.flags.foldl (fun w p => if p.1 ≤ t then w ||| p.2.2 else w) 0

/-- Hardware sets flags of MSTAT on a cycle (R325). -/
def Core.raiseFlags (x : Core) (now : Nat) (m : Word) : Core :=
  { x with sys := { x.sys with mstat := x.sys.mstat ||| m }
           slice := { x.slice with flagged := (now, (if x.slice.flagged.1 = now then x.slice.flagged.2 else 0) ||| m) } }

/-- The cells of the banks of a span, in the place of those that stand there. -/
def mergeBanks (cur new : List (Nat × BitVec 32)) (span : Nat × Nat) : List (Nat × BitVec 32) :=
  let lo := 512 * span.1
  let hi := 512 * (span.1 + span.2)
  cur.filter (fun p => decide (p.1 < lo)) ++ new.filter (fun p => decide (lo ≤ p.1 ∧ p.1 < hi)) ++ cur.filter (fun p => decide (hi ≤ p.1))

/-- What a run leaves on its completion cycle: its cells, its flags and its bytes (R225). -/
def landRun (s : State) (c : Nat) (r : ArrayRun) : State :=
  let now := s.now (.comp c)
  let s := s.modCore (.comp c) (fun x =>
    let x := ({ x with sys := { x.sys with mstat := x.sys.mstat ||| r.flagsBy r.finish } }).raiseFlags now (r.flagsOn now)
    { x with slice := { x.slice with basin := mergeBanks x.slice.basin r.cells r.span } })
  r.bytes.foldl (fun s p => (s.write p.1 p.2).noteOwn c p.1 p.2.length) s

/-- Kind of a run in PROGRESS (R70). -/
def ArrayRun.kind (r : ArrayRun) : Nat := if r.isBlock then 2 else if r.cmd.joint.isSome then 3 else 1

/-- Steps of a term in a run's row, on the lanes it was accepted with (R241). -/
def ArrayRun.steps (r : ArrayRun) : Nat := stepsOf r.cmd.word r.lanes r.costs.length

/-- MSTAT and PROGRESS as software reads them on this cycle: of a running command, the flags set so far and the windows passed (R228,
R241, R325). The origin of a block is the origin field of a cascade's PROGRESS. -/
def matrixView (s : State) (c : Nat) : Word × Word :=
  let x := s.core (.comp c)
  match x.eng.array with
  | none => (x.sys.mstat, x.sys.progress)
  | some r =>
    let i := r.at (s.now (.comp c))
    let origin := if r.isBlock then bitsAt x.sys.progress 32 32 else r.cmd.seq.toNat
    (x.sys.mstat ||| r.flagsBy (s.now (.comp c)),
     if r.costs.length = 0 ∨ i ≤ r.origin then x.sys.progress else progressWord origin r.kind i r.costs.length r.steps)

/-- MSTAT written (R325): what hardware sets on this cycle ends set, and a running command sets what it still has to set. -/
def writeMstat (s : State) (c : Nat) (v : Word) : State :=
  let t := s.now (.comp c)
  s.modCore (.comp c) (fun x =>
    let set := (if x.slice.flagged.1 = t then x.slice.flagged.2 else 0) ||| (match x.eng.array with | some r => r.flagsOn t | none => 0)
    { x with
      sys := { x.sys with mstat := v ||| set }
      eng := { x.eng with array := x.eng.array.map (fun r => { r with flags := r.flags.filter (fun p => decide (t < p.1)) }) } })

/-- The run on core c's array ends at a window: the cells and flags of the windows passed, and PROGRESS (R151, R242, R260, R325). -/
def haltRun (s : State) (c i : Nat) (r : ArrayRun) (origin : Nat) : State :=
  let at0 := r.passes i
  let now := s.now (.comp c)
  let passed := { r with flags := r.flags.filter (fun p => decide (p.2.1 < i)) }
  let cells := r.cellsAt s c i
  let p := progressWord origin r.kind i r.costs.length r.steps
  s.modCore (.comp c) (fun x =>
    let x := x.raiseFlags now (passed.flagsOn now)
    { x with
      sys := { x.sys with mstat := x.sys.mstat ||| passed.flagsBy at0, progress := p }
      slice := { x.slice with basin := cells }
      eng := { x.eng with array := none, freeAt := at0, cmdEnd := at0 } })

/-- Stop the product on core c's array at a window (R108, R119, R242): the command goes back to the head of its queue, a timed one
with W1 the GCYC of the point. -/
def stopProduct (s : State) (c i : Nat) (r : ArrayRun) : State :=
  let k := if cmdT r.cmd.word then
      { r.cmd with word := setBits r.cmd.word 32 32 (cmdStart r.cmd.word + (r.passes i - r.start)) } else r.cmd
  (haltRun s c i r r.cmd.seq.toNat).modCore (.comp c) (fun x => x.requeue 0 k)

end Sys2Proof.Machine
end

