-- ==== Sys2Proof/Machine/Control.lean ====
section
/-! DEFINITION. Control flow (R87-R92), `trap` and `brk` (R115), and the retirement that ends a core's part (R92, R257). -/

namespace Sys2Proof.Machine
open Sys2Proof

/-- The operands and condition of `br` and `skip`: conditions 6 and 7 need b = 0, 8-15 are ILLEGAL (R30, R87). -/
def readCond (a b : BitVec 5) (c : BitVec 4) : Op Bool := do
  legal (condOk c b)
  bindCheck [a.toNat, b.toNat] []
  let x ← readReg a.toNat
  let y ← readWord b.toNat
  pure (condHolds c.toNat x y)

/-- A target in words from the address of the word (R27). -/
def branchTarget (pc : Word) (off : Word) : Word := pc + off <<< 2

/-- Branch by off10 words when the condition holds (R87). -/
def execBr (S : Bool) (a b : BitVec 5) (c : BitVec 4) (o : BitVec 10) (s : State) : Host.Outcome State Fault Refusal :=
  runWord S (do
    let taken ← readCond a b c
    let x ← getCore
    pure (if taken then .jump (branchTarget x.pc (sextW o)) else .next 1)) s

/-- Jump by off24 words (R88). -/
def execJ (S : Bool) (o : BitVec 24) (s : State) : Host.Outcome State Fault Refusal :=
  runWord S (do
    let x ← getCore
    pure (.jump (branchTarget x.pc (sextW o)))) s

/-- Jump by off24 words with the link in g1 (R88). -/
def execJal (S : Bool) (o : BitVec 24) (s : State) : Host.Outcome State Fault Refusal :=
  runWord S (do
    let x ← getCore
    writeWord 1 (x.pc + 4)
    pure (.jump (branchTarget x.pc (sextW o)))) s

/-- Transfer to the address in g_a after the alignment and execute checks, link in g_d (R89). -/
def execJr (S : Bool) (d a : BitVec 5) (s : State) : Host.Outcome State Fault Refusal :=
  runWord S (do
    bindCheck [a.toNat] [d.toNat]
    let v ← readReg a.toNat
    let t : Word := if v.tag then BitVec.ofNat 64 v.cursor else v.w0
    if t.toNat % 4 ≠ 0 then raise causeAlign t
    let s ← get
    if v.tag then
      match checkCap s.cur v 0 4 Reg.permX with
      | .error e => raise e t
      | .ok _ => pure ()
    let x ← getCore
    writeWord d.toNat (x.pc + 4)
    pure (.jump t)) s

/-- Suppress the next n + 1 words when the condition holds (R90). -/
def execSkip (S : Bool) (a b : BitVec 5) (c : BitVec 4) (n : BitVec 3) (s : State) : Host.Outcome State Fault Refusal :=
  runWord S (do
    let taken ← readCond a b c
    pure (if taken then .skip (n.toNat + 1) else .next 1)) s

/-- The step rule kinds that name only fields a body word of this opcode has (R25, R28, R75); kind 7 names d, a and b. [DEDUCED A17, unsafe] -/
def kindSuits (op kind : Nat) : Bool :=
  let vec := decide (0x40 ≤ op ∧ op ≤ 0x46)
  let isM := decide (0x30 ≤ op ∧ op ≤ 0x3C) || op == 0x70 || op == 0x71
  let isI := decide (0x04 ≤ op ∧ op ≤ 0x06) || decide (0x08 ≤ op ∧ op ≤ 0x10) || op == 0x22 || op == 0x24 || op == 0x26 ||
    decide (0x58 ≤ op ∧ op ≤ 0x5A) || op == 0x5C || op == 0x5D || op == 0x68 || op == 0x69 || op == 0x6B
  let isU := op == 0x11 || op == 0x12 || op == 0x6D
  let isK := decide (0x50 ≤ op ∧ op ≤ 0x54)
  let isR := decide (0x01 ≤ op ∧ op ≤ 0x03) || op == 0x20 || op == 0x21 || op == 0x23 || op == 0x25 || op == 0x27 ||
    decide (0x3D ≤ op ∧ op ≤ 0x3F) || op == 0x47 || op == 0x5B || decide (0x5E ≤ op ∧ op ≤ 0x63) || op == 0x72
  match kind with
  | 0 => true
  | 1 | 2 => isR || isI || isM || vec
  | 3 | 7 => isR || vec
  | 4 => isM
  | 5 => isI || isU
  | _ => isK

/-- The opcodes a loop body may not hold (R74). [DEDUCED A17, unsafe] -/
def loopForbids (op : Nat) : Bool :=
  decide (0x18 ≤ op ∧ op ≤ 0x1B) || decide (0x1D ≤ op ∧ op ≤ 0x1F) || op == 0x55 || op == 0x6A || op == 0x6C

/-- The body rules of R33 and R74: opcodes, `skip` ranges, and step rules that suit their words. [DEDUCED A17, unsafe] -/
def bodyOk (last : Nat) (step : BitVec 32) (body : List (BitVec 32)) : Bool :=
  (body.zipIdx.all (fun (w, i) =>
    let op := bitsAt w 24 7
    !loopForbids op && (op != 0x1C || decide (i + bitsAt w 0 3 + 1 ≤ last)))) &&
  ([0, 1, 2, 3].all (fun r =>
    let k := stepRule step r
    kindSuits (bitsAt (body.getD k.1 0) 24 7) k.2))

/-- Capture a body of n + 1 words with its rules and run it g_a [23:0] times (R74, R75, R91). With a count of 0 a body that cannot be
fetched is passed over. [DEDUCED A63, unsafe] -/
def execLoop (S : Bool) (a n : BitVec 5) (step : BitVec 32) (s : State) : Host.Outcome State Fault Refusal :=
  runWord S (do
    legal (stepWordOk n step)
    bindCheck [a.toNat] []
    let s ← get
    let x ← getCore
    let past : Flow := .go (x.pc + BitVec.ofNat 64 (8 + 4 * (n.toNat + 1))) 1
    let body := fetchWords s s.cur (x.pc.toNat + 8) (n.toNat + 1)
    legal (match body with | .ok b => bodyOk n.toNat step b | .error _ => true)
    let v ← readWord a.toNat
    let count := bitsAt v 0 24
    match body with
    | .error (e, at0) => if count = 0 then pure past else raiseInfo (preciseTrap at0 e at0)
    | .ok body =>
      if count = 0 then pure past
      else
        modCore (fun x => { x with
          sys := { x.sys with loopstate := loopWord 0 count 0 n.toNat true }
          issue := { x.issue with loopCopy := some body, loopRules := step } })
        pure (.go (x.pc + 8) 1)) s

/-- The banks held by program level, as the mask of handles (R92, R109). -/
def heldMask (c : Core) (h : Holder) : Word :=
  BitVec.ofNat 64 (((List.range 32).filter (fun i => c.slice.holders.toList.getD i .free == h)).foldl (fun m i => m + 2 ^ i) 0)

/-- The core retires from this cycle on: a request that was pending is answered RETIRED (R92, R118, R121, R257). [DEDUCED A69, unsafe] -/
def Core.startRetiring (c : Core) : Core :=
  { c with run := .retiring
           issue := { c.issue with preempt := none, answered := c.issue.answered ++ c.issue.preempt.toList, settle := true } }

/-- The checks of `end`, after the replay queue has emptied (R179); the core then retires once it has settled and its commands
have completed (R92, R118). [DEDUCED A27, unsafe] -/
def execEndGroup (S : Bool) (s : State) : Host.Outcome State Fault Refusal :=
  runWord S (do
    let s ← get
    let c ← getCore
    legal (!c.system && !c.tw)
    if !c.replay.isEmpty then stall
    let m := heldMask c .program
    if !isMemCore s.cur && m ≠ 0 then raise causeBasin m
    modCore Core.startRetiring
    pure .hold) s

/-- SYSCALL or BREAK: TRAPPC the following word, TRAPVAL the code (R104, R115). The replay queue empties first (R179). [DEDUCED A11, unsafe] -/
def raiseCall (code : Nat) (i : BitVec 19) : Op Flow := do
  let c ← getCore
  if !c.replay.isEmpty then stall
  let s ← get
  let s' := advance s s.cur 1
  set (deliverTrap s' s.cur (preciseTrap (s'.core s.cur).pc code (zextW i)))
  pure .hold

/-- SYSCALL with imm19 in TRAPVAL (R115). -/
def execTrap (S : Bool) (i : BitVec 19) (s : State) : Host.Outcome State Fault Refusal :=
  runWord S (raiseCall causeSyscall i) s

/-- BREAK with imm19 in TRAPVAL (R115); in a loop body the index moves past the word. -/
def execBrk (S : Bool) (i : BitVec 19) (s : State) : Host.Outcome State Fault Refusal :=
  runWord S (raiseCall causeBreak i) s

/-- Every command of a core has completed and its Sluice table is empty (R92). -/
def Core.drained (c : Core) : Bool :=
  c.eng.queues.toList.all List.isEmpty && c.eng.array.isNone && c.eng.copyRun.isNone && c.eng.landing.isEmpty && c.eng.dipperRun.isNone &&
    c.eng.reduction.isNone && c.eng.ringRuns.isEmpty && c.eng.sluice.isEmpty

/-- A core leaves its gang's running members (R92, R300). -/
def leaveGroup (s : State) (c : CoreId) : State :=
  match (s.core c).gang with
  | none => s
  | some n => s.modGang n (fun g => { g with retired := c :: g.retired })

/-- CORE_RETIRE (R92, R257): a core that has passed `end` unbinds its generators, discards its messages and leaves its group,
once it has settled and every command has completed. -/
def execCoreRetire (c : CoreId) (s : State) : Host.Outcome State Fault Refusal :=
  let x := s.core c
  if x.run = .retiring ∧ x.settled ∧ x.drained ∧ x.issue.faults.isEmpty ∧ x.issue.trapWait.isNone then
    .next (leaveGroup (s.modCore c (fun x => { x with
      run := .stopped, channels := [], gen := Vector.replicate 4 Reg.zero
      sys := { x.sys with status := setBits x.sys.status 32 32 0, stream := Vector.replicate 4 0 } })) c)
  else .next s

end Sys2Proof.Machine
end

