-- ==== Sys2Proof/Machine/Record.lean ====
section
/-! DEFINITION. The launch record (R292, R293, R306) as its fields, and what more than one of the managers asks of a gang. -/

namespace Sys2Proof.Machine
open Sys2Proof

/-- A little-endian field of n bytes at an offset of a record (R292). -/
def recNum (r : List Byte) (o n : Nat) : Nat := leNat ((r.drop o).take n)
/-- A field of bits of the word at offset 0. -/
def recBits (r : List Byte) (lo len : Nat) : Nat := recNum r 0 4 / 2 ^ lo % 2 ^ len

/-- Fields of the word at offset 0 (R292). -/
def recTag (r : List Byte) : Nat := recBits r 24 8
def recCtx (r : List Byte) : Nat := recBits r 16 6
def recHome (r : List Byte) : Nat := recBits r 12 3
def recQueue (r : List Byte) : Nat := recBits r 8 4
def recNG (r : List Byte) : Nat := recBits r 6 2
def recSink (r : List Byte) : Bool := recBits r 4 1 == 1
def recRing (r : List Byte) : Bool := recBits r 3 1 == 1
def recTimed (r : List Byte) : Bool := recBits r 2 1 == 1
def recPair (r : List Byte) : Bool := recBits r 1 1 == 1
def recOvl (r : List Byte) : Bool := recBits r 0 1 == 1
/-- ILEN, IBASE, WAIT and SET (R292). -/
def recIlen (r : List Byte) : Nat := recNum r 4 4
def recIbase (r : List Byte) : Nat := recNum r 8 8
def recWait (r : List Byte) : BitVec 256 := BitVec.ofNat 256 (recNum r 0x10 32)
def recSet (r : List Byte) : BitVec 256 := BitVec.ofNat 256 (recNum r 0x30 32)

/-- A group entry (R292). -/
structure GroupEntry where
  count : Nat
  joint : Bool
  isMem : Bool
  role : Nat
  shape : Nat
  alen : Nat
  eoff : Nat
  aoff : Nat
  reserved : Nat
  deriving DecidableEq, Repr

/-- Group g of a record (R292). -/
def recGroup (r : List Byte) (g : Nat) : GroupEntry :=
  let o := 0x50 + 12 * g
  let b0 := recNum r o 1
  let b1 := recNum r (o + 1) 1
  { count := b0 % 32, joint := b1 / 128 == 1, isMem := b1 / 64 % 2 == 1, role := b1 / 16 % 4, shape := b1 % 16,
    alen := recNum r (o + 2) 2, eoff := recNum r (o + 4) 4, aoff := recNum r (o + 8) 4, reserved := b0 / 32 }

/-- Width and height of a compute group; first channel of a memory-core group (R292). -/
def GroupEntry.width (g : GroupEntry) : Nat := g.shape % 4 + 1
def GroupEntry.height (g : GroupEntry) : Nat := g.shape / 4 + 1
def GroupEntry.first (g : GroupEntry) : Nat := g.shape % 8
/-- The groups of a record. -/
def recGroups (r : List Byte) : List GroupEntry := (List.range (recNG r + 1)).map (recGroup r)

/-- Ring fields (R306). -/
def recRingNumber (r : List Byte) : Nat := recNum r 0x74 2
def recFirstModule (r : List Byte) : Nat := recNum r 0x76 1 % 64
def recModules (r : List Byte) : Nat := recNum r 0x77 1 % 128
def recDeadline (r : List Byte) : Nat := recNum r 0x78 4
def recStart (r : List Byte) : Nat := recNum r 0x7C 4

/-- The limits of a group entry (R292, R293). -/
def groupOk (r : List Byte) (g : GroupEntry) : Bool :=
  let ilen := recIlen r
  g.reserved == 0 && decide (1 ≤ g.count) && g.eoff % 4 == 0 && decide (g.eoff < ilen) && g.aoff % 16 == 0 &&
    decide (g.aoff + g.alen ≤ ilen) &&
    (if g.isMem then decide (g.count ≤ 8 ∧ g.first + g.count ≤ 8) && decide (g.shape < 8) && !g.joint
     else g.count == g.width * g.height && (!g.joint || (g.width == 2 && g.height == 2)) && (!recPair r || g.width % 2 == 0))

/-- The channels of a memory-core group. -/
def GroupEntry.channels (g : GroupEntry) : List Nat := if g.isMem then (List.range g.count).map (fun i => g.first + i) else []

/-- Is a record acceptable (R293, R306)? -/
def recordOk (r : List Byte) : Bool :=
  let gs := recGroups r
  let chans := gs.flatMap GroupEntry.channels
  let ib := recIbase r
  r.length == 128 && recBits r 22 2 == 0 && recBits r 15 1 == 0 && recBits r 5 1 == 0 && decide (1 ≤ recIlen r) &&
    decide (Config.sramBase ≤ ib ∧ ib + recIlen r ≤ Config.sramBase + Config.sramSize) &&
    gs.all (groupOk r) && decide ((gs.map (fun g => if g.isMem then 0 else g.count)).sum ≤ 16) && decide (chans.Nodup) &&
    (if recRing r then
      decide (recNG r ≤ 2) && recNum r 0x76 1 / 64 == 0 && recNum r 0x77 1 / 128 == 0 &&
        decide (1 ≤ recModules r ∧ recModules r ≤ 64) &&
        (let d := (recStart r + 2 ^ 32 - recDeadline r) % 2 ^ 32
         decide (2 ≤ d ∧ d ≤ 2 ^ 31)) &&
        ((List.range 3).all (fun g => decide (g ≤ recNG r) || recNum r (0x50 + 12 * g) 12 == 0))
     else (List.range 4).all (fun g => decide (g ≤ recNG r) || recNum r (0x50 + 12 * g) 12 == 0))

/-- Is a window of the gang open on a member. -/
def State.windowOpen (s : State) (g : Gang) : Bool := g.compute.any (fun c => (s.core (.comp c)).tw)

/-- Is a timed window open on a die (R21). -/
def State.dieInWindow (s : State) (d : Nat) : Bool :=
  s.cores.any (fun p => p.2.tw && dieOf (coreOfKey p.1) == d)

/-- Does die d change its clock before a window opens on it: a change waits, and no window is open (R21, R375). [DEDUCED A41, unsafe] -/
def State.changeDue (s : State) (d : Nat) : Bool := !(s.die d).change.isEmpty && !s.dieInWindow d

end Sys2Proof.Machine
end

