-- ==== Sys2Proof/Machine/Sync.lean ====
section
/-! DEFINITION. Meeting points: event bits (R326-R329), barrier objects (R332), the Weirs and `wsync` (R6, R333, R334), timed
windows (R209, R210), timed transfers (R211, R212) and untimed messages (R214, R215). -/

namespace Sys2Proof.Machine
open Sys2Proof

/-! ## Event bits -/

/-- Every earlier access of a core in the region of a scope has performed (R187); in a window only its stores count (R195, R328). -/
def Core.released (x : Core) (c : CoreId) (scope : Nat) : Bool :=
  x.ops.all (fun o => if o.isAppend then !inScope c scope o.home else
    o.value.isSome || (x.tw && !o.kind.buffered) || (match o.kind with
    | .deposit => true
    | .fence k _ => k == 0
    | .vector _ => false
    | _ => !inScope c scope o.home))

/-- Stall until the earlier accesses in scope have performed (R179, R187). -/
def release (scope : Nat) : Op Unit := do
  let s ← get
  let c ← getCore
  releaseGate scope
  if !c.released s.cur scope then stall

/-- Set bit e of the own cluster as a release at cluster scope; it lands 2 cycles later (R327, R328). -/
def execEvset (S : Bool) (e : BitVec 8) (s : State) : Host.Outcome State Fault Refusal :=
  runWord S (do
    release 3
    let s ← get
    set (s.land (clusterOf s.cur) (some (s.now s.cur + 2)) true (eventMask e.toNat) (some (coreKey s.cur)))
    pure (.next 1)) s

/-- Clear bit e of the own cluster 2 cycles later (R327, R328). -/
def execEvclr (S : Bool) (e : BitVec 8) (s : State) : Host.Outcome State Fault Refusal :=
  runWord S (do
    let s ← get
    set (s.land (clusterOf s.cur) (some (s.now s.cur + 2)) false (eventMask e.toNat) (some (coreKey s.cur)))
    pure (.next 1)) s

/-- Set bit e of cluster g_a as a release at module scope (R328). -/
def execEvpost (S : Bool) (a : BitVec 5) (e : BitVec 8) (s : State) : Host.Outcome State Fault Refusal :=
  runWord S (do
    bindCheck [a.toNat] []
    let q ← readWord a.toNat
    if q.toNat > 127 then raise causeIssue q
    release 5
    let s ← get
    set (s.land q.toNat none true (eventMask e.toNat) (some (coreKey s.cur)))
    pure (.next 1)) s

/-- The bits that some clears clear: C of R327, of all of them or of those that a core has made. -/
def clearMask (l : List Landing) (src : Option Nat) : BitVec 256 :=
  l.foldl (fun m p => if !p.isSet && (src.isNone || p.src == src) then m ||| p.mask else m) 0

/-- The bits that some sets set: S of R327. An `evpost` has landed before the clears that its core has made after it (R328). -/
def setMask : List Landing → BitVec 256
  | [] => 0
  | p :: r => (if p.isSet then (if p.due.isNone && p.src.isSome then p.mask &&& ~~~clearMask r p.src else p.mask) else 0) ||| setMask r

/-- The bits after the sets and clears of a cycle (R327). -/
def landAll (ev : BitVec 256) (l : List Landing) : BitVec 256 := (ev &&& ~~~clearMask l none) ||| setMask l

/-- Does a set or clear land by this cycle; an `evpost`, which has no cycle of its own, may. -/
def State.lands (s : State) (q : Nat) (p : Landing) : Bool :=
  match p.due with | some t => decide (t ≤ (s.die (q / 8)).cycle) | none => true

/-- The bits that sets have brought to a cluster on this cycle so far: no clear of the cycle takes them (R327). -/
def State.freshBits (s : State) (q : Nat) : BitVec 256 :=
  let x := s.cluster q
  if x.fresh.1 = (s.die (q / 8)).cycle then x.fresh.2 else 0

/-- EVENT_BIT_UPDATE (R327): the sets and clears that land by this cycle. -/
def execEventBitUpdate (q : Nat) (s : State) : Host.Outcome State Fault Refusal :=
  if q ≥ Config.clusters then .fault .noSuchUnit else
  let x := s.cluster q
  let l := x.landing.filter (s.lands q)
  if l.isEmpty then .next s else
  .next (s.setCluster q { x with
    ev := landAll x.ev l ||| s.freshBits q, landing := x.landing.filter (fun p => !s.lands q p)
    fresh := ((s.die (q / 8)).cycle, s.freshBits q ||| setMask l) })

/-- Stall until bit e of the own cluster is 1 (R329). -/
def execEvwait (S : Bool) (e : BitVec 8) (s : State) : Host.Outcome State Fault Refusal :=
  runWord S (do
    let s ← get
    let c ← getCore
    require (!c.tw) causeIssue
    if !bitAt (s.cluster (clusterOf s.cur)).ev e.toNat then stall
    pure (.next 1)) s

/-- Stall until the barrier object that g_a names has reached g_b (R332). -/
def execBwait (S : Bool) (a b : BitVec 5) (s : State) : Host.Outcome State Fault Refusal :=
  runWord S (do
    bindCheck [a.toNat, b.toNat] []
    let c ← getCore
    require (!c.tw) causeIssue
    memoryGate
    let r ← readReg a.toNat
    let target ← readWord b.toNat
    let p ← checkAccess r 0 8 8 Reg.permR false false
    if target = 0 then return .next 1
    let s ← get
    let o : MemOp := ⟨s.nextId, .load false, p.home, 8, 0, none, p.near, none, none⟩
    if !mayPerform s.cur c.ops o || c.ops.any (fun x => x.value.isNone && x.kind.isStore && x.overlaps o) then stall
    if s.num p.home 8 < target.toNat then stall
    pure (.next 1)) s

/-! ## Weirs -/

/-- The unit of a level that a core lies in (R5). -/
def scopeUnit (c : CoreId) (scope : Nat) : Nat :=
  if scope = 2 then quadOf (coreIndex c) else if scope = 3 then clusterOf c else if scope = 4 then dieOf c else 0

/-- The participants of a `wsync` at a scope in a unit (R333). -/
def Gang.participants (g : Gang) (scope unit : Nat) : List CoreId :=
  g.all.filter (fun c => if scope = 2 ∨ scope = 3 then !isMemCore c && scopeUnit c scope == unit else true)

/-- Fence at a scope and arrive at its Weir (R334); a core of no gang is its own sole participant. [DEDUCED A53, safe] -/
def execWsync (S : Bool) (p : BitVec 4) (s : State) : Host.Outcome State Fault Refusal :=
  runWord S (do
    let s ← get
    let c ← getCore
    let k := p.toNat
    legal (decide (2 ≤ k ∧ k ≤ 6) && !(isMemCore s.cur && decide (k ≤ 3)))
    let g := s.gangOf s.cur
    require (k != 6 || (match g with | some g => recRing g.record | none => false)) causeIssue
    require (!(c.tw && decide (5 ≤ k))) causeIssue
    release k
    match g with
    | none => pure (.next (weirLatency k))
    | some g =>
      set (s.modGang g.id (fun g => { g with sync := g.sync ++ [(s.cur, k, if k = 6 then s.module.tick else s.now s.cur)] }))
      modCore (fun c => { c with issue := { c.issue with wait := .weir .sync k S } })
      pure .hold) s

/-- A word that has waited in the middle completes; the next one may issue on this cycle, or once the word's own is over. -/
def finishWord (s : State) (c : CoreId) (S : Bool) : State :=
  let x := s.core c
  let step := x.stepOn && !x.system && !x.tw
  (advance s c 1).modCore c (fun x => { x with issue :=
    { x.issue with wait := .none, readyAt := max x.issue.readyAt (s.now c), settle := S, stepDue := x.issue.stepDue || step, resumed := false } })

/-- The word that a core waits in, finished. [DEDUCED A86, unsafe] -/
def finishWait (s : State) (c : CoreId) : State :=
  match (s.core c).issue.wait with
  | .weir _ _ S => finishWord s c S
  | .translators _ S _ => finishWord s c S
  | .table S => finishWord s c S
  | _ => s

/-- The latest of some cycles. -/
def latest (l : List Nat) : Nat := l.foldl max 0

/-- Does tick t lie past tick d (R307). -/
def tickPast (t d : Nat) : Bool := let x := (t + 2 ^ 32 - d % 2 ^ 32) % 2 ^ 32; decide (1 ≤ x ∧ x < 2 ^ 31)

/-- The modules that take part in a ring gang (R306). -/
def ringParts (ringSize : Nat) (r : List Byte) : List Nat :=
  (List.range (recModules r)).map (fun i => (recFirstModule r + i) % max 1 ringSize)

/-- The other modules of a ring gang, each with the tick of its oldest arrival at the gang's Weir that has met nothing yet (R305, R333).
[DEDUCED A73, unsafe] -/
def otherArrivals (s : State) (r : List Byte) : List (Nat × Option Nat) :=
  ((ringParts s.module.ringSize r).filter (fun m => m != s.module.number)).map (fun m =>
    (m, (s.module.meetings.find? (fun v => v.1 == recRingNumber r && v.2.1 == m)).map (fun v => v.2.2)))

/-- A meeting at the ring Weir has taken place: what each other module's arrival brought to it is used up. [DEDUCED A73, unsafe] -/
def useArrivals (s : State) (r : List Byte) : State :=
  let take (l : List (Nat × Nat × Nat)) (m : Nat) : List (Nat × Nat × Nat) :=
    l.eraseP (fun v => v.1 == recRingNumber r && v.2.1 == m)
  { s with module := { s.module with meetings := ((otherArrivals s r).map (fun p => p.1)).foldl take s.module.meetings } }

/-- May a `wsync` at a Weir release (R6, R334): every participant has arrived, and the latency is over; at ring scope those of every other
module have too, and a tick has passed since the last (R307). [DEDUCED A73, unsafe] -/
def syncReady (s : State) (g : Gang) (w : Weir) : Bool :=
  let ps := g.participants w.scope w.unit
  let at0 := (g.sync.filter (fun a => a.2.1 == w.scope && ps.contains a.1)).map (fun a => a.2.2)
  !ps.isEmpty && ps.all (fun c => g.sync.any (fun a => a.1 == c && a.2.1 == w.scope)) &&
    (if w.scope = 6 then at0.all (fun t => tickPast s.module.tick t) &&
        (otherArrivals s g.record).all (fun p => p.2.any (fun t => tickPast s.module.tick t))
     else decide (latest at0 + weirLatency w.scope ≤ (s.die g.die).cycle))

/-- May a window open (R209): not before a change of the die's clock that is due (R375). [DEDUCED A41, unsafe] -/
def openReady (s : State) (g : Gang) : Bool :=
  !s.changeDue g.die &&
  !g.compute.isEmpty && g.compute.all (fun k => g.opens.any (fun a => a.1 == .comp k)) &&
    decide (latest (g.opens.map (fun a => a.2)) + weirLatency (windowScope g) ≤ (s.die g.die).cycle)

/-- Cycle Z in one member (R209): GCYC 0, TW set, the lane group reserved; the next word may issue. [DEDUCED A86, unsafe] -/
def openWindow (s : State) (k : Nat) : State :=
  let c : CoreId := .comp k
  let s := finishWait s c
  let s := s.modCore c (fun x =>
    { (x.setStatus 0 true).setGcyc (s.now c) 0 with eng := { x.eng with lastStart := Vector.replicate 6 0 } })
  let q := s.quad (quadOf k)
  s.setQuad (quadOf k) { q with reserved := q.reserved.setIfInBounds (k % 4) true }

/-- The accesses in a scope that have used a translation that is dropped now (R139, R319). -/
def translatedNow (s : State) (d : Nat) (dieOnly : Bool) (hit : TlbEntry → Bool) : List Nat :=
  s.cores.flatMap (fun p => if p.1 < 4096 || (dieOnly && dieOf (coreOfKey p.1) != d) then []
    else p.2.translated.filter (fun i => p.2.through.any (fun v => v.1 == i && hit v.2.2)))

/-- Have the translators arrived: the accesses that were under way when their entries were dropped have completed (R319). -/
def translatorsQuiet (s : State) (ids : List Nat) : Bool :=
  ids.isEmpty || s.cores.all (fun p => p.1 < 4096 || (s.core (coreOfKey p.1)).translated.all (fun i => !ids.contains i))

/-- WEIR_RELEASE (R6, R209, R319, R333, R334): a Weir releases its participants after the last arrival. -/
def execWeirRelease (gang : Nat) (w : Weir) (s : State) : Host.Outcome State Fault Refusal :=
  match w.kind with
  | .invalidate =>
    let c := coreOfKey w.unit
    let x := s.core c
    match x.issue.wait with
    | .translators _ S ids =>
      .next (if x.issue.readyAt ≤ s.now c ∧ translatorsQuiet s ids then finishWord s c S else s)
    | _ => .next s
  | .sync =>
    match s.gang gang with
    | none => .fault .noSuchUnit
    | some g =>
      if !syncReady s g w then .next s else
      let ps := g.participants w.scope w.unit
      let s := if w.scope = 6 then useArrivals s g.record else s
      .next (ps.foldl finishWait (s.modGang gang (fun g => { g with sync := g.sync.filter (fun a => !ps.contains a.1) })))
  | .windowOpen =>
    match s.gang gang with
    | none => .fault .noSuchUnit
    | some g =>
      if !openReady s g then .next s else
      .next (g.compute.foldl openWindow (s.modGang gang (fun g => { g with opens := [] })))

/-! ## Timed windows -/

/-- The matrix slice is idle as `tbegin` and `cascade` ask (R224). -/
def sliceIdle (s : State) (k : Nat) : Bool :=
  let e := (s.core (.comp k)).eng
  e.array.isNone && (e.freeAt == 0 || decide (e.freeAt + 6 ≤ s.now (.comp k)))

/-- What `tbegin` waits for besides the settle (R195, R209, R21). [DEDUCED A41, unsafe] -/
def windowReady (s : State) (k : Nat) : Bool :=
  let x := s.core (.comp k)
  let t := s.now (.comp k)
  x.settled && x.bufferEmpty && [0, 1, 2].all (fun n => (x.eng.queue n).isEmpty) && sliceIdle s k && x.eng.copyRun.isNone &&
    x.eng.landing.isEmpty && decide (x.eng.copyFree ≤ t) && x.vq.isEmpty &&
    decide ((s.quad (quadOf k)).groupEnd.toList.getD (k % 4) 0 ≤ t) &&
    !s.changeDue (k / 128)

/-- Arrive at the gang's Weir to open a window (R209). -/
def execTbegin (S : Bool) (s : State) : Host.Outcome State Fault Refusal :=
  runWord S (do
    computeOnly
    let s ← get
    let c ← getCore
    legal (!c.system && !c.tw)
    match s.gangOf s.cur with
    | none => raiseWord causeIssue
    | some g =>
      require (recTimed g.record) causeIssue
      if !windowReady s (coreIndex s.cur) then stall
      set (s.modGang g.id (fun g => { g with opens := g.opens ++ [(s.cur, s.now s.cur)] }))
      modCore (fun c => { c with issue := { c.issue with wait := .weir .windowOpen (windowScope g) S } })
      pure .hold) s

/-- Has every timed command of a core ended its occupancy, and every flit it sent been delivered (R210). [DEDUCED A23, unsafe] -/
def timedDone (s : State) (k : Nat) : Bool :=
  let x := s.core (.comp k)
  let e := x.eng
  [0, 1, 2].all (fun n => (e.queue n).all (fun c => !cmdT c.word)) &&
    (match e.array with | some r => !cmdT r.cmd.word | none => true) && decide (e.freeAt ≤ s.now (.comp k)) &&
    (match e.copyRun with | some r => !cmdT r.cmd.word | none => true) && e.landing.isEmpty && decide (e.copyFree ≤ s.now (.comp k)) &&
    s.flits.all (fun f => f.src != k)

/-- The window of core k closed: TW and the lane-group reservation (R210), and the cycle of it noted (R375). -/
def closeWindow (s : State) (k : Nat) : State :=
  let s := s.modCore (.comp k) (fun x => x.setStatus 0 false)
  let s := s.setDie (k / 128) { s.die (k / 128) with closed := some (s.die (k / 128)).cycle }
  let q := s.quad (quadOf k)
  s.setQuad (quadOf k) { q with reserved := q.reserved.setIfInBounds (k % 4) false }

/-- Close the window in the executing core (R210). -/
def execTend (S : Bool) (s : State) : Host.Outcome State Fault Refusal :=
  runWord S (do
    computeOnly
    let s ← get
    let c ← getCore
    legal c.tw
    if !c.posts.isEmpty then
      raiseInfo { preciseTrap c.pc causeTiming ((s.gcyc s.cur).setWidth 64) with fatal := true }
    if !timedDone s (coreIndex s.cur) then stall
    set (closeWindow s (coreIndex s.cur))
    pure (.next 1)) s

/-- A core of the die by its index there lies in the gang's rectangle (R12). -/
def inRectangleOp (n : BitVec 7) : Op Unit := do
  let s ← get
  require (match s.gangOf s.cur with
    | some g => g.inRectangle (128 * dieOf s.cur + n.toNat)
    | none => false) causeIssue

/-- Place g_a on the T-plane for a core and channel (R211). -/
def execTsend (S : Bool) (a : BitVec 5) (c : BitVec 4) (n : BitVec 7) (s : State) : Host.Outcome State Fault Refusal :=
  runWord S (do
    computeOnly
    bindCheck [a.toNat] []
    let x ← getCore
    require x.tw causeIssue
    inRectangleOp n
    let v ← readWord a.toNat
    let s ← get
    let src := coreIndex s.cur
    let target := 128 * dieOf s.cur + n.toNat
    let flit : Flit := ⟨dieOf s.cur, src, target, c.toNat, v, s.now s.cur + 4 + 2 * hops src target, false⟩
    set { s with flits := s.flits ++ [flit] }
    pure (.next 1)) s

/-- Post a receive on a timed channel (R212). -/
def execTrecv (S : Bool) (d : BitVec 5) (c : BitVec 4) (n : BitVec 7) (s : State) : Host.Outcome State Fault Refusal :=
  runWord S (do
    computeOnly
    notBound [d.toNat]
    let x ← getCore
    require x.tw causeIssue
    inRectangleOp n
    require (x.posts.all (fun p => p.channel != c.toNat)) causeIssue
    let s ← get
    set { s with nextId := s.nextId + 1 }
    modCore (fun x => { x with posts := x.posts ++ [⟨s.nextId, c.toNat, n.toNat, d.toNat, (s.gcyc s.cur).toNat⟩] })
    pure (.next 1)) s

/-- Is a flit due (R211): on its die cycle, or, once held by a freeze, on its GCYC (R119). -/
def flitDue (s : State) (f : Flit) : Bool :=
  if f.held then (s.core (.comp f.target)).sys.gcycHeld.isNone && decide (f.due ≤ (s.gcyc (.comp f.target)).toNat)
  else decide (f.due ≤ (s.die f.die).cycle)

/-- TIMED_FLIT_ARRIVAL (R212): a flit due at core c on channel n writes the posted register, or raises TIMING. -/
def execTimedFlitArrival (c n : Nat) (s : State) : Host.Outcome State Fault Refusal :=
  if c ≥ Config.computeCores ∨ n ≥ 16 then .fault .noSuchUnit else
  match s.flits.find? (fun f => f.target == c && f.channel == n && flitDue s f) with
  | none => .next s
  | some f =>
    let s := { s with flits := s.flits.erase f }
    let g := (s.gcyc (.comp c)).toNat
    match (s.core (.comp c)).posts.find? (fun p => p.channel == n && p.src == f.src % 128 && decide (p.made < g)) with
    | some p => .next (s.modCore (.comp c) (fun x =>
        let x := { x with posts := x.posts.erase p }
        x.returnReg p.id p.dst (Reg.ofWord f.data)))
    | none => .next (engineFault s (.comp c) causeTiming g none 0 true)

/-! ## Untimed messages -/

/-- A pending fence stands before a message, which counts as an access at module scope (R171, R216). -/
def Core.fenced (x : Core) (isStore : Bool) : Bool :=
  x.ops.any (fun o => match o.kind with
    | .fence k sc => k == 3 || (k == 2 && isStore) || (k == 0 && !isStore) || (k == 1 && decide (5 ≤ sc))
    | _ => false)

/-- The core that g_b of a `send` names, or none (R214). -/
def messageTarget (b : Word) : Option CoreId :=
  if b.toNat ≥ 2 ^ 12 then none
  else if !bitAt b 11 then some (.comp b.toNat)
  else if bitsAt b 7 4 = 0 then some (.mem (bitsAt b 0 7))
  else none

/-- The messages that a channel holds, those in the spill buffer included, since they come back into it (R111, R197). -/
def Core.channelCount (x : Core) (channel : Nat) : Nat :=
  (x.channels.filter (fun m => m.channel == channel)).length + ((x.issue.spilled.getD []).filter (fun n => n == channel)).length

/-- Does a core take a message on a channel from a context (R214). [DEDUCED A29, unsafe] -/
def Core.takes (x : Core) (channel context : Nat) : Bool :=
  x.gang.isSome && x.context == context && x.run != .stopped && x.run != .retiring && !x.issue.ending &&
    decide (x.channelCount channel < 4)

/-- A message reaches its target, which accepts or refuses it (R214). [DEDUCED A29, unsafe] -/
def offer (s : State) (target : CoreId) (channel src context : Nat) (data : Word) : State × Bool :=
  if (s.core target).takes channel context then
    (s.modCore target (fun y => { y with channels := y.channels ++ [⟨channel, src, data⟩] }), true)
  else (s, false)

/-- A `send` of core k in a checked pair (R123): it waits one cycle at a time for its twin, one copy goes, and both cores take
the target's answer. `s0` is the state before the word read its operands, `s` the one after. [DEDUCED A36, unsafe] -/
def sendPaired (s0 s : State) (k p : Nat) (target : CoreId) (m : PairMessage) : State × Option Bool :=
  let wait := (setCost (s0.modCore (.comp k) (fun x => { x with outbox := some m })) (.comp k) 1, none)
  let clear (s : State) : State := s.modCore (.comp k) (fun x => { x with outbox := none })
  match (s0.core (.comp k)).outbox, (s0.core (.comp p)).outbox with
  | some me, twin =>
    match me.answer, twin with
    | some b, _ => (clear s, some b)
    | none, some t =>
      if t = { m with answer := none } then
        let (s', b) := offer s target m.channel (min k p) (s.core (.comp k)).context m.data
        (clear (s'.modCore (.comp p) (fun x => { x with outbox := some { m with answer := some b } })), some b)
      else wait
    | none, none => wait
  | none, _ => wait

/-- Send g_a to a channel of the core g_b names; a refusal is RECVOVF with the target's index (R104, R214). [DEDUCED A29, unsafe] -/
def execSend (S : Bool) (a b : BitVec 5) (c : BitVec 4) (s : State) : Host.Outcome State Fault Refusal :=
  runWord S (do
    let s0 ← get
    bindCheck [a.toNat, b.toNat] []
    let x ← getCore
    require (!x.tw) causeIssue
    memoryGate
    if x.fenced true then stall
    let v ← readWord a.toNat
    let t ← readWord b.toNat
    match messageTarget t with
    | none => raiseWord causeIssue
    | some target =>
      let s ← get
      let k := coreIndex s.cur
      let (s', answer) := match (if isMemCore s.cur then none else s.partner k) with
        | some p => sendPaired s0 s k p target ⟨c.toNat, t, v, none⟩
        | none => let r := offer s target c.toNat k x.context v; (r.1, some r.2)
      match answer with
      | none => do set s'; pure .hold
      | some true => do set s'; pure (.next 1)
      | some false => do
        let s1 := s0.modCore s0.cur (fun x => { x with outbox := none })
        set (deliverTrap s1 s1.cur (preciseTrap x.pc causeRecvOvf (BitVec.ofNat 64 (coreIndex target))))
        pure .hold) s

/-- Wait for a message on a channel and take it (R215). -/
def execRecv (S : Bool) (d : BitVec 5) (c : BitVec 4) (s : State) : Host.Outcome State Fault Refusal :=
  runWord S (do
    bindCheck [] [d.toNat]
    let x ← getCore
    require (!x.tw) causeIssue
    memoryGate
    if x.fenced false then stall
    match x.channels.find? (fun m => m.channel == c.toNat) with
    | none => stall
    | some m =>
      modCore (fun x => { x with channels := x.channels.erase m })
      writeWord d.toNat m.data
      pure (.next 1)) s

end Sys2Proof.Machine
end

