-- ==== Sys2Proof/Machine/System.lean ====
section
/-! DEFINITION. The system registers (R36, R65-R71, R103, R116, R131, R311), `eret` (R113), `wfi` and its wakes (R114), `tlbinv`
(R319) and `dtload` (R318). -/

namespace Sys2Proof.Machine
open Sys2Proof

/-! ## Reading -/

/-- The registers of compute cores only (R65). -/
def sysComputeOnly (n : Nat) : Bool :=
  n == 0x010 || n == 0x011 || n == 0x012 || n == 0x015 || n == 0x021 || n == 0x030 || n == 0x031 || n == 0x040 || n == 0x041
/-- The registers that program level may not read (R65). -/
def sysHidden (n : Nat) : Bool := decide (2 ≤ n ∧ n ≤ 6)
/-- The registers that no `syswr` writes (R65). -/
def sysReadOnly (n : Nat) : Bool := n == 0x014 || n == 0x020 || n == 0x030 || n == 0x031 || n == 0x032

/-- The value of a system register at a core (R36, R65). -/
def sysValue (s : State) (c : CoreId) (n : Nat) : Word :=
  let x := s.core c
  let r := x.sys
  if n = 0x000 then r.status
  else if n = 0x001 then r.priv
  else if n = 0x002 then r.trappc
  else if n = 0x003 then r.trapcause
  else if n = 0x004 then r.trapval
  else if n = 0x005 then r.trapseq
  else if n = 0x006 then r.trapvec
  else if n = 0x010 then r.fmt
  else if n = 0x011 then (matrixView s (coreIndex c)).1
  else if n = 0x012 then (matrixView s (coreIndex c)).2
  else if n = 0x013 then r.privsz
  else if n = 0x014 then BitVec.ofNat 64 x.ctxarea
  else if n = 0x015 then (s.quad (quadOf (coreIndex c))).share
  else if n = 0x020 then BitVec.ofNat 64 (s.now c)
  else if n = 0x021 then (s.gcyc c).setWidth 64
  else if n = 0x022 then r.loopstate
  else if 0x024 ≤ n ∧ n ≤ 0x027 then r.stream.toList.getD (n - 0x024) 0
  else if n = 0x030 then r.dtstat
  else if n = 0x031 then r.pair
  else if n = 0x032 then r.wdog
  else if n = 0x040 then r.xbase
  else if n = 0x041 then r.xlimit
  else 0

/-- Read a system register into g_d (R65, R116). [DEDUCED A64, unsafe] -/
def execSysrd (S : Bool) (d : BitVec 5) (n : BitVec 14) (s : State) : Host.Outcome State Fault Refusal :=
  runWord S (do
    let s ← get
    let c ← getCore
    legal (sysNumOk n.toNat && !(isMemCore s.cur && sysComputeOnly n.toNat))
    require (c.system || !sysHidden n.toNat) causePriv
    bindCheck [] [d.toNat]
    writeWord d.toNat (sysValue s s.cur n.toNat)
    pure (.next 1)) s

/-! ## Writing -/

/-- The checks of a `syswr` that come before its value (R65): ILLEGAL at either level, then PRIV. [DEDUCED A64, unsafe] -/
def syswrGate (n : Nat) (program : Bool) : Op Unit := do
  let s ← get
  let c ← getCore
  legal (sysNumOk n && !sysReadOnly n && !(isMemCore s.cur && (sysComputeOnly n || n == 0x013)))
  require (c.system || program) causePriv

/-- A register of the executing core written. -/
def setSys (f : SysRegs → SysRegs) : Op Unit := modCore (fun c => { c with sys := f c.sys })

/-- Write a system register without a row of its own (R65-R71, R116). [DEDUCED A32, unsafe] [DEDUCED A54, unsafe] -/
def execSyswr (S : Bool) (a : BitVec 5) (n : BitVec 14) (s : State) : Host.Outcome State Fault Refusal :=
  runWord S (do
    let n := n.toNat
    syswrGate n (n == 0x010 || n == 0x011)
    bindCheck [a.toNat] []
    let v ← readWord a.toNat
    let s ← get
    let c ← getCore
    if n = 0x002 then setSys (fun r => { r with trappc := v })
    else if n = 0x003 then
      legal (causeOk v)
      setSys (fun r => { r with trapcause := v })
    else if n = 0x004 then setSys (fun r => { r with trapval := v })
    else if n = 0x005 then setSys (fun r => { r with trapseq := v &&& 0x1_FFFF_FFFF })
    else if n = 0x006 then
      legal (bitsAt v 0 2 == 0)
      setSys (fun r => { r with trapvec := v })
    else if n = 0x010 then
      legal (fmtOk v)
      setSys (fun r => { r with fmt := v })
    else if n = 0x011 then
      legal (mstatOk v)
      set (writeMstat s (coreIndex s.cur) (setBits v 40 4 (fencedBits c.sys.mstat)))
    else if n = 0x012 then setSys (fun r => { r with progress := setBits v 0 2 0 })
    else if n = 0x015 then
      legal (bitsAt v 32 32 == 0)
      let q := quadOf (coreIndex s.cur)
      set (s.setQuad q { s.quad q with share := v, shareBefore := some ((s.quad q).shareBefore.getD (s.quad q).share) })
    else if n = 0x021 then
      legal (!c.tw)
      modCore (fun c => c.setGcyc (s.now s.cur + 1) (v.setWidth 32))
    else if n = 0x022 then setSys (fun r => { r with loopstate := setBits v 0 5 0 })
    else if 0x024 ≤ n ∧ n ≤ 0x027 then setSys (fun r => { r with stream := r.stream.setIfInBounds (n - 0x024) v })
    else pure ()
    pure (.next 1)) s

/-- Write STATUS (R62, R66): the read-only bits stay; a bound bit loads the generator's capability from its register. [DEDUCED A46, unsafe] -/
def execSyswrStatus (S : Bool) (a : BitVec 5) (s : State) : Host.Outcome State Fault Refusal :=
  runWord S (do
    syswrGate 0 false
    let v ← readWord a.toNat
    legal (statusOk v)
    for n in [0, 1, 2, 3] do
      let byte := bitsAt v (32 + 8 * n) 8
      if byte / 128 = 1 then interlock (24 + byte % 8)
    let c ← getCore
    let caps : Vector Reg 4 := Vector.ofFn (fun n : Fin 4 =>
      let byte := bitsAt v (32 + 8 * n.val) 8
      let r := 24 + byte % 8
      let old := c.gen.toList.getD n.val Reg.zero
      if byte / 128 = 1 then
        c.seen r
      else old)
    modCore (fun c => { c with gen := caps, sys := { c.sys with status := v ||| (c.sys.status &&& 0x1B) } })
    pure (.next 1)) s

/-- Write PRIV (R67, R116). -/
def execSyswrPriv (S : Bool) (a : BitVec 5) (s : State) : Host.Outcome State Fault Refusal :=
  runWord S (do
    syswrGate 1 false
    let v ← readWord a.toNat
    legal (bitsAt v 2 62 == 0)
    setSys (fun r => { r with priv := v })
    pure (.next 1)) s

/-- The copies of the window table on the other dies still hold the old values of core k (R311). -/
def oldCopies (s : State) (k : Nat) : List OldWindow :=
  let r := (s.core (.comp k)).sys
  ((List.range Config.dies).filter (fun d => d != k / 128)).map (fun d => ⟨d, k, r.privsz.toNat, r.xbase.toNat, r.xlimit.toNat⟩)

/-- Rewrite a window register: the own die's copy now, the others in the steps that follow; the next word waits for the last
(R71, R131, R311). -/
def writeWindow (S : Bool) (n : Nat) (a : BitVec 5) (ok : SysRegs → Word → Bool) (f : SysRegs → Word → SysRegs) : Op Flow := do
  syswrGate n false
  let v ← readWord a.toNat
  let c ← getCore
  legal (ok c.sys v)
  let s ← get
  set { s with oldWindows := s.oldWindows ++ oldCopies s (coreIndex s.cur) }
  let t ← nowOp
  modCore (fun c => { c with sys := f c.sys v, issue := { c.issue with wait := .table S, readyAt := t + 1 } })
  pure .hold

/-- Write PRIVSZ; CTXAREA follows it (R71). -/
def execSyswrPrivsz (S : Bool) (a : BitVec 5) (s : State) : Host.Outcome State Fault Refusal :=
  runWord S (writeWindow S 0x013 a (fun r v => privszOk v && regionOk v r.xbase r.xlimit) (fun r v => { r with privsz := v })) s

/-- Write XBASE (R131). -/
def execSyswrXbase (S : Bool) (a : BitVec 5) (s : State) : Host.Outcome State Fault Refusal :=
  runWord S (writeWindow S 0x040 a (fun r v => frameOk v && regionOk r.privsz v r.xlimit) (fun r v => { r with xbase := v })) s

/-- Write XLIMIT (R131). -/
def execSyswrXlimit (S : Bool) (a : BitVec 5) (s : State) : Host.Outcome State Fault Refusal :=
  runWord S (writeWindow S 0x041 a (fun r v => frameOk v && regionOk r.privsz r.xbase v) (fun r v => { r with xlimit := v })) s

/-- A die's copy of core k's entry is written; after the last the core goes on (R311). -/
def tableCopyDone (s : State) (d k : Nat) : State :=
  let s := { s with oldWindows := s.oldWindows.filter (fun w => !(w.die == d && w.core == k)) }
  match (s.core (.comp k)).issue.wait with
  | .table _ => if s.oldWindows.any (fun w => w.core == k) then s else finishWait s (.comp k)
  | _ => s

/-! ## Returning and waiting -/

/-- Return to the interrupted level (R113). [DEDUCED A27, unsafe] -/
def execEret (S : Bool) (s : State) : Host.Outcome State Fault Refusal :=
  runWord S (do
    systemOnly
    let c ← getCore
    legal (!bitAt c.sys.trapcause 9)
    let s ← get
    let s := returnTrap s s.cur
    set s
    modCore (fun c => { c with issue := { c.issue with settle := S } })
    pure .hold) s

/-- Park the core until a wake (R114). -/
def execWfi (S : Bool) (s : State) : Host.Outcome State Fault Refusal :=
  runWord S (do
    systemOnly
    modCore (fun c => { c with run := .parked })
    pure (.next 1)) s

/-! ## tlbinv (R319) -/

/-- Drop the translations that match from the TLBs of the scope. -/
def dropTranslations (s : State) (d : Nat) (dieOnly : Bool) (hit : TlbEntry → Bool) : State :=
  let keep (l : List TlbEntry) : List TlbEntry := l.filter (fun e => !hit e)
  { s with
    cores := s.cores.map (fun p =>
      if p.1 < 4096 || (dieOnly && dieOf (coreOfKey p.1) != d) then p else (p.1, { p.2 with tlb := keep p.2.tlb }))
    clusters := s.clusters.map (fun p => if dieOnly && p.1 / 8 != d then p else (p.1, { p.2 with tlb := keep p.2.tlb })) }

/-- Drop, and wait at the Weir for the translators (R319). -/
def invalidate (S : Bool) (p : BitVec 1) (hit : TlbEntry → Bool) : Op Flow := do
  let s ← get
  let dieOnly := p == 0
  set (dropTranslations s (dieOf s.cur) dieOnly hit)
  modCore (fun c => { c with issue := { c.issue with
    wait := .translators dieOnly S (translatedNow s (dieOf s.cur) dieOnly hit), readyAt := s.now s.cur + if dieOnly then 20 else 1 } })
  pure .hold

/-- Drop every translation of context g_a (R319). -/
def execTlbinvCtx (S : Bool) (a : BitVec 5) (p : BitVec 1) (s : State) : Host.Outcome State Fault Refusal :=
  runWord S (do
    systemOnly
    let v ← readWord a.toNat
    legal (decide (v.toNat < 64))
    invalidate S p (fun e => e.ctx == v.toNat)) s

/-- Drop the translations of a context that cover a virtual page (R319). -/
def execTlbinvPage (S : Bool) (a : BitVec 5) (p : BitVec 1) (s : State) : Host.Outcome State Fault Refusal :=
  runWord S (do
    systemOnly
    let v ← readWord a.toNat
    legal (bitsAt v 57 7 == 0 && bitsAt v 6 6 == 0)
    let va := bitsAt v 12 45 * 4096
    invalidate S p (fun e => e.ctx == bitsAt v 0 6 && decide (e.base ≤ va ∧ va < e.base + e.size))) s

/-- Drop every translation (R319). -/
def execTlbinvAll (S : Bool) (p : BitVec 1) (s : State) : Host.Outcome State Fault Refusal :=
  runWord S (do
    systemOnly
    invalidate S p (fun _ => true)) s

/-! ## dtload (R318) -/

/-- The entry for an FP32 word. -/
def tableEntry (x : BitVec 32) : BitVec 19 :=
  let s := bitsAt x 31 1
  let e := bitsAt x 23 8
  let f := if e = 0 then 0 else if e = 255 ∧ bitsAt x 0 23 ≠ 0 ∧ bitsAt x 13 10 = 0 then 1 else bitsAt x 13 10
  BitVec.ofNat 19 (s * 2 ^ 18 + e * 2 ^ 10 + f)
/-- May the word stand in an image. -/
def tableWordOk (x : BitVec 32) : Bool := bitsAt x 23 8 == 0 || bitsAt x 23 8 == 255 || bitsAt x 0 13 == 0

/-- The decode table and DTSTAT after an image of 1088 bytes. -/
def loadTable (c : Core) (img : List Byte) : Core :=
  let words := (List.range 256).map (fun i => BitVec.ofNat 32 (leNat ((img.drop (4 * i)).take 4)))
  let trailer := leNat (img.drop 1024)
  if words.all tableWordOk && (trailer == 0 || trailer == 2) then
    let tab := words.map tableEntry
    { c with
      slice := { c.slice with dtab := (tab.zipIdx.filter (fun p => p.1 != 0)).map (fun p => (p.2, p.1)) }
      sys := { c.sys with dtstat := BitVec.ofNat 64 ((monotone tab).toNat + trailer) } }
  else { c with sys := { c.sys with dtstat := setBit c.sys.dtstat 2 true } }

/-- Load the decode table from the image at g_a (R318); on a memory core the checks and the read alone. -/
def execDtload (S : Bool) (a : BitVec 5) (s : State) : Host.Outcome State Fault Refusal :=
  runWord S (do
    bindCheck [a.toNat] []
    let r ← readReg a.toNat
    let p ← checkAddress r 0 1088 Reg.permR .no false
    if r.cursor % 64 ≠ 0 then raise causeAlign (valOf r.cursor)
    let c ← getCore
    require (!c.tw || p.own) causeIssue
    let s ← get
    let o : MemOp := ⟨s.nextId, .load false, p.home, 1088, 0, none, p.near, none, none⟩
    if !c.vq.isEmpty || !mayPerform s.cur c.ops o || c.ops.any (fun x => x.value.isNone && x.kind.isStore && x.overlaps o) then stall
    let img := s.bytes p.home 1088
    if !isMemCore s.cur then modCore (fun c => loadTable c img)
    pure (.next (if p.own then 21 else 1))) s

end Sys2Proof.Machine
end

