-- ==== Sys2Proof/Machine/Cascade.lean ====
section
/-! DEFINITION. Cascade mode (R246-R261): entry, the loading and checking of blocks, the block ops, the chain's way from block to
block, and exit. -/

namespace Sys2Proof.Machine
open Sys2Proof

/-! ## Headers (R43, R249) -/

/-- Header word H_n. -/
def headWord (h : BitVec 256) (n : Nat) : BitVec 32 := wordAt h n
/-- Fields of H0 (R43). -/
def blockOp (h : BitVec 256) : Nat := bitsAt h 0 8
def blockPoint (h : BitVec 256) : Nat := bitsAt h 8 2
def blockRaw (h : BitVec 256) : Bool := bitAt h 10
def blockKind (h : BitVec 256) : Nat := bitsAt h 12 4
def blockLength (h : BitVec 256) : Nat := bitsAt h 16 16
/-- Condition of H3: event and polarity (R43). -/
def blockEvent (h : BitVec 256) : Nat := bitsAt h 96 8
def blockPolarity (h : BitVec 256) : Bool := bitAt h 104
/-- Fields of the matrix words H6 and H7 (R249). -/
def matK (h : BitVec 256) : Nat := bitsAt (headWord h 6) 16 16
def matM (h : BitVec 256) : Nat := bitsAt (headWord h 6) 0 16
def matN (h : BitVec 256) : Nat := bitsAt (headWord h 7) 0 10
def matCM (h : BitVec 256) : Bool := bitAt (headWord h 7) 20
/-- Fields of the drain words H6 and H7 (R249). -/
def drnM (h : BitVec 256) : Nat := bitsAt (headWord h 6) 0 16
def drnN (h : BitVec 256) : Nat := bitsAt (headWord h 6) 16 10
def drnOffset (h : BitVec 256) : Nat := 64 * bitsAt (headWord h 7) 16 15

/-- The rules of R44 and R249 that the header alone shows, for a link field that END forbids as well (R257). [DEDUCED A24, safe] -/
def headerOk (h : BitVec 256) : Bool :=
  let op := blockOp h
  let z (ns : List Nat) : Bool := ns.all (fun n => headWord h n == 0)
  let plain := blockPoint h == 0 && !blockRaw h
  let kind := blockKind h
  let h4 := (headWord h 4).toNat
  let h7 := headWord h 7
  !bitAt h 11 && bitsAt (headWord h 3) 9 23 == 0 && (op == 4 || z [2]) &&
    (match kind with | 0 => decide (h4 < 32) | 1 => decide (h4 < 2048) | 2 => decide (h4 < 65536) | 3 => h4 == 0 | _ => false) &&
    (match op with
     | 1 | 2 =>
       kind == 0 && blockPoint h == 3 && !blockRaw h && (matCM h || z [3]) && bitsAt h7 21 11 == 0 && decide (1 ≤ matK h) &&
         decide (matM h ≤ 4096 ∧ 1 ≤ matN h ∧ matN h ≤ 128) && (bitAt h7 11 || bitsAt h7 12 8 == 0) &&
         (op == 2 || blockLength h == 2 * matN h * ceilDiv (matK h) 320)
     | 3 =>
       decide (kind ≤ 2) && z [3] && (if blockLength h = 0 then plain else blockPoint h == 3 && blockRaw h &&
         blockLength h == ceilDiv (2 * drnN h) 32) && !bitAt (headWord h 6) 31 && decide (drnM h ≤ 4096 ∧ 1 ≤ drnN h ∧ drnN h ≤ 128) &&
         !bitAt h7 31 && bitsAt h7 9 7 == 0 && (bitAt h7 8 || bitsAt h7 0 8 == 0) && (kind == 1 || bitsAt h7 16 15 == 0)
     | 4 => kind == 3 && plain && blockLength h == 0 && z [5, 6, 7]
     | 5 => kind == 3 && plain && blockLength h == 0 && z [3, 5, 6, 7]
     | 6 => kind == 3 && plain && blockLength h == 0 && z [1, 3, 5, 6, 7]
     | 7 => kind == 3 && plain && z [3, 5, 6, 7]
     | 8 => kind == 3 && plain && blockLength h == 0 && z [3, 6, 7] && decide ((headWord h 5).toNat < 256)
     | _ => false)

/-- The address a link leads to (R250). -/
def linkTarget (block : Nat) (link : BitVec 32) : Int := (block : Int) + 32 * link.toInt

/-- The link rule (R250). -/
def linksOk (chain : Reg) (block : Nat) (h : BitVec 256) : Bool :=
  let ok (l : BitVec 32) : Bool := l == 0 ||
    decide (chain.base ≤ linkTarget block l ∧ linkTarget block l + 32 ≤ chain.top)
  ok (headWord h 1) && (blockOp h != 4 || ok (headWord h 2))

/-- Where a block stands (R248): in weight frames, the own ones in a window, or in external pages outside one. -/
def blockPlaceOk (s : State) (c : Nat) (block n : Nat) : Bool :=
  let x := s.core (.comp c)
  match s.resolve (.comp c) false block n .no true with
  | .error _ => false
  | .ok p =>
    if p.external then !x.tw
    else match sliceOf p.home with
      | some k => s.allWeights (c / 128) k ((p.home - Config.sramHome) % Config.sliceSize) n && (!x.tw || k == c)
      | none => false

/-- The command that a matrix or DRAIN block maps to, FMT carried (R247, R249, R252): of a DRAIN the activation-scale slot is
W3, and the routing target stands in W7 as the pushed command's does (R254). [DEDUCED A30, unsafe] -/
def blockCommand (fmt : Word) (h : BitVec 256) : BitVec 256 :=
  let h7 := headWord h 7
  let f := bitsAt fmt 0 9
  let w0 (e ev acc : Nat) : Nat := blockOp h * 16 + e * 2 ^ 13 + ev * 2 ^ 14 + acc * 2 ^ 22 + f * 2 ^ 23
  let words : List Nat :=
    if blockOp h = 3 then
      [w0 (bitsAt h7 8 1) (bitsAt h7 0 8) 0, 0xFFFF_FFFF, 0, (headWord h 5).toNat, 0, drnM h,
       drnN h + bitsAt (headWord h 6) 26 5 * 2 ^ 16,
       match blockKind h with
       | 0 => (headWord h 4).toNat * 2 ^ 16
       | 2 => (headWord h 4).toNat
       | _ => 0]
    else
      [w0 (bitsAt h7 11 1) (bitsAt h7 12 8) (bitsAt h7 10 1), 0xFFFF_FFFF, (headWord h 5).toNat, 0, 0,
       (headWord h 6).toNat, matN h + (headWord h 4).toNat * 2 ^ 16, 0]
  (words.zipIdx).foldl (fun w (x, i) => setWordAt w i (BitVec.ofNat 32 x)) 0

/-- The DMODE that a routing kind stands for (R254). -/
def kindMode (kind : Nat) : Nat := match kind with | 0 => 1 | 1 => 0 | _ => 2

/-- The slot of a block as `push` would check it (R39, R220, R250 step 3). -/
def blockSlot (w : BitVec 256) : SlotSpec :=
  let K := cmdK w
  let M := cmdM w
  if cmdOp w = 3 then
    (if fmtA (cmdFmt w) = 0 then { n := 3, perm := Reg.permR, extent := 4 * M, align := 4, optional := true }
     else { n := 3, perm := Reg.permR, extent := M, align := 1 })
  else
    { n := 2, perm := Reg.permR, align := 64
      extent := M * rowBytes K + (if fmtA (cmdFmt w) = 1 then M * scaleRow K else 0) }

/-- The slice destination of a DRAIN block of kind 1 (R250): a core of the cluster, above its private part and outside its
weight frames. -/
def neighbourOk (s : State) (c : Nat) (h : BitVec 256) (f : BitVec 9) : Bool :=
  let k := (headWord h 4).toNat
  let off := drnOffset h
  let n := drnM h * outRow (drnN h) (outSize (fmtO f)) + (if fmtO f = 1 then drnM h * scaleRow (drnN h) else 0)
  let (psz, _, _) := s.window (c / 128) k
  k / 16 == c / 16 && decide (psz ≤ off ∧ off + n ≤ Config.sliceSize) && !(decide (0 < n) && s.inWeights (c / 128) k off n)

/-- The command rules of R250 step 4; `rs` are the ranges of the slot. -/
def blockRulesOk (s : State) (c : Nat) (h w : BitVec 256) (rs : List Range) : Bool :=
  let x := s.core (.comp c)
  let own := rs.all (fun r => r.place.own)
  match blockOp h with
  | 1 | 2 => commandOk s (.comp c) w none && (!x.tw || own)
  | 3 =>
    let kind := blockKind h
    commandOk s (.comp c) (setBits w 30 2 (kindMode kind)) none &&
      (kind != 1 || neighbourOk s c h (cmdFmt w)) &&
      (!x.tw || (own && kind != 2 && (kind != 1 || (headWord h 4).toNat == c)))
  | 6 => !x.tw
  | _ => true

/-! ## Entry and exit -/

/-- PROGRESS at a block's start (R246, R247). -/
def blockProgress (chain : Reg) (block : Nat) : Word := progressWord ((((block : Int) - chain.base) / 32).toNat) 2 0 0 0

/-- Enter Cascade mode at the block g_a points at (R246). -/
def execCascade (S : Bool) (a : BitVec 5) (s : State) : Host.Outcome State Fault Refusal :=
  runWord S (do
    computeOnly
    let c ← getCore
    legal (!c.system)
    bindCheck [a.toNat] []
    let r ← readReg a.toNat
    let p ← checkAddress r 0 32 Reg.permX .no true
    if r.cursor % 32 ≠ 0 || r.base % 32 != 0 then raise causeAlign (valOf r.cursor)
    require (!c.tw || p.own) causeIssue
    let s ← get
    if !(c.settled && c.ops.isEmpty && c.vq.isEmpty && (c.eng.queue 0).isEmpty && (c.eng.queue 1).isEmpty &&
        sliceIdle s (coreIndex s.cur)) then stall
    let t := s.now s.cur
    modCore (fun c =>
      let c := c.setStatus 1 true
      { c with
        sys := { c.sys with progress := blockProgress r r.cursor }
        cascade := some ⟨r, r.cursor, none, none, t + 2, none, none⟩ })
    pure .hold) s

/-- Leave Cascade mode on this cycle (R256): g4 at this block, g5 at the successor of a YIELD; the word after the `cascade` issues, and a
trap that waits for the chain has that word as its TRAPPC (R117, R259). [DEDUCED A85, unsafe] [DEDUCED A97, unsafe] -/
def exitCascade (s : State) (c : Nat) (k : Cascade) (h : BitVec 256) : State :=
  let t := s.now (.comp c)
  let aim (a : Int) : Reg := k.chain.shift (a - k.chain.cursor)
  let h1 := headWord h 1
  let g5 := if blockOp h = 5 ∧ h1 ≠ 0 then aim (linkTarget k.block h1) else Reg.zero
  let s := s.modCore (.comp c) (fun x =>
    let x := (x.setStatus 1 false).setRegAt 4 (aim k.block) t
    let x := x.setRegAt 5 g5 t
    { x with sys := { x.sys with progress := 0 }, cascade := none, issue := { x.issue with readyAt := t } })
  (advance s (.comp c) 1).modCore (.comp c) (fun x => { x with issue := { x.issue with
    trapWait := x.issue.trapWait.map (fun t => { t with pc := x.pc }) } })

/-- A block has completed (R122, R251): STEP falls due, and the chain goes on at the link or leaves the mode. -/
def nextBlock (s : State) (c : Nat) (link : BitVec 32) : State :=
  let x := s.core (.comp c)
  match x.cascade, x.cascade.bind (fun k => k.header) with
  | some k, some h =>
    let step := x.stepOn && !x.system && !x.tw
    let s := s.modCore (.comp c) (fun x => { x with issue := { x.issue with stepDue := x.issue.stepDue || step } })
    if link = 0 then exitCascade s c k h
    else
      let block := (linkTarget k.block link).toNat
      s.modCore (.comp c) (fun x => { x with
        sys := { x.sys with progress := blockProgress k.chain block }
        cascade := some { k with block := block, header := none, cmd := none, link := none, start := s.now (.comp c) } })
  | _, _ => s

/-! ## Loading -/

/-- A trap of the fetcher at a block (R250, R259): SOURCE 8, TRAPPC the `cascade` word; a cause that leaves the mode leaves the block in
PROGRESS at its row 0. [DEDUCED A34, unsafe] -/
def fetchTrap (s : State) (c : Nat) (code : Nat) (val : Int) (seq : Option (BitVec 32)) : State :=
  let s := if code = causeXlate then s else s.modCore (.comp c) (fun x => { x with sys := { x.sys with
    progress := match x.cascade with | some k => blockProgress k.chain k.block | none => x.sys.progress } })
  deliverTrap s (.comp c)
    { code := code, val := valOf val, seq := seqWord seq, source := 8, imprecise := false, fatal := false,
      pc := (s.core (.comp c)).pc, leaves := code != causeXlate }

/-- A core's chain may move: at program level, nothing held, no trap under way or due (R107, R117, R121, R261); in a window it goes on
until the freeze, under a pre-emption request or a fault of an engine that is not fatal, but for a trap of its own (R119, R261). -/
def Core.chainRuns (x : Core) : Bool :=
  x.run == .running && x.casc && !x.system && !x.isHeld && x.issue.trapWait.all (fun t => x.tw && !t.fatal && t.source != 8) &&
    x.issue.wait == .none && !x.issue.stepDue && (x.issue.preempt.isNone || x.tw) &&
    x.issue.faults.all (fun f => x.tw && !f.fatal) && x.sys.gcycHeld.isNone

/-- The loading of the next block (R250, R252): the header's page, the header rules, the slot, the command rules, the
payload; then its number. [DEDUCED A24, safe] [DEDUCED A83, unsafe] [DEDUCED A96, unsafe] -/
def loadBlock (s : State) (c : Nat) (k : Cascade) : State :=
  let cc : CoreId := .comp c
  let x := s.core cc
  let off : Int := ((k.block : Int) - k.chain.base) / 32
  let cascade (s : State) : State := fetchTrap s c causeCascade off none
  let inside (n : Nat) : Bool := decide (k.chain.base ≤ k.block ∧ (k.block + n : Nat) ≤ k.chain.top)
  if !inside 32 then cascade s else
  match fetchBytes s c k.block 32 with
  | .error va => fetchTrap s c causeXlate va none
  | .ok (bs, s) =>
    let h := BitVec.ofNat 256 (leNat bs)
    let n := 32 + 32 * blockLength h
    if !headerOk h || !inside n || !blockPlaceOk s c k.block n || !linksOk k.chain k.block h then cascade s else
    let isCmd := decide (1 ≤ blockOp h ∧ blockOp h ≤ 3)
    let w := blockCommand x.sys.fmt h
    let spec := blockSlot w
    let slot := if isCmd then checkSlot s cc w (x.reg (slotReg w spec.n)) spec else .ok none
    match slot with
    | .error (e, a) => fetchTrap s c e a none
    | .ok r =>
      if !blockRulesOk s c h w (match r with | some r => [r] | none => []) then cascade s else
      let need := if blockOp h = 2 ∨ blockOp h = 3 then 32 * blockLength h else 0
      match fetchBytes s c (k.block + 32) need with
      | .error va => fetchTrap s c causeXlate va none
      | .ok (bytes, s) =>
        let sound := blockOp h != 2 ||
          ((readSeeded (fun i => bytes.getD i 0) bytes.length (matK h) (matN h)).isSome &&
            blockLength h == ceilDiv (16 + 16 * (bytes.getD 1 0).toNat) 32)
        if !sound then cascade s else
        let q := x.eng.seq
        let cap := x.reg (slotReg w spec.n)
        let cmd : Cmd := ⟨w, q, s.now cc, (Vector.replicate 4 Reg.zero).setIfInBounds (slotIndex spec.n)
          (if slotReg w spec.n = 0 then Reg.zero else cap), false, none, k.block + 32⟩
        s.modCore cc (fun x => { x with
          cascade := some { k with header := some h, cmd := if isCmd then some cmd else none }
          eng := if isCmd then { x.eng.record q w 2 0 with seq := q + 1 } else x.eng })
where
  /-- The bytes of a range, or the first address of it that does not translate (R135). -/
  fetchBytes (s : State) (c a n : Nat) : Except Nat (List Byte × State) :=
    let (pages, s') := payloadPages s c a n
    match payloadMiss a pages a n with
    | none => .ok ((List.range n).map (payloadByte s' a pages), s')
    | some va => .error va

/-- A block that is being recovered and that a fetch of n bytes of the chain touches (R141). -/
def blockRecovers (s : State) (c block n : Nat) : Option Nat :=
  s.module.recovering.find? (fun b =>
    if isExternal block then decide (4096 * b < lpddrEnd)
    else decide (4096 * b < rawHome (.comp c) block + n ∧ rawHome (.comp c) block < 4096 * b + 4096))

/-- What a recovery does to a chain that touches its block: it waits, and in a window it raises ECC (R141). [DEDUCED A39, unsafe] -/
def heldChain (s : State) (c b : Nat) : State := if (s.core (.comp c)).tw then eccFault s (.comp c) (4096 * b) else s

/-- CASCADE_BLOCK_LOAD (R250): the fetcher loads and checks the block at which core c's chain stands. -/
def execCascadeBlockLoad (c : Nat) (s : State) : Host.Outcome State Fault Refusal :=
  if c ≥ Config.computeCores then .fault .noSuchUnit else
  let x := s.core (.comp c)
  match x.cascade with
  | some k =>
    if !(x.chainRuns && k.header.isNone && x.eng.array.isNone) then .next s else
    .next (match blockRecovers s c k.block 32 with
      | some b => heldChain s c b
      | none => loadBlock s c k)
  | none => .next s

/-! ## Running -/

/-- May the loaded block of core c start now (R251, R261): its start cycle, or G_R after a freeze. -/
def blockMayStart (s : State) (c : Nat) (op : Nat) : Option (Cascade × BitVec 256) :=
  let x := s.core (.comp c)
  match x.cascade with
  | some k =>
    match k.header with
    | some h =>
      let due := match k.resumeAt with
        | some g => decide (g.toNat ≤ (s.gcyc (.comp c)).toNat)
        | none => decide (k.start ≤ s.now (.comp c))
      if x.chainRuns && blockOp h == op && due && x.eng.array.isNone && decide (x.eng.freeAt ≤ s.now (.comp c)) then some (k, h) else none
    | none => none
  | none => none

/-- The chain's G_R is spent once the part it waits for starts (R261). -/
def clearResume (s : State) (c : Nat) : State :=
  s.modCore (.comp c) (fun x => { x with cascade := x.cascade.map (fun k => { k with resumeAt := none }) })

/-- The event bit of a condition holds, after every set and clear that lands on this cycle (R253, R255). -/
def conditionMet (s : State) (c : Nat) (h : BitVec 256) : Bool :=
  let q := clusterOf (.comp c)
  let x := s.cluster q
  bitAt (landAll x.ev (x.landing.filter (fun p => p.due.isSome && s.lands q p)) ||| s.freshBits q) (blockEvent h) == blockPolarity h

/-- The command as it runs: of a DRAIN the routing kind stands in DMODE (R254). -/
def runningCmd (h : BitVec 256) (k : Cmd) : Cmd :=
  if blockOp h = 3 then { k with word := setBits k.word 30 2 (kindMode (blockKind h)) } else k

/-- A command of a block goes onto the array: it waits for banks that are being zeroed, in a window it raises TIMING (R251), and
without a usable lane it is refused (R234). -/
def startBlock (s : State) (c : Nat) (k : Cascade) (h : BitVec 256) (go : Cmd → State → State) : State :=
  match k.cmd with
  | none => s
  | some cmd =>
    let x := s.core (.comp c)
    match (heldBlock s (.comp c) cmd).or (blockRecovers s c cmd.base (32 * blockLength h)) with
    | some b => heldChain s c b
    | none =>
    if !banksReady s c (runningCmd h cmd) then
      (if x.tw then engineFault s (.comp c) causeTiming (s.gcyc (.comp c)).toNat (some cmd.seq) 1 true else s)
    else
      let s := (clearResume s c).modCore (.comp c) (fun x => { x with eng := x.eng.mark cmd.seq 1 })
      if s.lanes c = 0 then refuseAtAcceptance s c cmd 0x0105 else go cmd s

/-- A block that has stopped loads again, from a cycle on; its ring entry says stopped (R260, R315). [DEDUCED A96, unsafe] -/
def reloadBlock (s : State) (c : Nat) (k : Cmd) (start : Nat) : State :=
  s.modCore (.comp c) (fun x => { x with
    cascade := x.cascade.map (fun y => { y with header := none, cmd := none, start := start })
    eng := x.eng.mark k.seq 3 })

/-- Run an MM.T or MM.S block (R253); one that goes on from a restart point has sampled its condition before (R260). -/
def runMatrixBlock (op c : Nat) (s : State) : State :=
  match blockMayStart s c op with
  | none => s
  | some (k, h) => startBlock s c k h (fun cmd s =>
      let begun := bitsAt (s.core (.comp c)).sys.progress 5 27 != 0
      let M := if matCM h && !begun && !conditionMet s c h then 0 else matM h
      if M = 0 then startProduct s c cmd ⟨0, matN h, false, cmdBank cmd.word, false, true, [], emptyPart, []⟩ 0 true none else
      let (pages, s) := payloadPages s c cmd.base (blockBytes s c cmd)
      match (if op = 2 then payloadMiss cmd.base pages cmd.base (blockBytes s c cmd) else none) with
      | some va => fetchTrap (reloadBlock s c cmd (s.now (.comp c))) c causeXlate va (some cmd.seq)
      | none =>
      match blockProduct s c cmd M pages with
      | none => s
      | some x =>
        let W := x.costs.length
        let origin := progressPoint (s.core (.comp c)).sys.progress W (stepsOf cmd.word (s.lanes c) W)
        let stop := match lineStop cmd x pages origin, badWindow x origin with
          | some a, some b => some (if b.1 < a.1 then b else a)
          | none, b => b
          | a, none => a
        startProduct s c cmd x origin true stop)
where
  /-- A part with nothing in it. -/
  emptyPart : Part :=
    { lane := fun _ _ => 0, bad := fun _ => false, clamp := fun _ => false, units := 0, cost := fun _ => 0,
      weights := fun _ _ => [], badTrit := fun _ => false }

/-- BLOCK_MM_T (R253). -/
def execBlockMmT (c : Nat) (s : State) : Host.Outcome State Fault Refusal :=
  if c ≥ Config.computeCores then .fault .noSuchUnit else .next (runMatrixBlock 1 c s)

/-- BLOCK_MM_S (R253). -/
def execBlockMmS (c : Nat) (s : State) : Host.Outcome State Fault Refusal :=
  if c ≥ Config.computeCores then .fault .noSuchUnit else .next (runMatrixBlock 2 c s)

/-- BLOCK_DRAIN (R254): the column scales come from the payload, and the routing kind says where the values go. -/
def execBlockDrain (c : Nat) (s : State) : Host.Outcome State Fault Refusal :=
  if c ≥ Config.computeCores then .fault .noSuchUnit else
  match blockMayStart s c 3 with
  | none => .next s
  | some (k, h) =>
    let wait := match k.cmd with
      | some cmd => blockKind h == 2 && earlierBeats (s.core (.comp c)) (headWord h 4).toNat cmd.seq
      | none => false
    if wait then .next s else
    .next (startBlock s c k h (fun cmd s =>
      let (pages, s) := payloadPages s c cmd.base (32 * blockLength h)
      let get := payloadByte s cmd.base pages
      let scales : DrainScales :=
        { column := fun n => if blockLength h = 0 then .fin false 1 0
            else fpOf (ofBf16 (BitVec.ofNat 16 (leNat [get (2 * n), get (2 * n + 1)])))
          row := (commandScales s c cmd).row }
      let target : DrainTo := match blockKind h with
        | 0 => .fold (bitsAt (headWord h 4) 0 5)
        | 1 => .home (sliceHome (headWord h 4).toNat (drnOffset h))
        | _ => .beats (headWord h 4).toNat
      startDrain s c (runningCmd h cmd) scales target true (cmdFmt cmd.word)))

/-- A block of one cycle without a command: on its start cycle the chain waits for its completion cycle, then `done` (R251). -/
def oneCycle (op c : Nat) (start : BitVec 256 → State → BitVec 32) (done : BitVec 256 → State → State) (s : State) : State :=
  let x := s.core (.comp c)
  match x.cascade with
  | some k =>
    match k.link, k.header with
    | some l, some h =>
      if blockOp h = op ∧ k.start + 1 ≤ s.now (.comp c) ∧ x.casc ∧ x.run = .running then
        let s' := done h s
        if op = 6 then s' else nextBlock s' c l
      else s
    | _, _ =>
      match blockMayStart s c op with
      | none => s
      | some (k, h) =>
        let l := start h s
        (clearResume s c).modCore (.comp c) (fun x => { x with
          cascade := some { k with link := some l, start := s.now (.comp c), resumeAt := none } })
  | none => s

/-- BLOCK_BRANCH (R255): the bit sampled on the start cycle selects the link. -/
def execBlockBranch (c : Nat) (s : State) : Host.Outcome State Fault Refusal :=
  if c ≥ Config.computeCores then .fault .noSuchUnit else
  .next (oneCycle 4 c (fun h s => if conditionMet s c h then headWord h 2 else headWord h 1) (fun _ s => s) s)

/-- BLOCK_YIELD (R256): the chain leaves Cascade mode on the completion cycle. -/
def execBlockYield (c : Nat) (s : State) : Host.Outcome State Fault Refusal :=
  if c ≥ Config.computeCores then .fault .noSuchUnit else .next (oneCycle 5 c (fun _ _ => 0) (fun _ s => s) s)

/-- BLOCK_END (R257): the core frees its banks and retires as after `end`. [DEDUCED A69, unsafe] -/
def execBlockEnd (c : Nat) (s : State) : Host.Outcome State Fault Refusal :=
  if c ≥ Config.computeCores then .fault .noSuchUnit else
  .next (oneCycle 6 c (fun _ _ => 0) (fun _ s => s.modCore (.comp c) (fun x =>
    let x := (x.setStatus 1 false).startRetiring
    let waiting := x.issue.trapWait
    { x with
      cascade := none
      sys := { x.sys with progress := 0 }
      slice := { x.slice with holders := x.slice.holders.map (fun h => if h = .program then .free else h) }
      issue := { x.issue with
        answered := x.issue.answered ++ (match waiting with | some t => if t.code = causePreempt then [t.source] else [] | none => [])
        trapWait := match waiting with | some t => if t.fatal then some t else none | none => none } })) s)

/-- BLOCK_PAD (R258): nothing for one cycle. -/
def execBlockPad (c : Nat) (s : State) : Host.Outcome State Fault Refusal :=
  if c ≥ Config.computeCores then .fault .noSuchUnit else
  .next (oneCycle 7 c (fun h _ => headWord h 1) (fun _ s => s) s)

/-- BLOCK_EVSET (R258): the event bit is set on the completion cycle. -/
def execBlockEvset (c : Nat) (s : State) : Host.Outcome State Fault Refusal :=
  if c ≥ Config.computeCores then .fault .noSuchUnit else
  .next (oneCycle 8 c (fun h _ => headWord h 1) (fun h s =>
    s.land (clusterOf (.comp c)) (some (s.now (.comp c))) true (eventMask (bitsAt (headWord h 5) 0 8))) s)

/-- A matrix or DRAIN block completes (R225, R251, R253): its event bit, its ring entry, and the chain's next block. -/
def completeBlock (s : State) (c : Nat) (r : ArrayRun) : State :=
  let s := (landRun s c r).modCore (.comp c) (fun x => { x with eng := { x.eng with array := none, freeAt := r.finish, cmdEnd := r.finish } })
  let s := completeCommand s (.comp c) r.cmd
  match ((s.core (.comp c)).cascade).bind (fun k => k.header) with
  | some h => nextBlock s c (headWord h 1)
  | none => s

/-- A matrix block stops at a window (R259, R260): the block loads again from there. [DEDUCED A96, unsafe] -/
def stopBlock (s : State) (c i : Nat) (r : ArrayRun) : State :=
  reloadBlock (haltRun s c i r (bitsAt (s.core (.comp c)).sys.progress 32 32)) c r.cmd (r.passes i)

end Sys2Proof.Machine
end

