-- ==== Sys2Proof/Machine/Copy.lean ====
section
/-! DEFINITION. The copy engines (R276-R283): ranges and their translation, COPY and FILL with their chunks (R277-R279), the
transforms of XFORM and the expanders (R158-R164, R281, R282), TERN (R283), and the end of a chunk (R279). -/

namespace Sys2Proof.Machine
open Sys2Proof

/-! ## Ranges -/

/-- A range of n bytes at an address as pieces of memory by home address, translating external pages one by one; an error is
the address that does not translate (R135, R276, R279). -/
def piecesOf (c : CoreId) (t : Translator) (need : Need) :
    Nat → Nat → Nat → State → Except Nat (List (Nat × Nat) × State)
  | 0, _, _, s => .ok ([], s)
  | fuel + 1, a, n, s =>
    if n = 0 then .ok ([], s)
    else if !isExternal a then .ok ([(rawHome c a, n)], s)
    else
      let m := min n (4096 - a % 4096)
      match s.translate t (s.core c).context a need m with
      | none => .error (a + ((List.range m).find? (fun i => (s.translate t (s.core c).context (a + i) need).isNone)).getD 0)
      | some (pa, s') =>
        match piecesOf c t need fuel (a + m) (n - m) s' with
        | .ok (ps, s'') => .ok ((pa, m) :: ps, s'')
        | .error e => .error e

/-- The pieces of n bytes at an address. -/
def pieces (s : State) (c : CoreId) (t : Translator) (need : Need) (a : Int) (n : Nat) : Except Nat (List (Nat × Nat) × State) :=
  piecesOf c t need (n / 4096 + 2) a.toNat n s

/-- The bytes of pieces. -/
def readPieces (s : State) (ps : List (Nat × Nat)) : List Byte := ps.flatMap (fun p => s.bytes p.1 p.2)

/-- Write bytes into pieces. -/
def writePieces : State → List (Nat × Nat) → List Byte → State
  | s, [], _ => s
  | s, (h, n) :: r, bs => writePieces (s.write h (bs.take n)) r (bs.drop n)

/-- The translator of a copy engine (R276). -/
def copyTranslator : CoreId → Translator
  | .mem m => .memCore m
  | .comp k => .dipper (k / 16)

/-- What a copy command's destination needs of a leaf (R132, R134, R135): FILL is an ordinary write whatever its capability grants.
[DEDUCED A52, unsafe] -/
def destNeed (k : Cmd) : Need :=
  if cmdOp k.word = 3 then .tern else if cmdOp k.word ≠ 4 ∧ (k.slot 4).permG then .grant else .write

/-- An address of a slot as a number, moved by an offset. -/
def Cmd.at (k : Cmd) (n off : Nat) : Int := k.addr n + off

/-- The command with the slot in W_n moved on by d bytes (R108, R284): its offset, or where that field cannot hold it the
cursor of the slot's capability. [DEDUCED A28, unsafe] [DEDUCED A50, safe] -/
def Cmd.moveSlot (k : Cmd) (n d : Nat) : Cmd :=
  let off := slotOff k.word n + d
  if off < 2 ^ 26 then { k with word := setBits k.word (32 * n) 27 (unsignedOf 27 off) }
  else
    let r := k.slot n
    { k with slots := k.slots.setIfInBounds (slotIndex n) { r with w0 := setBits r.w0 0 57 (r.cursor + d) } }

/-! ## Acceptance -/

/-- An XLATE of this command still waits to be taken, so that it does not start again before its trap (R279, R284). -/
def Core.awaitsTrap (c : Core) (k : Cmd) : Bool :=
  c.issue.faults.any (fun f => f.seq == some k.seq) ||
    (match c.issue.trapWait with
     | some t => t.code == causeXlate && t.seq == seqWord (some k.seq)
     | none => false)

/-- May the copy engine take the head of its queue now (R205, R276). -/
def copyAccepts (s : State) (c : CoreId) (k : Cmd) : Bool :=
  let x := s.core c
  onTime s c k && x.eng.copyRun.isNone && decide (x.eng.copyFree ≤ s.now c) && !x.awaitsTrap k

/-- A stopped copy command as it returns to its queue (R108, R279): COPY and FILL with offsets advanced and length reduced,
XFORM and TERN with the rows completed in W5. -/
def stoppedCopy (k : Cmd) (done : Nat) : Cmd :=
  if cmdOp k.word = 2 ∨ cmdOp k.word = 3 then { k with word := setBits k.word 160 32 done } else
  let k' := (if cmdOp k.word = 1 then k.moveSlot 2 done else k).moveSlot 4 done
  { k' with word := setBits k'.word 160 32 (cmdW5 k.word - done) }

/-- Stop the running copy command at a boundary: back at the head of its queue, with a translation failure reported when there
is one (R108, R279). -/
def stopCopy (s : State) (c : CoreId) (r : CopyRun) (xlate : Option Nat) : State :=
  let s := s.modCore c (fun x =>
    ({ x with eng := { x.eng with copyRun := none, copyFree := s.now c } } : Core).requeue 2 (stoppedCopy r.cmd r.done))
  match xlate with
  | some va => s.modCore c (fun x => { x with
      issue := { x.issue with faults := x.issue.faults ++ [⟨causeXlate, BitVec.ofNat 64 va, some r.cmd.seq, 3, false, s.now c⟩] } })
  | none => s

/-- A copy command faults: ENGINE, SOURCE 3 (R290). -/
def failCopy (s : State) (c : CoreId) (k : Cmd) (code : Nat) : State :=
  engineFault (s.modCore c (fun x => { x with eng := { x.eng with copyRun := none, copyFree := s.now c } })) c causeEngine code
    (some k.seq) 3 true

/-- Replace the running copy command. -/
def setCopy (s : State) (c : CoreId) (r : CopyRun) : State :=
  s.modCore c (fun x => { x with eng := { x.eng with copyRun := some r } })

/-- The bytes of the current unit have been moved; at one 64-byte line per cycle the unit ends n lines from now (R276). -/
def unitMoved (s : State) (c : CoreId) (r : CopyRun) (n : Nat) : State :=
  setCopy s c { r with moved := true, finish := some (s.now c + n) }

/-- Lines that some written ranges fill. -/
def writtenLines (ws : List (Nat × List Byte)) : Nat := ws.foldl (fun t p => t + ceilDiv p.2.length 64) 0

/-- Read ranges at offsets from the slot in W_n, all of them translated. -/
def readRanges (s : State) (c : CoreId) (t : Translator) (k : Cmd) (n : Nat) :
    List (Nat × Nat) → Except Nat (List (List Byte) × State)
  | [] => .ok ([], s)
  | (rel, len) :: r =>
    match pieces s c t .read (k.at n rel) len with
    | .error e => .error e
    | .ok (ps, s') =>
      match readRanges s' c t k n r with
      | .error e => .error e
      | .ok (l, s'') => .ok (readPieces s' ps :: l, s'')

/-- Where writes at offsets from the slot in W_n land, all of them translated. -/
def placeRanges (s : State) (c : CoreId) (t : Translator) (need : Need) (k : Cmd) (n : Nat) :
    List (Nat × List Byte) → Except Nat (List (List (Nat × Nat) × List Byte) × State)
  | [] => .ok ([], s)
  | (rel, bs) :: r =>
    match pieces s c t need (k.at n rel) bs.length with
    | .error e => .error e
    | .ok (ps, s') =>
      match placeRanges s' c t need k n r with
      | .error e => .error e
      | .ok (l, s'') => .ok ((ps, bs) :: l, s'')

/-- Make the writes. -/
def writeRanges (s : State) (l : List (List (Nat × Nat) × List Byte)) : State := l.foldl (fun s p => writePieces s p.1 p.2) s

/-! ## COPY and FILL (R277, R278) -/

/-- Bytes of the next chunk of a COPY or FILL (R277). -/
def chunkLen (k : Cmd) (done : Nat) : Nat := min 4096 (cmdW5 k.word - done)

/-- The byte of a FILL at an address (R277). -/
def fillByte (k : Cmd) (a : Nat) : Byte := (wordAt k.word 6).extractLsb' (8 * (a % 4)) 8

/-- The granules whose tags a copied run carries over: C on both capabilities, equal addresses modulo 16, whole granules; one
that the command's last piece has `begun` is whole with this one (R125). [DEDUCED A48, unsafe] -/
def carriedTags (s : State) (k : Cmd) (begun : Bool) (sh dh n : Nat) : List Nat :=
  if (k.slot 2).permC && (k.slot 4).permC && decide (sh % 16 = dh % 16) then
    (List.range (n / 16 + 1)).filterMap (fun i =>
      let g := (if begun then dh else dh + 15) / 16 * 16 + 16 * i
      if g + 16 ≤ dh + n ∧ s.tagAt (sh + g - dh) then some g else none)
  else []

/-- Copy bytes from homes to homes line by line, ascending (R277). -/
def copyLines : Nat → List (Nat × Nat) → State → State
  | 0, _, s => s
  | _, [], s => s
  | fuel + 1, (a, b) :: r, s =>
    let line := ((a, b) :: r).take (64 - b % 64)
    let vals := line.map (fun p => (p.2, s.byte p.1))
    copyLines fuel (((a, b) :: r).drop (64 - b % 64)) (vals.foldl (fun s p => s.write p.1 [p.2]) s)

/-- Move n bytes between pieces: from SRAM to SRAM whole and with tags, otherwise line by line without (R125, R277). [DEDUCED A48, unsafe] -/
def movePieces (s : State) (k : Cmd) (begun : Bool) (src dst : List (Nat × Nat)) (sram : Bool) : State :=
  match sram, src, dst with
  | true, [(sh, n)], [(dh, _)] =>
    let tags := carriedTags s k begun sh dh n
    tags.foldl (fun s g => s.setTag g) (s.write dh (s.bytes sh n))
  | _, _, _ =>
    let addrs (ps : List (Nat × Nat)) : List Nat := ps.flatMap (fun p => (List.range p.2).map (fun i => p.1 + i))
    let l := (addrs src).zip (addrs dst)
    copyLines l.length l s

/-- Move n bytes of a COPY or FILL at an offset, all of them translated first and noted as the slice's own (R126); an error is the address that fails. -/
def moveBytes (s : State) (c : CoreId) (k : Cmd) (off n : Nat) : Except Nat State :=
  let t := copyTranslator c
  if cmdOp k.word = 1 then
    match pieces s c t .read (k.at 2 off) n with
    | .error va => .error va
    | .ok (src, s1) =>
      match pieces s1 c t (destNeed k) (k.at 4 off) n with
      | .error va => .error va
      | .ok (dst, s2) =>
        .ok ((movePieces s2 k (decide (0 < off)) src dst (!isExternal (k.addr 2).toNat && !isExternal (k.addr 4).toNat)).notePieces c dst)
  else
    match pieces s c t (destNeed k) (k.at 4 off) n with
    | .error va => .error va
    | .ok (dst, s1) =>
      let a := (k.at 4 off).toNat
      .ok ((writePieces s1 dst ((List.range n).map (fun i => fillByte k (a + i)))).notePieces c dst)

/-- Cycles a timed COPY or FILL occupies its engine (R278). -/
def timedCycles (k : Cmd) : Nat := ceilDiv (cmdW5 k.word) 64 + (if cmdOp k.word = 1 then 2 else 1)

/-- Cycles from the end of the occupancy to the completion of a timed one (R10, R278). -/
def timedTravel (c : CoreId) (k : Cmd) : Nat :=
  match c, sliceOf (k.home c 4) with
  | .comp a, some b => if a = b then 0 else 4 + 2 * hops a b
  | _, _ => 0

/-- The lines that a timed COPY or FILL writes, read on its start cycle: offset, home, bytes and the granules whose tags they carry. A
timed command's ranges lie in SRAM (R15, R278). [DESIGN CHOICE A7, unsafe] -/
def timedLines (s : State) (c : CoreId) (k : Cmd) : List (Nat × Nat × List Byte × List Nat) :=
  let sh := k.home c 2
  let dh := k.home c 4
  let tags := if cmdOp k.word = 1 then carriedTags s k false sh dh (cmdW5 k.word) else []
  (List.range (cmdW5 k.word / 64)).map (fun i =>
    let h := dh + 64 * i
    let bs := if cmdOp k.word = 1 then s.bytes (sh + 64 * i) 64 else (List.range 64).map (fun j => fillByte k ((k.addr 4).toNat + 64 * i + j))
    (64 * i, h, bs, tags.filter (fun g => decide (h ≤ g ∧ g < h + 64))))

/-- Cycles from the start of a timed command to the landing of its line at an offset: one line a cycle, the last one on the completion
cycle (R278). [DEDUCED A76, unsafe] -/
def lineDelay (c : CoreId) (k : Cmd) (off : Nat) : Nat :=
  timedCycles k - ceilDiv (cmdW5 k.word) 64 + timedTravel c k + off / 64 + 1

/-- Start a timed COPY or FILL on its cycle (R205, R278). [DEDUCED A76, unsafe] -/
def startTimedCopy (s : State) (c : CoreId) (k : Cmd) : State :=
  let t := s.now c
  let occ := timedCycles k
  let run : CopyRun := ⟨k, t, 0, true, some (t + occ + timedTravel c k), [], true, timedLines s c k⟩
  s.modCore c (fun x => { x with eng := { x.eng with copyFree := t + occ, landing := x.eng.landing ++ [run] } })

/-- Accept a COPY or FILL, or move the next chunk of the one that runs (R205, R277, R279). [DESIGN CHOICE A8, unsafe] -/
def runCopy (op : Nat) (c : CoreId) (s : State) : State :=
  let x := s.core c
  let move (s : State) (r : CopyRun) : State :=
    match moveBytes s c r.cmd r.done (chunkLen r.cmd r.done) with
    | .error va => stopCopy s c r (some va)
    | .ok s' => unitMoved s' c r (ceilDiv (chunkLen r.cmd r.done) 64)
  match x.eng.copyRun with
  | some r => if cmdOp r.cmd.word = op ∧ !r.moved ∧ !r.ended ∧ !heldByRecovery s c r.cmd then move s r else s
  | none =>
    match x.head 2 with
    | none => s
    | some k =>
      if cmdOp k.word = op ∧ copyAccepts s c k then
        let s := s.modCore c (fun x => x.take 2 k)
        if cmdT k.word then startTimedCopy s c k
        else
          let r : CopyRun := ⟨k, s.now c, 0, false, none, [], cmdW5 k.word == 0, []⟩
          if r.ended then setCopy s c r else move s r
      else s

/-- COPY (R277): the copy engine of core c accepts a COPY, or moves its next chunk. -/
def execCopy (c : CoreId) (s : State) : Host.Outcome State Fault Refusal :=
  if !c.wf then .fault .noSuchUnit else .next (runCopy 1 c s)

/-- FILL (R277): the copy engine of core c accepts a FILL, or fills its next chunk. -/
def execFill (c : CoreId) (s : State) : Host.Outcome State Fault Refusal :=
  if !c.wf then .fault .noSuchUnit else .next (runCopy 4 c s)

/-! ## Layout records (R162, R163) -/

/-- Word n of a layout record. -/
def lay (l : List (BitVec 32)) (n : Nat) : Nat := (l.getD n 0).toNat
/-- Source and destination formats and group size. -/
def layFrom (l : List (BitVec 32)) : Nat := lay l 0 % 16
def layTo (l : List (BitVec 32)) : Nat := lay l 0 / 16 % 16
def layGroup (l : List (BitVec 32)) : Nat := lay l 0 / 2 ^ 16
/-- Bytes of an element of formats 0-5 and 8 (R162). -/
def formatSize (f : Nat) : Nat := if f = 1 ∨ f = 4 then 2 else if f = 2 ∨ f = 3 then 4 else 1

/-- Do the formats suit a transform (R281)? [DEDUCED A88, unsafe] -/
def formatsSuit (code : Nat) (l : List (BitVec 32)) : Bool :=
  let a := layFrom l
  let b := layTo l
  match code with
  | 0 => a == 0 && b == 6
  | 1 => a == 6 && b == 0
  | 2 => a == b && decide (a ≤ 4) && lay l 2 * formatSize a % 256 == 0
  | 3 => a == b && decide (a ≤ 4)
  | 4 => decide (a ≤ 4) && b == 7
  | 5 => a == 7 && decide (b ≤ 4)
  | 6 => a == 3 && b == 5
  | _ => a == 4 && b == 3

/-- The checks of R163 on a record, with those of TERN. [DEDUCED A49, unsafe] [DEDUCED A87, unsafe] [DEDUCED A89, unsafe] -/
def layoutOk (l : List (BitVec 32)) (code : Option Nat) : Bool :=
  lay l 0 / 256 % 256 == 0 && lay l 5 / 2 ^ 16 == 0 && (l.drop 9).all (fun w => w == 0) && decide (layFrom l ≤ 8 ∧ layTo l ≤ 8) &&
    lay l 8 != 0 && lay l 8 % 64 == 0 && (layTo l != 6 || lay l 4 % 64 == 0) &&
    (match code with
     | some n => formatsSuit n l
     | none => layFrom l == 4 && layTo l == 6 && layGroup l != 0 && layGroup l % 5 == 0 && lay l 2 % layGroup l == 0)

/-- Bytes that rows of some length at a stride span. -/
def strided (rows stride len : Nat) : Nat := if rows = 0 ∨ len = 0 then 0 else (rows - 1) * stride + len

/-- Bytes of a source row and a destination row, and the rows of each (R281). -/
def rowShape (code : Nat) (l : List (BitVec 32)) : Nat × Nat × Nat × Nat :=
  let n := lay l 2
  let z := formatSize (layFrom l)
  match code with
  | 0 => (n, ceilDiv n 5, lay l 1, lay l 1)
  | 1 => (ceilDiv n 5, n, lay l 1, lay l 1)
  | 2 => (n * z, n * z, lay l 1, lay l 1)
  | 3 => (n * z, lay l 1 * z, lay l 1, n)
  | 6 => (4 * n, n, lay l 1, lay l 1)
  | _ => (2 * n, 4 * n, lay l 1, lay l 1)

/-- A range of a command: slot word, offset, length, and whether it is written. -/
abbrev Span := Nat × Nat × Nat × Bool

/-- Does an exact extent pass R56 and R129, and lie in weight frames where TERN asks it (R276, R283)? [DEDUCED A49, unsafe] -/
def spanOk (s : State) (c : CoreId) (k : Cmd) (frames : Bool) (x : Span) : Bool :=
  let (n, rel, len, dst) := x
  if len = 0 then true else
  let r := k.slot n
  match checkCap c r (slotOff k.word n + rel) len (if dst then Reg.permW else Reg.permR) with
  | .error _ => false
  | .ok a =>
    match s.resolve c k.system a len (if !dst then .no else if r.permG then .grant else .plain) (isMemCore c) with
    | .error _ => false
    | .ok p =>
      !(frames && dst && !p.external) ||
        (match sliceOf p.home with
         | some sl => s.allWeights (dieOf c) sl ((p.home - Config.sramHome) % Config.sliceSize) len
         | none => false)

/-- The aligned 64-byte lines of a range (R280). -/
def linesIn (a : Int) (n : Nat) : Nat := if n = 0 then 0 else (a.toNat + n - 1) / 64 - a.toNat / 64 + 1

/-- Lines of rows at a stride, each row on its own (R280). -/
def linesOfRows (a : Int) (rows stride len : Nat) : Nat :=
  (List.range rows).foldl (fun t i => t + linesIn (a + (i * stride : Nat)) len) 0

/-- Is L7 zero or at least the bound of R280 for so many lines. [DEDUCED A49, unsafe] -/
def boundOk (l : List (BitVec 32)) (lines : Nat) : Bool := lay l 7 == 0 || decide (4096 + 4 * lines ≤ lay l 7)

/-- The ranges of a transform with rows (R281). -/
def rowSpans (code : Nat) (l : List (BitVec 32)) : List Span :=
  let (a, b, ra, rb) := rowShape code l
  [(3, 0, strided ra (lay l 3) a, false), (4, 0, strided rb (lay l 4) b, true)] ++
    (if code = 6 then [(4, lay l 6, strided (lay l 1) (scaleRow (lay l 2)) (1 + ceilDiv (lay l 2) 32), true)] else [])

/-- The lines of a transform with rows, the layout record's among them (R280). -/
def rowLines (k : Cmd) (code : Nat) (l : List (BitVec 32)) : Nat :=
  let (a, b, ra, rb) := rowShape code l
  1 + linesOfRows (k.addr 3) ra (lay l 3) a + linesOfRows (k.addr 4) rb (lay l 4) b +
    (if code = 6 then linesIn (k.at 4 (lay l 6)) (strided (lay l 1) (scaleRow (lay l 2)) (1 + ceilDiv (lay l 2) 32)) else 0)

/-! ## Sparse chunks and buffers (R158-R161) -/

/-- Cut a list into groups of n. -/
def groupsOf {α : Type} (n : Nat) (l : List α) : List (List α) :=
  (List.range (ceilDiv l.length n)).map (fun i => (l.drop (n * i)).take n)

/-- The presence bitmap of a chunk's elements, 16 bytes (R158). -/
def chunkBitmap (els : List (List Byte)) : List Byte :=
  leBytes 16 (els.zipIdx.foldl (fun m (e, i) => if e.any (fun b => b != 0) then m + 2 ^ i else m) 0)

/-- Encode a chunk of elements of z bytes: raw or packed (R158, R159). -/
def encodeChunk (z : Nat) (els : List (List Byte)) : Bool × List Byte :=
  let present := els.filter (fun e => e.any (fun b => b != 0))
  if 16 + present.length * z ≥ 128 * z then (true, els.flatten ++ List.replicate ((128 - els.length) * z) 0)
  else (false, chunkBitmap els ++ present.flatten)

/-- Round up to a multiple of 16. -/
def up16 (n : Nat) : Nat := (n + 15) / 16 * 16

/-- The offset table entries and the placed chunks of a tensor, and the end of the payload (R158). -/
def placeChunks (z : Nat) : List (List (List Byte)) → Nat → List Nat × List (Nat × List Byte) × Nat
  | [], o => ([], [], o)
  | els :: r, o =>
    let (raw, bs) := encodeChunk z els
    let last := o + bs.length
    let (es, ps, e) := placeChunks z r (if r.isEmpty then last else up16 last)
    ((o + if raw then 2 ^ 31 else 0) :: es, (o, bs) :: ps, e)

/-- The buffer of R281's sparse-encode, as writes from its header on (R158, R160). -/
def encodeBuffer (z : Nat) (data : List Byte) : List (Nat × List Byte) :=
  let els := groupsOf z data
  let C := els.length
  let (es, ps, e) := placeChunks z (groupsOf 128 els) 0
  let table := (es ++ [e]).flatMap (leBytes 4)
  let payload := (32 + table.length + 31) / 32 * 32
  let header := [(if z = 2 then 1 else if z = 4 then 2 else 0) * 2 ^ 12 + 1, C, e, 32, payload, C * z, 0, 0].flatMap (leBytes 4)
  [(0, header), (32, table)] ++ ps.map (fun p => (payload + p.1, p.2))

/-- Decode one chunk of at most `count` elements from the payload bytes of its extent; none when R159 refuses it. -/
def decodeChunk (z count extent : Nat) (raw : Bool) (get : Nat → Byte) : Option (List Byte) :=
  if raw then some ((List.range (count * z)).map get) else
  let bit (i : Nat) : Bool := bitAt (get (i / 8)) (i % 8)
  let n := ((List.range 128).filter bit).length
  if n * z + 16 > extent ∨ (List.range 128).any (fun i => decide (count ≤ i) && bit i) then none else
  some ((List.range count).foldl (fun (acc : List Byte × Nat) i =>
    if bit i then (acc.1 ++ (List.range z).map (fun j => get (16 + acc.2 * z + j)), acc.2 + 1)
    else (acc.1 ++ List.replicate z 0, acc.2)) ([], 0)).1

/-- Decode a sparse tensor through a reader of the table's entries and of the payload (R158, R159): the bytes decoded, and
whether a chunk was refused. [DEDUCED A71, unsafe] -/
def decodeChunks (z C : Nat) (entry : Nat → Nat) (get : Nat → Byte) : Nat → Nat → List Byte × Bool
  | 0, _ => ([], false)
  | n + 1, i =>
    let o := entry i % 2 ^ 31
    let o' := entry (i + 1) % 2 ^ 31
    if o' ≤ o then ([], true) else
    match decodeChunk z (min 128 (C - 128 * i)) (o' - o) (decide (entry i ≥ 2 ^ 31)) (fun j => get (o + j)) with
    | none => ([], true)
    | some bs => let (r, bad) := decodeChunks z C entry get n (i + 1); (bs ++ r, bad)

/-- What an expander does with a buffer: pass so many bytes untouched, expand to these bytes with a refusal of a chunk at the
end, or refuse it (R160, R161, R282). -/
inductive Expansion where
  | pass (n : Nat)
  | expand (bs : List Byte) (bad : Bool)
  | refuse

/-- What a level does with a buffer, from its header (R161): a buffer marked for a later level passes, whatever else its header holds; of
the others, one with a reserved field or with content 2 or 3 is refused, raw or not. [DEDUCED A71, unsafe] -/
inductive BufferPath where
  | pass
  | raw
  | chunks
  | refuse
  deriving DecidableEq, Repr

/-- Word n of a buffer header read through `get` (R160). -/
def bufferWord (get : Nat → Byte) (i : Nat) : Nat := leNat ((List.range 4).map (fun j => get (4 * i + j)))

/-- The path of a buffer at a level below the operand port (R160, R161). [DEDUCED A71, unsafe] -/
def bufferPath (level : Nat) (get : Nat → Byte) : BufferPath :=
  let b0 := bufferWord get 0
  let content := b0 % 256
  if b0 / 256 % 4 > level then .pass
  else if b0 / 2 ^ 14 ≠ 0 ∨ b0 / 2 ^ 11 % 2 ≠ 0 ∨ b0 / 2 ^ 12 % 4 = 3 ∨ content > 1 ∨ bufferWord get 6 ≠ 0 ∨ bufferWord get 7 ≠ 0 then .refuse
  else if content = 0 ∨ b0 / 2 ^ 10 % 2 = 1 then .raw
  else .chunks

/-- The bytes of a buffer that its path reads, from its header on: the payload, and for chunks the offset table (R158, R160, R282). -/
def bufferLength (path : BufferPath) (get : Nat → Byte) : Nat :=
  let B := bufferWord get
  match path with
  | .pass | .raw => max 32 (B 2 + B 4)
  | .chunks => max (max 32 (B 2 + B 4)) (B 3 + 4 * (ceilDiv (B 1) 128 + 1))
  | .refuse => 32

/-- The expander of a level on a buffer read through `get` (R161). [DEDUCED A71, unsafe] [DEDUCED A90, unsafe] -/
def expandBuffer (level : Nat) (get : Nat → Byte) : Expansion :=
  let B := bufferWord get
  match bufferPath level get with
  | .pass => .pass (B 2 + B 4)
  | .refuse => .refuse
  | .raw => .expand ((List.range (B 2)).map (fun i => get (B 4 + i))) false
  | .chunks =>
    let (bs, bad) := decodeChunks (2 ^ (B 0 / 2 ^ 12 % 4)) (B 1) (fun i => bufferWord (fun j => get (B 3 + j)) i)
      (fun i => get (B 4 + i)) (ceilDiv (B 1) 128) 0
    .expand bs bad

/-! ## XFORM (R281, R282) -/

/-- Pack the signs of a row (R153). [DEDUCED A49, unsafe] -/
def packSigns (vs : List Int) : List Byte :=
  (groupsOf 5 vs).map (fun g => BitVec.ofNat 8 ((List.range 5).foldl (fun a i =>
    a + (((g.getD i 0).sign + 1).toNat) * 3 ^ i) 0))

/-- Swizzle a row: chunk j at position j XOR (r mod 16) (R164). -/
def swizzleRow (r : Nat) (bs : List Byte) : List Byte :=
  (List.range (bs.length / 16)).flatMap (fun p => (bs.drop (16 * (p ^^^ (r % 16)))).take 16)

/-- 32-bit words of bytes. -/
def wordsOf (bs : List Byte) : List (BitVec 32) := (groupsOf 4 bs).map (fun g => BitVec.ofNat 32 (leNat g))
/-- 16-bit halves of bytes. -/
def halvesOf (bs : List Byte) : List (BitVec 16) := (groupsOf 2 bs).map (fun g => BitVec.ofNat 16 (leNat g))

/-- What row r of a transform reads, by offset from the source (R281). -/
def rowReads (code : Nat) (l : List (BitVec 32)) (r : Nat) : List (Nat × Nat) :=
  if code = 3 then
    let z := formatSize (layFrom l)
    (List.range (lay l 1)).map (fun i => (i * lay l 3 + r * z, z))
  else [(r * lay l 3, (rowShape code l).1)]

/-- What row r writes, by offset from the destination (R281). [DEDUCED A49, unsafe] -/
def rowWrites (code : Nat) (l : List (BitVec 32)) (r : Nat) (data : List (List Byte)) : List (Nat × List Byte) :=
  let bs := data.flatten
  let at0 := r * lay l 4
  match code with
  | 0 => [(at0, packSigns (bs.map (fun b => b.toInt)))]
  | 1 => [(at0, ((bs.flatMap byteTrits).take (lay l 2)).map (fun t => BitVec.ofInt 8 t))]
  | 2 => [(at0, swizzleRow r bs)]
  | 3 => [(at0, bs)]
  | 6 => let (els, sc) := quantiseRow (wordsOf bs); [(at0, els), (lay l 6 + r * scaleRow (lay l 2), sc)]
  | _ => [(at0, (halvesOf bs).flatMap (fun h => leBytes 4 (ofBf16 h).toNat))]

/-- Rows that an XFORM or TERN counts as units (R279). -/
def unitRows (k : Cmd) (l : List (BitVec 32)) : Nat :=
  if cmdOp k.word = 3 then lay l 1
  else
    let code := cmdW6 k.word
    if code = 4 ∨ code = 5 then max 1 (lay l 1) else if code = 3 then lay l 2 else lay l 1

/-- Move row r.done of a transform: everything it reads and writes is translated first (R279, R281). [DEDUCED A20, unsafe] -/
def moveRow (s : State) (c : CoreId) (code : Nat) (r : CopyRun) : State :=
  let k := r.cmd
  let t := copyTranslator c
  match readRanges s c t k 3 (rowReads code r.layout r.done) with
  | .error va => stopCopy s c r (some va)
  | .ok (data, s1) =>
    let out := rowWrites code r.layout r.done data
    match placeRanges s1 c t (destNeed k) k 4 out with
    | .error va => stopCopy s1 c r (some va)
    | .ok (ws, s2) =>
      let s3 := (writeRanges s2 ws).notePieces c (ws.flatMap (fun p => p.1))
      let bad := code == 1 && data.flatten.any badTritCode && !isMemCore c
      let s4 := if bad then s3.modCore c (fun x => x.raiseFlags (s3.now c) (setBadTrit 0)) else s3
      unitMoved s4 c r (writtenLines out)

/-- Write some of a command's ranges as one unit of it, the extents and the bound of all of them checked; `fault` follows the writes
(R276, R280). -/
def movePart (s : State) (c : CoreId) (r : CopyRun) (spans : List Span) (lines : Nat) (ws : List (Nat × List Byte))
    (fault : Option Nat) : State :=
  let k := r.cmd
  if !spans.all (spanOk s c k false) then failCopy s c k 0x0305
  else if !boundOk r.layout lines then failCopy s c k 0x0306
  else
    match placeRanges s c (copyTranslator c) (destNeed k) k 4 ws with
    | .error va => stopCopy s c r (some va)
    | .ok (l, s1) =>
      let s2 := (writeRanges s1 l).notePieces c (l.flatMap (fun p => p.1))
      match fault with
      | some code => failCopy s2 c k code
      | none => unitMoved s2 c r (writtenLines ws)

/-- Is the unit a command's last (R279). -/
def lastUnit (r : CopyRun) : Bool := decide (unitRows r.cmd r.layout ≤ r.done + 1)

/-- What row r of a sparse-encode writes of its buffer: the chunks whose last element lies in the row, and with the last row the header,
the table and what is left (R279, R281). [DEDUCED A77, unsafe] -/
def encodeRow (rowElements : Nat) (last : Bool) (r : Nat) (ws : List (Nat × List Byte)) : List (Nat × List Byte) :=
  let chunks := ws.drop 2
  let upto (n : Nat) : Nat := n * rowElements / 128
  if last then ws.take 2 ++ chunks.drop (upto r) else (chunks.take (upto (r + 1))).drop (upto r)

/-- Sparse-encode (R281). [DEDUCED A77, unsafe] -/
def moveEncode (s : State) (c : CoreId) (r : CopyRun) : State :=
  let l := r.layout
  let len := lay l 2 * formatSize (layFrom l)
  if !spanOk s c r.cmd false (3, 0, strided (lay l 1) (lay l 3) len, false) then failCopy s c r.cmd 0x0305 else
  match readRanges s c (copyTranslator c) r.cmd 3 ((List.range (lay l 1)).map (fun i => (i * lay l 3, len))) with
  | .error va => stopCopy s c r (some va)
  | .ok (data, s1) =>
    let ws := encodeBuffer (formatSize (layFrom l)) data.flatten
    let top := ws.foldl (fun m p => max m (p.1 + p.2.length)) 0
    movePart s1 c r [(4, 0, top, true)]
      (1 + linesOfRows (r.cmd.addr 3) (lay l 1) (lay l 3) len + linesIn (r.cmd.addr 4) top) (encodeRow (lay l 2) (lastUnit r) r.done ws) none

/-- Cut expanded bytes into rows at the destination stride (R281). -/
def expandedRows (l : List (BitVec 32)) (bs : List Byte) : List (Nat × List Byte) :=
  let row := lay l 2 * formatSize (layTo l)
  if row = 0 then [(0, bs)] else (groupsOf row bs).zipIdx.map (fun (g, i) => (i * lay l 4, g))

/-- Sparse-decode at this engine's level, row by row (R161, R279, R281, R282): the header, then what its path reads; bytes beyond those
read count as zero. [DEDUCED A71, unsafe] [DEDUCED A77, unsafe] -/
def moveDecode (s : State) (c : CoreId) (r : CopyRun) : State :=
  let k := r.cmd
  let t := copyTranslator c
  let rd (s : State) (o n : Nat) : Except Nat (List Byte × State) := (readRanges s c t k 3 [(o, n)]).map (fun p => (p.1.flatten, p.2))
  if !spanOk s c k false (3, 0, 32, false) then failCopy s c k 0x0305 else
  match rd s 0 32 with
  | .error va => stopCopy s c r (some va)
  | .ok (h, s1) =>
    let level := if isMemCore c then 0 else 2
    let len := bufferLength (bufferPath level (fun i => h.getD i 0)) (fun i => h.getD i 0)
    if !spanOk s1 c k false (3, 0, len, false) then failCopy s1 c k 0x0305 else
    match rd s1 0 len with
    | .error va => stopCopy s1 c r (some va)
    | .ok (buf, s2) =>
      let get (i : Nat) : Byte := buf.getD i 0
      let go (ws : List (Nat × List Byte)) (bad : Bool) : State :=
        let part := if lastUnit r then ws.drop r.done else (ws.drop r.done).take 1
        let fails := bad && (lastUnit r || decide (ws.length ≤ r.done + 1))
        movePart s2 c r (ws.map (fun p => (4, p.1, p.2.length, true)))
          (1 + linesIn (k.addr 3) len + ws.foldl (fun t p => t + linesIn (k.at 4 p.1) p.2.length) 0) part (if fails then some 0x0302 else none)
      match expandBuffer level get with
      | .pass n => go [(0, (List.range n).map get)] false
      | .expand bs bad => go (expandedRows r.layout bs) bad
      | .refuse => failCopy s2 c k 0x0303

/-- One unit of a transform. -/
def moveUnit (code : Nat) (s : State) (c : CoreId) (r : CopyRun) : State :=
  if code = 4 then moveEncode s c r else if code = 5 then moveDecode s c r else moveRow s c code r

/-- Accept an XFORM with a transform code: its record read and checked (R163, R276, R280), then its next row. -/
def acceptXform (code : Nat) (s : State) (c : CoreId) (k : Cmd) : State :=
  let s := s.modCore c (fun x => x.take 2 k)
  let r0 : CopyRun := ⟨k, s.now c, cmdW5 k.word, false, none, [], false, []⟩
  match readRanges s c (copyTranslator c) k 2 [(0, 64)] with
  | .error va => stopCopy s c r0 (some va)
  | .ok (data, s1) =>
    let l := wordsOf data.flatten
    let rows := decide (code ≠ 4 ∧ code ≠ 5)
    if !layoutOk l (some code) then failCopy s1 c k 0x0301
    else if rows && !(rowSpans code l).all (spanOk s1 c k false) then failCopy s1 c k 0x0305
    else if rows && !boundOk l (rowLines k code l) then failCopy s1 c k 0x0306
    else
      let r := { r0 with layout := l, ended := decide (unitRows k l ≤ cmdW5 k.word) }
      if r.ended then setCopy s1 c r else moveUnit code s1 c r

/-- Accept an XFORM of a code, or move the next row of the one that runs. -/
def runXform (code : Nat) (c : CoreId) (s : State) : State :=
  let x := s.core c
  match x.eng.copyRun with
  | some r => if cmdOp r.cmd.word = 2 ∧ cmdW6 r.cmd.word = code ∧ !r.moved ∧ !r.ended ∧ !heldByRecovery s c r.cmd then moveUnit code s c r else s
  | none =>
    match x.head 2 with
    | none => s
    | some k => if cmdOp k.word = 2 ∧ cmdW6 k.word = code ∧ copyAccepts s c k then acceptXform code s c k else s

/-- XFORM_PACK_TRITS (R281, code 0). -/
def execXformPackTrits (c : CoreId) (s : State) : Host.Outcome State Fault Refusal :=
  if !c.wf then .fault .noSuchUnit else .next (runXform 0 c s)
/-- XFORM_UNPACK (R281, code 1). -/
def execXformUnpack (c : CoreId) (s : State) : Host.Outcome State Fault Refusal :=
  if !c.wf then .fault .noSuchUnit else .next (runXform 1 c s)
/-- XFORM_SWIZZLE (R164, R281, code 2). -/
def execXformSwizzle (c : CoreId) (s : State) : Host.Outcome State Fault Refusal :=
  if !c.wf then .fault .noSuchUnit else .next (runXform 2 c s)
/-- XFORM_TRANSPOSE (R281, code 3). -/
def execXformTranspose (c : CoreId) (s : State) : Host.Outcome State Fault Refusal :=
  if !c.wf then .fault .noSuchUnit else .next (runXform 3 c s)
/-- XFORM_SPARSE_ENCODE (R158-R160, R281, code 4). -/
def execXformSparseEncode (c : CoreId) (s : State) : Host.Outcome State Fault Refusal :=
  if !c.wf then .fault .noSuchUnit else .next (runXform 4 c s)
/-- XFORM_SPARSE_DECODE (R158-R161, R281, R282, code 5). -/
def execXformSparseDecode (c : CoreId) (s : State) : Host.Outcome State Fault Refusal :=
  if !c.wf then .fault .noSuchUnit else .next (runXform 5 c s)
/-- XFORM_MXINT8_QUANTISE (R150, R152, R281, code 6). -/
def execXformMxint8Quantise (c : CoreId) (s : State) : Host.Outcome State Fault Refusal :=
  if !c.wf then .fault .noSuchUnit else .next (runXform 6 c s)
/-- XFORM_BF16_WIDEN (R145, R281, code 7). -/
def execXformBf16Widen (c : CoreId) (s : State) : Host.Outcome State Fault Refusal :=
  if !c.wf then .fault .noSuchUnit else .next (runXform 7 c s)

/-! ## TERN (R283) -/

/-- The threshold factor of a record (R162). -/
def ternTheta (l : List (BitVec 32)) : BitVec 32 :=
  if lay l 5 % 2 ^ 16 = 0 then 0x3F00_0000 else ofBf16 (BitVec.ofNat 16 (lay l 5))

/-- rne(x / n, FP32) of a pattern that is no NaN, for n > 0. -/
def fpDivNat (x : BitVec 32) (n : Nat) : BitVec 32 :=
  match fpOf x with
  | .fin s m e =>
    let q := m * 2 ^ 64 / n
    round32 s (2 * q + if m * 2 ^ 64 % n = 0 then 0 else 1) (e - 65)
  | v => fpBits v

/-- Is a value neither NaN nor infinite. -/
def fpFinite (x : BitVec 32) : Bool :=
  match fpOf x with
  | .nan | .inf _ => false
  | _ => true

/-- One group of latents: its packed trits and its scale, or none for ENGINE 0x0304 (R283). -/
def ternGroup (theta : BitVec 32) (latents : List (BitVec 16)) : Option (List Byte × BitVec 16) :=
  let ws := latents.map ofBf16
  let sum := ws.foldl (fun a w => fpAdd a (fpAbs w)) 0
  if !ws.all fpFinite || !fpFinite sum then none else
  let sc := fpDivNat sum latents.length
  let tau := fpMul theta sc
  let trit (w : BitVec 32) : Int :=
    if sc &&& 0x7FFF_FFFF = 0 then 0
    else if fpValueKey w > fpValueKey tau then 1
    else if fpValueKey w < fpValueKey (fpNeg tau) then -1 else 0
  some (packSigns (ws.map trit), toBf16 sc)

/-- The writes of column n: packed trits and scales, group by group, up to a group that fails (R283). -/
def ternColumn (l : List (BitVec 32)) (n : Nat) (latents : List (BitVec 16)) : List (Nat × List Byte) × Bool :=
  let G := layGroup l
  (groupsOf G latents).zipIdx.foldl (fun (acc : List (Nat × List Byte) × Bool) (g, i) =>
    if acc.2 then acc else
    match ternGroup (ternTheta l) g with
    | none => (acc.1, true)
    | some (bs, sc) =>
      (acc.1 ++ [(n * lay l 4 + i * G / 5, bs), (lay l 6 + 2 * (i * lay l 1 + n), leBytes 2 sc.toNat)], false)) ([], false)

/-- Move the next column of the running TERN: the whole row is translated before a group is written (R279, R283). -/
def moveTern (s : State) (c : CoreId) (r : CopyRun) : State :=
  let k := r.cmd
  let l := r.layout
  let t := copyTranslator c
  let n := r.done
  match readRanges s c t k 3 [(n * lay l 3, 2 * lay l 2)] with
  | .error va => stopCopy s c r (some va)
  | .ok (data, s1) =>
    let places := (List.range (lay l 2 / layGroup l)).flatMap (fun i =>
      [(n * lay l 4 + i * layGroup l / 5, List.replicate (layGroup l / 5) (0 : Byte)), (lay l 6 + 2 * (i * lay l 1 + n), [0, 0])])
    match placeRanges s1 c t .tern k 4 places with
    | .error va => stopCopy s1 c r (some va)
    | .ok (ws, s2) =>
      let (out, bad) := ternColumn l n (halvesOf data.flatten)
      let made := (ws.zip out).map (fun (w, o) => (w.1, o.2))
      let s3 := (writeRanges s2 made).notePieces c (made.flatMap (fun p => p.1))
      if bad then failCopy s3 c k 0x0304 else unitMoved s3 c r (writtenLines out)

/-- Accept a TERN: its record, extents, frames and bound checked, then its next column; one with no column left is counted at once (R163,
R276, R280, R283, R331). -/
def acceptTern (s : State) (c : CoreId) (k : Cmd) : State :=
  let s := s.modCore c (fun x => x.take 2 k)
  let r0 : CopyRun := ⟨k, s.now c, cmdW5 k.word, false, none, [], false, []⟩
  match readRanges s c (copyTranslator c) k 2 [(0, 64)] with
  | .error va => stopCopy s c r0 (some va)
  | .ok (data, s1) =>
    let l := wordsOf data.flatten
    let groups := lay l 2 / layGroup l
    let scales := 2 * lay l 1 * groups
    let run := lay l 2 / 5
    if !layoutOk l none || !fpFinite (ternTheta l) then failCopy s1 c k 0x0301
    else if !([(3, 0, strided (lay l 1) (lay l 3) (2 * lay l 2), false), (4, 0, strided (lay l 1) (lay l 4) run, true),
        (4, lay l 6, scales, true)] : List Span).all (spanOk s1 c k true) then failCopy s1 c k 0x0305
    else if !boundOk l (1 + linesOfRows (k.addr 3) (lay l 1) (lay l 3) (2 * lay l 2) +
        linesOfRows (k.addr 4) (lay l 1) (lay l 4) run + linesIn (k.at 4 (lay l 6)) scales) then failCopy s1 c k 0x0306
    else
      let r := { r0 with layout := l, ended := decide (unitRows k l ≤ cmdW5 k.word) }
      if r.ended then setCopy (countBarrier s1 c k) c r else moveTern s1 c r

/-- TERN (R283): the DRAM copy engine of core c accepts a TERN, or re-ternarises its next column. -/
def execTern (c : CoreId) (s : State) : Host.Outcome State Fault Refusal :=
  if !c.wf then .fault .noSuchUnit else
  let x := s.core c
  .next (match x.eng.copyRun with
    | some r => if cmdOp r.cmd.word = 3 ∧ !r.moved ∧ !r.ended ∧ !heldByRecovery s c r.cmd then moveTern s c r else s
    | none =>
      match x.head 2 with
      | none => s
      | some k => if cmdOp k.word = 3 ∧ copyAccepts s c k then acceptTern s c k else s)

/-! ## The end of a chunk (R279, R331) -/

/-- Barrier increments that a finished unit makes: each 4 KiB piece of COPY and FILL (R277), each multiple of L8 that the
destination bytes of an XFORM pass and a final part (R281), the whole of a TERN (R331). -/
def unitCounts (r : CopyRun) : Nat :=
  let l := r.layout
  match cmdOp r.cmd.word with
  | 2 =>
    let code := cmdW6 r.cmd.word
    let rows := if code = 4 ∨ code = 5 then lay l 1 else unitRows r.cmd l
    let before := r.done * lay l 4
    let after := min (r.done + 1) rows * lay l 4
    let last := decide (r.done + 1 = unitRows r.cmd l)
    after / lay l 8 - before / lay l 8 + (if last && after % lay l 8 != 0 then 1 else 0)
  | 3 => if r.done + 1 = unitRows r.cmd l then 1 else 0
  | _ => 1

/-- Has a pre-emption or a freeze asked the running command to stop (R108, R119)? -/
def Core.stopAsked (x : Core) (start : Nat) : Bool :=
  match x.eng.stopAt with
  | some t => decide (start ≤ t)
  | none => false

/-- The 4 KiB pieces after which a timed copy stops for a freeze: those begun by the freeze cycle, when that leaves some (R108,
R119). -/
def timedStop (x : Core) (r : CopyRun) : Option Nat :=
  match x.eng.stopAt with
  | some t =>
    let j := max 1 (ceilDiv (t - r.start) 64)
    if r.start ≤ t ∧ 4096 * j < cmdW5 r.cmd.word then some j else none
  | none => none

/-- Stop a timed copy after j pieces, all of which have landed: they are counted, and the rest stands at the head of its queue with W1 the
GCYC of the point (R108, R119). -/
def stopTimed (s : State) (c : CoreId) (r : CopyRun) (j : Nat) : State :=
  let s := (List.range j).foldl (fun s _ => countBarrier s c r.cmd) s
  let k := stoppedCopy r.cmd (4096 * j)
  let k := { k with word := setBits k.word 32 32 (cmdStart r.cmd.word + 64 * j) }
  s.modCore c (fun x =>
    ({ x with eng := { x.eng with landing := x.eng.landing.filter (fun l => l.cmd.seq != r.cmd.seq), copyFree := r.start + 64 * j } } : Core).requeue 2 k)

/-- Does a line of a timed command land by now: its cycle has come, and no stop comes before it (R119, R278). -/
def landsNow (x : Core) (c : CoreId) (now : Nat) (r : CopyRun) (off : Nat) : Bool :=
  decide (r.start + lineDelay c r.cmd off ≤ now) && (match timedStop x r with | some j => decide (off < 4096 * j) | none => true)

/-- The lines of core c's timed copies land as they reach their slice, one a cycle (R278). One that meets a block under recovery raises ECC, and
what the command still has for such a block is lost (R141). [DEDUCED A39, unsafe] [DEDUCED A76, unsafe] -/
def landLines (s : State) (c : CoreId) : State :=
  let x := s.core c
  if x.eng.landing.isEmpty then s else
  let lands (r : CopyRun) (l : Nat × Nat × List Byte × List Nat) : Bool := landsNow x c (s.now c) r l.1
  let lost (l : Nat × Nat × List Byte × List Nat) : Bool := s.recovers l.2.1 64
  let lines := x.eng.landing.flatMap (fun r => r.flight.filter (lands r))
  let hit := lines.find? lost
  let t := (lines.filter (fun l => !lost l)).foldl (fun s (_, h, bs, tags) =>
    (tags.foldl (fun s g => s.setTag g) (s.write h bs)).notePieces c [(h, 64)]) s
  let t := t.modCore c (fun x => { x with eng := { x.eng with landing := x.eng.landing.map (fun r =>
    let left := r.flight.filter (fun l => !lands r l)
    { r with flight := if (r.flight.filter (lands r)).any lost then left.filter (fun l => !lost l) else left }) } })
  match hit with
  | some l => eccFault t c l.2.1
  | none => t

/-- COPY_CHUNK (R279): the unit that has been moved is done and counted; the command ends, stops there, or goes on. The lines of timed
commands land (R278). [DESIGN CHOICE A7, unsafe] -/
def execCopyChunk (c : CoreId) (s : State) : Host.Outcome State Fault Refusal :=
  if !c.wf then .fault .noSuchUnit else
  let s := landLines s c
  let x := s.core c
  match x.eng.copyRun with
  | none => .next (match x.eng.landing.findSome? (fun r => (timedStop x r).map (fun j => (r, j))) with
    | some (r, j) => if r.start + lineDelay c r.cmd (4096 * j - 64) ≤ s.now c then stopTimed s c r j else s
    | none => s)
  | some r =>
    if !r.moved || (match r.finish with | some t => decide (s.now c < t) | none => false) then .next s else
    let s := (List.range (unitCounts r)).foldl (fun s _ => countBarrier s c r.cmd) s
    let rows := decide (cmdOp r.cmd.word = 2 ∨ cmdOp r.cmd.word = 3)
    let done := if rows then r.done + 1 else r.done + chunkLen r.cmd r.done
    let ended := if rows then decide (unitRows r.cmd r.layout ≤ done) else decide (cmdW5 r.cmd.word ≤ done)
    let r' := { r with done := done, moved := false, finish := none, ended := ended }
    if !ended && x.stopAsked r.start then .next (stopCopy s c r' none) else .next (setCopy s c r')

end Sys2Proof.Machine
end

