-- ==== Sys2Proof/Machine/Dipper.lean ====
section
/-! DEFINITION. The Dipper of a cluster (R284-R288): GATHER, SCATTER, SCADD and PAGES batch by batch, and the end of a batch; and
MERGE on the reduction engine (R289). -/

namespace Sys2Proof.Machine
open Sys2Proof

/-! ## Commands -/

/-- Index entries of a command: the count field, which of PAGES is the whole length word (R40). -/
def dipperCount (k : Cmd) : Nat := if cmdOp k.word = 4 then cmdW5 k.word else cmdW5 k.word % 2 ^ 16
/-- Row bytes and table rows (R286). -/
def dipperRB (k : Cmd) : Nat := cmdW5 k.word / 2 ^ 16
def dipperRows (k : Cmd) : Nat := cmdW6 k.word % 2 ^ 24
/-- SWZ, CSR and F32 (R38). -/
def dipperSwz (k : Cmd) : Bool := bitAt k.word 22
def dipperCsr (k : Cmd) : Bool := bitAt k.word 23
def dipperF32 (k : Cmd) : Bool := bitAt k.word 24
/-- Bytes of an index entry. -/
def dipperEntry (k : Cmd) : Nat := if cmdOp k.word = 1 ∧ dipperCsr k then 8 else 4

/-- Replace a core's accepted command. -/
def setDipper (s : State) (c : Nat) (r : Option DipperRun) : State :=
  s.modCore (.comp c) (fun x => { x with eng := { x.eng with dipperRun := r } })

/-- A command of the Dipper faults: ENGINE, SOURCE 4 (R290). -/
def failDipper (s : State) (c : Nat) (k : Cmd) (code : Nat) : State :=
  engineFault (setDipper s c none) (.comp c) causeEngine code (some k.seq) 4 true

/-- The command as it stands after a failed translation: its index slot past the completed batches and its count reduced, its
row and destination slots moved with them (R284). -/
def stoppedDipper (r : DipperRun) (stride : Nat) : Cmd :=
  let k := r.cmd.moveSlot 2 (r.done * dipperEntry r.cmd)
  let k := if cmdOp k.word = 1 ∨ cmdOp k.word = 4 then k.moveSlot 4 (r.rows * stride) else k.moveSlot 3 (r.done * stride)
  { k with word := setBits k.word 160 (if cmdOp k.word = 4 then 32 else 16) (dipperCount r.cmd - r.done), base := k.base + r.rows }

/-- A translation failed: the command stands at the head of its queue and XLATE is reported with SOURCE 4 (R284). [DEDUCED A28, unsafe] -/
def standDipper (s : State) (c : Nat) (r : DipperRun) (stride va : Nat) : State :=
  let s := setDipper s c none
  s.modCore (.comp c) (fun x =>
    let x := x.requeue 3 (stoppedDipper r stride)
    { x with issue := { x.issue with faults := x.issue.faults ++ [⟨causeXlate, BitVec.ofNat 64 va, some r.cmd.seq, 4, false, s.now (.comp c)⟩] } })

/-- The core that a cluster's Dipper serves next: the first after the last served, in ascending order with wrap, whose command
has entries left, when no batch is open and no command waits to complete after its last (R284, R285). [DEDUCED A91, unsafe] -/
def dipperTurn (s : State) (q : Nat) : Option Nat :=
  let runs (i : Nat) : Option DipperRun := (s.core (.comp (16 * q + i))).eng.dipperRun
  if (List.range 16).any (fun i => match runs i with | some r => r.batch.isSome || r.ended.isSome | none => false) then none else
  let first := match (s.cluster q).lastServed with | some c => c % 16 + 1 | none => 0
  ((List.range 16).map (fun i => (first + i) % 16)).find? (fun i => match runs i with
    | some r => decide (r.done < dipperCount r.cmd)
    | none => false) |>.map (fun i => 16 * q + i)

/-- May the Dipper accept the head of core c's queue (R205, R284)? -/
def dipperAccepts (s : State) (c : Nat) (k : Cmd) : Bool :=
  let x := s.core (.comp c)
  onTime s (.comp c) k && x.eng.dipperRun.isNone && !x.awaitsTrap k

/-- Read ranges of a slot through the cluster's Dipper. -/
def dipperRead (s : State) (c : Nat) (k : Cmd) (n : Nat) (l : List (Nat × Nat)) : Except Nat (List (List Byte) × State) :=
  readRanges s (.comp c) (.dipper (c / 16)) k n l

/-- The numbers of an index list, from entry i on (R286). -/
def readIndex (s : State) (c : Nat) (k : Cmd) (first n : Nat) : Except Nat (List Nat × State) :=
  (dipperRead s c k 2 [(4 * first, 4 * n)]).map (fun p => ((wordsOf p.1.flatten).map (fun w => w.toNat), p.2))

/-! ## GATHER (R286) -/

/-- The rows that entries name: none for a fill, and the NEGLEN increment; at most `room` + 1 of them (R286). [DEDUCED A28, unsafe] -/
def gatherRows (k : Cmd) (room : Nat) (xs : List Nat) : List (Option Nat) × Nat :=
  let row (x : Nat) : Option Nat := if x < dipperRows k then some x else none
  if dipperCsr k then
    (groupsOf 2 xs).foldl (fun (acc : List (Option Nat) × Nat) p =>
      let a := p.getD 0 0
      let b := p.getD 1 0
      if b < a then (acc.1, acc.2 + 1)
      else (acc.1 ++ (List.range (min (b - a) (room + 1 - acc.1.length))).map (fun i => row (a + i)), acc.2)) ([], 0)
  else (xs.map row, 0)

/-- Write destination row i of a GATHER (R164, R286). -/
def gatherWrite (s : State) (c : Nat) (k : Cmd) (i : Nat) (bs : List Byte) : State :=
  let bs := if dipperSwz k then swizzleRow (k.base + i) bs else bs
  s.write (k.home (.comp c) 4 + i * dipperRB k) bs

/-- The next batch of a GATHER (R284, R286). -/
def gatherBatch (s : State) (c : Nat) (r : DipperRun) : State :=
  let k := r.cmd
  let RB := dipperRB k
  let n := min 8 (dipperCount k - r.done)
  let per := dipperEntry k / 4
  match readIndex s c k (per * r.done) (per * n) with
  | .error va => standDipper s c r RB va
  | .ok (xs, s1) =>
    let room := ((k.slot 4).top - k.addr 4).toNat / RB - r.rows
    let (all, neg) := gatherRows k room xs
    let rows := if dipperCsr k then all.take room else all
    match dipperRead s1 c k 3 (rows.filterMap (fun x => x.map (fun x => (x * RB, RB)))) with
    | .error va => standDipper s1 c r RB va
    | .ok (data, s2) =>
      let fill := List.replicate RB ((wordAt k.word 6).extractLsb' 24 8)
      let out := rows.foldl (fun (acc : State × List (List Byte) × Nat) x =>
        match x with
        | some _ => (gatherWrite acc.1 c k (r.rows + acc.2.2) (acc.2.1.headD []), acc.2.1.tail, acc.2.2 + 1)
        | none => (gatherWrite acc.1 c k (r.rows + acc.2.2) fill, acc.2.1, acc.2.2 + 1)) (s2, data, 0)
      if dipperCsr k && decide (rows.length < all.length) then failDipper out.1 c k 0x0401
      else setDipper out.1 c (some { r with
        batch := some (n, rows.length), oob := (rows.filter (fun x => x.isNone)).length, neglen := neg })

/-! ## SCATTER and SCADD (R287) -/

/-- Add a row of 4-byte elements into memory (R287). -/
def addRow (s : State) (f32 : Bool) (h : Nat) (bs : List Byte) : State :=
  s.write h (((wordsOf (s.bytes h bs.length)).zip (wordsOf bs)).flatMap (fun (a, b) =>
    leBytes 4 (if f32 then fpAdd a b else a + b).toNat))

/-- The next batch of a SCATTER or SCADD (R284, R287). -/
def scatterBatch (s : State) (c : Nat) (r : DipperRun) : State :=
  let k := r.cmd
  let RB := dipperRB k
  let n := min 8 (dipperCount k - r.done)
  match readIndex s c k r.done n with
  | .error va => standDipper s c r RB va
  | .ok (xs, s1) =>
    match dipperRead s1 c k 3 [(r.done * RB, n * RB)] with
    | .error va => standDipper s1 c r RB va
    | .ok (data, s2) =>
      let rows := (xs.zip (groupsOf RB data.flatten)).filter (fun p => decide (p.1 < dipperRows k))
      match placeRanges s2 (.comp c) (.dipper (c / 16)) .write k 4 (rows.map (fun p => (p.1 * RB, p.2))) with
      | .error va => standDipper s2 c r RB va
      | .ok (ws, s3) =>
        let s4 := if cmdOp k.word = 2 then writeRanges s3 ws
          else rows.foldl (fun s p => addRow s (dipperF32 k) (k.home (.comp c) 4 + p.1 * RB) p.2) s3
        setDipper s4 c (some { r with batch := some (n, n), oob := n - rows.length, neglen := 0 })

/-! ## PAGES (R288) -/

/-- The header of a side table: E, D and whether its reserved bytes are 0. -/
def sideHeader (bs : List Byte) : Nat × Nat × Bool :=
  (leNat (bs.take 4), leNat ((bs.drop 4).take 4), (bs.drop 8).all (fun b => b == 0))

/-- An entry of a side table: address, length, the buffer mark and whether it is valid under a stride (R288). [DEDUCED A98, unsafe] -/
def sideEntry (D : Nat) (bs : List Byte) : Nat × Nat × Bool × Bool :=
  let va := leNat (bs.take 8)
  let len := leNat ((bs.drop 8).take 4)
  let b := leNat ((bs.drop 12).take 4)
  (va, len, b == 1, decide (1 ≤ len ∧ len ≤ D ∧ b ≤ 1 ∧ Config.externalBase ≤ va ∧ va + len ≤ Config.externalEnd))

/-- What a page puts in its slot, or the code of its fault (R282, R288). -/
def pageBytes (D : Nat) (marked : Bool) (data : List Byte) : Except Nat (List Byte) :=
  if !marked then .ok data else
  match expandBuffer 1 (fun i => data.getD i 0) with
  | .pass _ => .ok data
  | .expand bs bad => if bad then .error 0x0302 else if bs.length > D then .error 0x0402 else .ok bs
  | .refuse => .error 0x0403

/-- Read the pages of a batch, each translated: an error is an address, or a fault code above all addresses. -/
def readPages (s : State) (c : Nat) (D : Nat) : List (Option (Nat × Nat × Bool)) → Except Nat (List (Except Nat (List Byte)) × State)
  | [] => .ok ([], s)
  | none :: r => (readPages s c D r).map (fun p => (.ok (List.replicate D 0) :: p.1, p.2))
  | some (va, len, marked) :: r =>
    match pieces s (.comp c) (.dipper (c / 16)) .read va len with
    | .error e => .error e
    | .ok (ps, s') =>
      (readPages s' c D r).map (fun p => (pageBytes D marked (readPieces s' ps) :: p.1, p.2))

/-- The next batch of a PAGES (R284, R288): when its header cannot be read, W4 moves on by the stride that the header gave when it was read
last. [DEDUCED A98, unsafe] -/
def pagesBatch (s : State) (c : Nat) (r : DipperRun) : State :=
  let k := r.cmd
  let n := min 8 (dipperCount k - r.done)
  match dipperRead s c k 3 [(0, 16)] with
  | .error va => standDipper s c r r.stride va
  | .ok (h, s0) =>
    let (E, D, clean) := sideHeader h.flatten
    let r := { r with stride := D }
    match readIndex s0 c k r.done n with
    | .error va => standDipper s0 c r D va
    | .ok (xs, s1) =>
      match dipperRead s1 c k 3 ((xs.filter (fun x => decide (x < E))).map (fun x => (16 + 16 * x, 16))) with
      | .error va => standDipper s1 c r D va
      | .ok (es, s2) =>
        let entries := es.map (sideEntry D)
        if !clean || D % 64 != 0 || !entries.all (fun e => e.2.2.2) then failDipper s2 c k 0x0402 else
        let wanted := (xs.foldl (fun (acc : List (Option (Nat × Nat × Bool)) × List (Nat × Nat × Bool × Bool)) x =>
          if x < E then (acc.1 ++ [acc.2.head?.map (fun e => (e.1, e.2.1, e.2.2.1))], acc.2.tail)
          else (acc.1 ++ [none], acc.2)) ([], entries)).1
        match readPages s2 c D wanted with
        | .error va => standDipper s2 c r D va
        | .ok (ps, s3) =>
          match ps.findSome? (fun p => match p with | .error e => some e | .ok _ => none) with
          | some code => failDipper s3 c k code
          | none =>
            let s4 := ps.zipIdx.foldl (fun s (p, i) => match p with
              | .ok bs => s.write (k.home (.comp c) 4 + (r.rows + i) * D) bs
              | .error _ => s) s3
            setDipper s4 c (some { r with batch := some (n, n), oob := (xs.filter (fun x => decide (E ≤ x))).length, neglen := 0 })

/-! ## Acceptance -/

/-- Do n bytes of a PAGES side table pass R56 and R129; it may lie in external memory (R276, R288). -/
def tableOk (s : State) (c : Nat) (k : Cmd) (n : Nat) : Bool :=
  match checkCap (.comp c) (k.slot 3) (slotOff k.word 3) n Reg.permR with
  | .error _ => false
  | .ok a => match s.resolve (.comp c) k.system a n .no true with
    | .ok _ => true
    | .error _ => false

/-- Accept a PAGES command: the exact extents of its side table and destination are checked (R276, R290). -/
def acceptPages (s : State) (c : Nat) (k : Cmd) : State :=
  let r : DipperRun := ⟨k, 0, 0, none, 0, 0, 0, none⟩
  if !tableOk s c k 16 then failDipper s c k 0x0404 else
  match dipperRead s c k 3 [(0, 16)] with
  | .error va => standDipper s c r 0 va
  | .ok (h, s1) =>
    let (E, D, _) := sideHeader h.flatten
    if tableOk s1 c k (16 + 16 * E) && spanOk s1 (.comp c) k false (4, 0, dipperCount k * D, true) then
      setDipper s1 c (some { r with stride := D })
    else failDipper s1 c k 0x0404

/-- The Dipper accepts the head of core c's queue when it holds an op and no command of the core runs (R205, R284). -/
def acceptDipper (op c : Nat) (s : State) : State :=
  match (s.core (.comp c)).eng.dipperRun, (s.core (.comp c)).head 3 with
  | none, some k =>
    if cmdOp k.word = op ∧ dipperAccepts s c k then
      let s := s.modCore (.comp c) (fun x => x.take 3 k)
      if op = 4 then acceptPages s c k else setDipper s c (some ⟨k, 0, 0, none, 0, 0, 0, none⟩)
    else s
  | _, _ => s

/-- Accept the head of core c's Dipper queue when it holds an op, and run a batch when it is the core's turn. -/
def runDipper (op : Nat) (batch : State → Nat → DipperRun → State) (c : Nat) (s : State) : State :=
  let s1 := acceptDipper op c s
  match (s1.core (.comp c)).eng.dipperRun with
  | some r => if cmdOp r.cmd.word = op ∧ dipperTurn s1 (c / 16) = some c ∧ !heldByRecovery s1 (.comp c) r.cmd then batch s1 c r else s1
  | none => s1

/-- GATHER (R286): the Dipper accepts core c's GATHER, or runs its next batch. -/
def execGather (c : Nat) (s : State) : Host.Outcome State Fault Refusal :=
  if c ≥ Config.computeCores then .fault .noSuchUnit else .next (runDipper 1 gatherBatch c s)

/-- SCATTER (R287). -/
def execScatter (c : Nat) (s : State) : Host.Outcome State Fault Refusal :=
  if c ≥ Config.computeCores then .fault .noSuchUnit else .next (runDipper 2 scatterBatch c s)

/-- SCADD (R287). -/
def execScadd (c : Nat) (s : State) : Host.Outcome State Fault Refusal :=
  if c ≥ Config.computeCores then .fault .noSuchUnit else .next (runDipper 3 scatterBatch c s)

/-- PAGES (R288). -/
def execPages (c : Nat) (s : State) : Host.Outcome State Fault Refusal :=
  if c ≥ Config.computeCores then .fault .noSuchUnit else .next (runDipper 4 pagesBatch c s)

/-- The state after the batch that a cluster's Dipper takes next. -/
def nextBatch (s : State) (q : Nat) : State :=
  match dipperTurn s q with
  | none => s
  | some c =>
    match (s.core (.comp c)).eng.dipperRun with
    | none => s
    | some r =>
      let op := cmdOp r.cmd.word
      if op = 1 then gatherBatch s c r else if op = 4 then pagesBatch s c r else scatterBatch s c r

/-- TRANSLATION_WALK (R135, R138): the die's walker serves a translator that has missed: a memory core whose word or whose replay
queue's entry waits, or a Dipper for an address that its next batch has to translate. A word that waits goes on, or finds that the walk
failed. -/
def execTranslationWalk (t : Translator) (va : Nat) (need : Need) (s : State) : Host.Outcome State Fault Refusal :=
  match t with
  | .memCore m =>
    if m ≥ Config.memoryCores then .fault .noSuchUnit else
    let x := s.core (.mem m)
    let waits := x.issue.wait == .walk va need
    if !waits && !(need == .write && x.replay.any (fun e => e.va == va && !e.parked)) then .next s else
    match s.fill t x.context va need with
    | some (_, s') => .next (if waits then endWalk s' m .none else s')
    | none => .next (if waits then endWalk s m (.walkFailed va) else s)
  | .dipper q =>
    if q ≥ Config.clusters then .fault .noSuchUnit else
    match dipperTurn s q with
    | none => .next s
    | some c =>
      let ctx := (s.core (.comp c)).context
      let hit (s : State) : Bool := (tlbHit (s.tlbOf t) ctx va need).isSome
      .next (if !hit s && hit (nextBatch s q) then ((s.fill t ctx va need).map (fun r => r.2)).getD s else s)

/-- WDOG with increments of OOB and NEGLEN, which saturate (R323). -/
def addCounts (w : Word) (oob neglen : Nat) : Word :=
  setBits (setBits w 48 16 (min 0xFFFF (bitsAt w 48 16 + oob))) 32 16 (min 0xFFFF (bitsAt w 32 16 + neglen))

/-- DIPPER_BATCH (R285, R324, R331): the open batch of a cluster ends; its counts and its barrier increment land together. After its last
batch a command completes by the second cycle after, before the Dipper goes on (R355). [DESIGN CHOICE A7, unsafe] [DEDUCED A91, unsafe] -/
def execDipperBatch (q : Nat) (s : State) : Host.Outcome State Fault Refusal :=
  if q ≥ Config.clusters then .fault .noSuchUnit else
  let found := ((List.range 16).map (fun i => 16 * q + i)).findSome? (fun c =>
    match (s.core (.comp c)).eng.dipperRun with
    | some r => r.batch.map (fun b => (c, r, b))
    | none => none)
  match found with
  | none => .next s
  | some (c, r, n, rows) =>
    let r' := { r with
      done := r.done + n, rows := r.rows + rows, batch := none, oob := 0, neglen := 0
      ended := if dipperCount r.cmd ≤ r.done + n then some (s.now (.comp c)) else none }
    let s := s.modCore (.comp c) (fun x => { x with
      sys := { x.sys with wdog := addCounts x.sys.wdog r.oob r.neglen }
      eng := { x.eng with dipperRun := some r' } })
    .next ((countBarrier s (.comp c) r.cmd).setCluster q { s.cluster q with lastServed := some c })

/-! ## MERGE (R289) -/

/-- One element of the sum, copy by copy (R289). -/
def mergeElement (f32 : Bool) (xs : List (BitVec 32)) : BitVec 32 :=
  match xs with
  | [] => 0
  | a :: r => r.foldl (fun acc b => if f32 then fpAdd acc b else acc + b) a

/-- MERGE (R289): the reduction engine accepts core c's MERGE and sums the copies. [DESIGN CHOICE A7, unsafe] -/
def execMerge (c : Nat) (s : State) : Host.Outcome State Fault Refusal :=
  if c ≥ Config.computeCores then .fault .noSuchUnit else
  let x := s.core (.comp c)
  match x.head 4 with
  | none => .next s
  | some k =>
    if x.eng.reduction.isNone && onTime s (.comp c) k then
      let n := cmdW5 k.word
      let copies := cmdW6 k.word % 32
      let h := k.home (.comp c) 2
      let stride := 64 * ceilDiv (4 * n) 64
      let out := (List.range n).flatMap (fun e => leBytes 4 (mergeElement (bitAt k.word 22)
        ((List.range copies).map (fun j => BitVec.ofNat 32 (s.num (h + j * stride + 4 * e) 4)))).toNat)
      let s := (s.write (k.home (.comp c) 4) out).modCore (.comp c) (fun x =>
        let x := x.take 4 k
        { x with eng := { x.eng with reduction := some k } })
      let s := countBarrier s (.comp c) k
      let q := s.cluster (c / 16)
      .next (s.setCluster (c / 16) { q with merges := q.merges ++ [c] })
    else .next s

end Sys2Proof.Machine
end

