-- ==== Sys2Proof/Machine/Ring.lean ====
section
/-! DEFINITION. The ring engine (R304): RSEND and RRECV, the beats of a Rill stream and its credit. -/

namespace Sys2Proof.Machine
open Sys2Proof

/-- Take the head of core c's ring queue when it holds an op and the engine has room (R304). -/
def acceptRing (op c : Nat) (s : State) : State :=
  let x := s.core (.comp c)
  match x.head 5 with
  | some k =>
    if cmdOp k.word = op ∧ onTime s (.comp c) k ∧ x.eng.ringRuns.length < 8 then
      s.modCore (.comp c) (fun x =>
        let x := x.take 5 k
        { x with eng := { x.eng with ringRuns := x.eng.ringRuns ++ [⟨k, 0⟩] } })
    else s
  | none => s

/-- Set the progress of an accepted ring command. -/
def setRing (s : State) (c : Nat) (q : BitVec 32) (done : Nat) : State :=
  s.modCore (.comp c) (fun x => { x with eng := { x.eng with
    ringRuns := x.eng.ringRuns.map (fun r => if r.cmd.seq == q then { r with done := done } else r) } })

/-- The bytes a ring command reads or writes: its home and number (R304). -/
def ringRange (c : Nat) (k : Cmd) : Nat × Nat := (k.home (.comp c) (if cmdOp k.word = 1 then 2 else 4), cmdW5 k.word)

/-- Does an earlier command of the core's ring queue that has still to move bytes touch a byte of one, a writer between them (R193). -/
def ringBehind (x : Core) (c : Nat) (k : Cmd) : Bool :=
  let (h, n) := ringRange c k
  x.eng.ringRuns.any (fun o => seqBefore o.cmd.seq k.seq && decide (o.done < cmdW5 o.cmd.word) &&
    (cmdOp o.cmd.word == 2 || cmdOp k.word == 2) &&
    (let (h', n') := ringRange c o.cmd; decide (h < h' + n' ∧ h' < h + n)))

/-- RSEND (R304): the ring engine accepts core c's RSEND, and places the beats of those whose turn has come. [DESIGN CHOICE A7, unsafe] -/
def execRsend (c : Nat) (s : State) : Host.Outcome State Fault Refusal :=
  if c ≥ Config.computeCores then .fault .noSuchUnit else
  let s := acceptRing 1 c s
  .next ((s.core (.comp c)).eng.ringRuns.foldl (fun s r =>
    let k := r.cmd
    if cmdOp k.word = 1 ∧ r.done = 0 ∧ !ringBehind (s.core (.comp c)) c k ∧ !earlierBeats (s.core (.comp c)) (ringStream k) k.seq then
      setRing (placeBytes s (ringStream k) k.seq (s.bytes (k.home (.comp c) 2) (cmdW5 k.word))) c k.seq (cmdW5 k.word)
    else s) s)

/-- Take up to n bytes from a receive buffer; a beat whose every byte is taken gives a unit of credit back (R304). -/
def Stream.draw : Nat → Nat → Stream → List Byte × Stream
  | 0, _, t => ([], t)
  | fuel + 1, n, t =>
    match t.buffer with
    | [] => ([], t)
    | b :: r =>
      let m := min n (b.length - t.taken)
      let bs := (b.drop t.taken).take m
      if t.taken + m < b.length then (bs, { t with taken := t.taken + m })
      else
        let (more, t') := Stream.draw fuel (n - m) { t with buffer := r, taken := 0, owed := t.owed + 1 }
        (bs ++ more, t')

/-- Has a core's ring gang failed or been aborted: it receives nothing more (R308). -/
def ringEnded (s : State) (c : Nat) : Bool :=
  match s.gangOf (.comp c) with | some g => g.aborted || g.failedAt.isSome | none => false

/-- RRECV (R304): the ring engine accepts core c's RRECV, and writes the bytes that have arrived for the first RRECV of each
stream, unless its ring gang has failed (R308). -/
def execRrecv (c : Nat) (s : State) : Host.Outcome State Fault Refusal :=
  if c ≥ Config.computeCores then .fault .noSuchUnit else
  let s := acceptRing 2 c s
  .next ((s.core (.comp c)).eng.ringRuns.foldl (fun s r =>
    let k := r.cmd
    let left := cmdW5 k.word - r.done
    let ahead := (s.core (.comp c)).eng.ringRuns.any (fun o => cmdOp o.cmd.word == 2 && ringStream o.cmd == ringStream k &&
      seqBefore o.cmd.seq k.seq && decide (o.done < cmdW5 o.cmd.word))
    if cmdOp k.word = 2 ∧ 0 < left ∧ !ahead ∧ !ringBehind (s.core (.comp c)) c k ∧ !ringEnded s c then
      match mapGet s.streams (ringStream k) with
      | none => s
      | some t =>
        let (bs, t') := t.draw t.buffer.length left
        let s := { s with streams := mapSet s.streams (ringStream k) t' }
        setRing (s.write (k.home (.comp c) 4 + r.done) bs) c k.seq (r.done + bs.length)
    else s) s)

/-- RILL_BEAT_ARRIVAL (R304): a beat reaches the receiving buffer: one that this module sent leaves its books, one for a core
of this module joins the stream's buffer, within the credit. [DESIGN CHOICE A60, safe] -/
def execRillBeatArrival (sn : Nat) (beat : List Byte) (s : State) : Host.Outcome State Fault Refusal :=
  .next (s.modStream sn (fun t =>
    let t := if t.entry.senderModule = s.module.number then { t with flying := t.flying.erase beat } else t
    if t.entry.receiverModule = s.module.number ∧ t.buffer.length + t.owed < t.entry.credit ∧ 1 ≤ beat.length ∧ beat.length ≤ 64 then
      { t with buffer := t.buffer ++ [beat] }
    else t))

/-- RILL_CREDIT_RETURN (R304): a unit of credit returns to the sender, whose waiting beats may leave. -/
def execRillCreditReturn (sn : Nat) (s : State) : Host.Outcome State Fault Refusal :=
  .next (s.modStream sn (fun t =>
    let t := if t.entry.receiverModule = s.module.number then { t with owed := t.owed - 1 } else t
    if t.entry.senderModule = s.module.number ∧ t.credit + t.flying.length < t.entry.credit then
      let t := { t with credit := t.credit + 1 }
      t.leave t.pending.length
    else t))

end Sys2Proof.Machine
end

