-- ==== Sys2Proof/Machine/Completion.lean ====
section
/-! DEFINITION. How commands end (R192, R225, R231-R236, R241-R243, R251, R278, R285, R289, R304), and the timing faults of a
window that no instruction finds (R206, R209). -/

namespace Sys2Proof.Machine
open Sys2Proof

/-! ## The array -/

/-- The cores whose arrays run one command together (R237). -/
def arrayPeers (c : Nat) (r : ArrayRun) : List Nat :=
  if r.cmd.joint.isSome then (List.range 4).map (fun i => c / 4 * 4 + i) else [c]

/-- The window at which a pre-emption or a freeze stops a run: the first boundary from the cycle it asked, if the run goes on
past it (R108, R119, R242, R243, R260). -/
def stopWindow (s : State) (c : Nat) (r : ArrayRun) : Option Nat :=
  if r.costs.isEmpty then none else
  let asked := (arrayPeers c r).filterMap (fun k =>
    let e := (s.core (.comp k)).eng
    (if r.isBlock then e.chainStop else e.stopAt).bind (fun t => if r.start ≤ t then some t else none))
  match asked with
  | [] => none
  | t :: l =>
    let i := r.boundary (l.foldl min t)
    if r.passes i < r.finish then some i else none

/-- The run leaves the array on its last cycle, with all that it leaves in place; a self-test injection is no command (R224). -/
def leaveArray (s : State) (c : Nat) (r : ArrayRun) : State :=
  (landRun s c r).modCore (.comp c) (fun x => { x with eng := { x.eng with
    array := none, freeAt := r.finish, cmdEnd := if r.cmd.word = injectionWord then x.eng.cmdEnd else r.finish } })

/-- PROGRESS as a matrix command leaves it: 0 on completion, and the row that faulted otherwise when it has passed a boundary; a seed
command and a DRAIN leave it (R236, R241, R259). -/
def endProgress (s : State) (c : Nat) (r : ArrayRun) : Word :=
  let p := (s.core (.comp c)).sys.progress
  let origin := if r.isBlock then bitsAt p 32 32 else r.cmd.seq.toNat
  if cmdEngine r.cmd.word ≠ 0 ∨ cmdOp r.cmd.word = 3 then p else
  match r.ending with
  | .done => 0
  | _ => if r.at r.finish ≤ r.origin then p else progressWord origin r.kind (r.at r.finish) r.costs.length r.steps

/-- A self-test ends: the quarters that differ are fenced, with ENGINE (R232, R233). [DEDUCED A95, unsafe] -/
def endSelfTest (s : State) (c : Nat) (r : ArrayRun) : State :=
  if r.bad = 0 then s else
  let s := s.modCore (.comp c) (fun x => { x with sys := { x.sys with
    mstat := setBits x.sys.mstat 40 4 (fencedBits x.sys.mstat ||| r.bad.toNat) } })
  engineFault s (.comp c) causeEngine 0x0104 (if r.cmd.word = injectionWord then none else some r.cmd.seq) 1 true

/-- The command on core c's array ends on its last cycle (R225, R236, R251, R260). [DEDUCED A95, unsafe] -/
def endArray (s : State) (c : Nat) (r : ArrayRun) : State :=
  if r.isBlock then
    match r.ending with
    | .done => completeBlock s c r
    | .fault code =>
      let p := endProgress s c r
      let s := (leaveArray s c r).modCore (.comp c) (fun x => { x with sys := { x.sys with progress := p } })
      engineFault s (.comp c) causeEngine code (some r.cmd.seq) 1 true
    | .xlate va => fetchTrap (stopBlock s c (r.at r.finish) r) c causeXlate va (some r.cmd.seq)
  else if r.cmd.word = injectionWord then endSelfTest (leaveArray s c r) c r
  else
    let p := endProgress s c r
    let s := (leaveArray s c r).modCore (.comp c) (fun x => { x with sys := { x.sys with progress := p } })
    match r.ending with
    | .fault code => engineFault s (.comp c) causeEngine code (some r.cmd.seq) (engineSource (engineOf (cmdEngine r.cmd.word))) true
    | _ => if r.bad = 0 then completeCommand s (.comp c) r.cmd else endSelfTest s c r

/-- Each peer's run, stopped at a window or ended. -/
def forPeers (s : State) (c : Nat) (r : ArrayRun) (f : State → Nat → ArrayRun → State) : State :=
  let runs := (arrayPeers c r).filterMap (fun k => (s.core (.comp k)).eng.array.map (fun r => (k, r)))
  runs.foldl (fun s (k, r) => f s k r) s

/-- Every beat of a DRAIN to a stream has left (R225). -/
def drainLeft (s : State) (r : ArrayRun) : Bool :=
  match drainStream r.cmd with
  | some n => s.allLeft n r.cmd.seq
  | none => true

/-- The array of core c stops, or ends its command. -/
def arrayCompletion (s : State) (c : Nat) (isBlock : Bool) (sq : BitVec 32) : State :=
  let t := s.now (.comp c)
  match (s.core (.comp c)).eng.array with
  | none => s
  | some r =>
    if r.isBlock != isBlock || r.cmd.seq != sq then s else
    match stopWindow s c r with
    | some i => if r.passes i ≤ t then
        (if isBlock then stopBlock s c i r else forPeers s c r (fun s' k r' => stopProduct' s s' k i r')) else s
    | none => if r.finish ≤ t && drainLeft s r then forPeers s c r endArray else s
where
  /-- A stop whose cells are those of the state before any peer has stopped. -/
  stopProduct' (before s : State) (c i : Nat) (r : ArrayRun) : State :=
    let t := stopProduct before c i r
    s.setCore (.comp c) (t.core (.comp c))

/-! ## The other engines -/

/-- The copy engine of core c ends a command: an untimed one after its last unit, a timed one when its bytes have landed; the
barrier counts the pieces of a timed one here (R277-R279). -/
def copyCompletion (s : State) (c : CoreId) (sq : BitVec 32) : State :=
  let x := s.core c
  match x.eng.landing.find? (fun r => r.cmd.seq == sq) with
  | some r =>
    if r.flight.isEmpty && (timedStop x r).isNone && (match r.finish with | some f => decide (f ≤ s.now c) | none => true) then
      let s := (List.range (ceilDiv (cmdW5 r.cmd.word) 4096)).foldl (fun s _ => countBarrier s c r.cmd) s
      completeCommand (s.modCore c (fun x => { x with eng :=
        { x.eng with landing := x.eng.landing.filter (fun l => l.cmd.seq != sq) } })) c r.cmd
    else s
  | none =>
    match x.eng.copyRun with
    | some r =>
      if r.cmd.seq = sq ∧ r.ended then
        completeCommand (s.modCore c (fun x => { x with eng := { x.eng with copyRun := none, copyFree := s.now c } })) c r.cmd
      else s
    | none => s

/-- The Dipper ends core c's command after its last batch (R285). -/
def dipperCompletion (s : State) (c : Nat) (sq : BitVec 32) : State :=
  match (s.core (.comp c)).eng.dipperRun with
  | some r =>
    if r.cmd.seq = sq ∧ r.batch = none ∧ dipperCount r.cmd ≤ r.done then completeCommand (setDipper s c none) (.comp c) r.cmd else s
  | none => s

/-- The reduction engine ends core c's MERGE when it is the oldest accepted one of the cluster (R262, R289). -/
def mergeCompletion (s : State) (c : Nat) (sq : BitVec 32) : State :=
  let q := s.cluster (c / 16)
  match (s.core (.comp c)).eng.reduction with
  | some k =>
    if k.seq = sq ∧ q.merges.head? = some c then
      let s := s.setCluster (c / 16) { q with merges := q.merges.tail }
      completeCommand (s.modCore (.comp c) (fun x => { x with eng := { x.eng with reduction := none } })) (.comp c) k
    else s
  | none => s

/-- The ring engine ends a command of core c: an RSEND when its last beat has left, an RRECV when its last byte is written,
unless its ring gang has failed (R304, R308). -/
def ringCompletion (s : State) (c : Nat) (sq : BitVec 32) : State :=
  match (s.core (.comp c)).eng.ringRuns.find? (fun r => r.cmd.seq == sq) with
  | some r =>
    if cmdW5 r.cmd.word ≤ r.done ∧ (if cmdOp r.cmd.word = 1 then s.allLeft (ringStream r.cmd) sq else !ringEnded s c) then
      completeCommand (s.modCore (.comp c) (fun x => { x with eng :=
        { x.eng with ringRuns := x.eng.ringRuns.filter (fun o => o.cmd.seq != sq) } })) (.comp c) r.cmd
    else s
  | none => s

/-- ENGINE_COMPLETION (R192, R225, R278, R285, R289, R304): the command numbered sq of an engine of core c completes, faults
at its end, or stops at its restart point. [DESIGN CHOICE A2, safe] -/
def execEngineCompletion (c : CoreId) (e : Engine) (sq : BitVec 32) (s : State) : Host.Outcome State Fault Refusal :=
  if !c.wf then .fault .noSuchUnit else
  match c, e with
  | .comp k, .matrix | .comp k, .seed => .next (arrayCompletion s k false sq)
  | .comp k, .cascade => .next (arrayCompletion s k true sq)
  | c, .copy => .next (copyCompletion s c sq)
  | .comp k, .dipper => .next (dipperCompletion s k sq)
  | .comp k, .reduction => .next (mergeCompletion s k sq)
  | .comp k, .ring => .next (ringCompletion s k sq)
  | .mem _, _ => .fault .noSuchUnit

/-! ## Timing faults -/

/-- The queue of an engine that runs timed commands (R197, R205). -/
def timedQueue : Engine → Option Nat
  | .matrix => some 0
  | .seed => some 1
  | .copy => some 2
  | _ => none

/-- Would the engine of queue n of core c take its head k on this cycle (R205)? -/
def startsNow (s : State) (c n : Nat) (k : Cmd) : Bool :=
  if n = 2 then copyAccepts s (.comp c) k
  else if k.joint.isSome then
    (List.range 4).all (fun i => match (s.core (.comp (c / 4 * 4 + i))).head 0 with
      | some o => o.joint.isSome && arrayAccepts s (c / 4 * 4 + i) o
      | none => false)
  else arrayAccepts s c k

/-- The engine that queue n's head k of core c waits for ends its command on this cycle, so that another may start on it; a joint head
waits for the four slices of its quad (R205, R225, R237). -/
def endsNow (s : State) (c n : Nat) (k : Cmd) : Bool :=
  let e := (s.core (.comp c)).eng
  if n = 2 then (match e.copyRun with | some r => decide (r.finish.any (fun f => decide (f ≤ s.now (.comp c)))) | none => false)
  else (if k.joint.isSome then (List.range 4).map (fun i => c / 4 * 4 + i) else [c]).any (fun a =>
    match (s.core (.comp a)).eng.array with | some r => decide (r.finish ≤ s.now (.comp a)) && (stopWindow s a r).isNone | none => false)

/-- The first timed command of queue n of core c that has missed its start (R206): its W1 has come, and it has not started. -/
def lateCmd (s : State) (c n : Nat) : Option Cmd :=
  let x := s.core (.comp c)
  if x.sys.gcycHeld.isSome || !x.dispatches then none else
  (x.eng.queue n).find? (fun k => cmdT k.word && decide (k.enters ≤ s.now (.comp c)) &&
    decide (cmdStart k.word ≤ (s.gcyc (.comp c)).toNat) &&
    !((x.head n).map (fun h => h.seq) == some k.seq &&
      (startsNow s c n k || (endsNow s c n k && decide (cmdStart k.word = (s.gcyc (.comp c)).toNat)))))

/-- TIMING_FAULT (R206): a timed command of core c that could not start by its W1 raises TIMING, and one that touches a block under
recovery ECC (R141); it leaves its queue. [DEDUCED A39, unsafe] -/
def execTimingFault (c : Nat) (e : Engine) (s : State) : Host.Outcome State Fault Refusal :=
  if c ≥ Config.computeCores then .fault .noSuchUnit else
  match timedQueue e with
  | none => .fault .noSuchUnit
  | some n =>
    match lateCmd s c n with
    | none => .next s
    | some k =>
      let s' := s.modCore (.comp c) (fun x => { x with
        eng := x.eng.setQueue n ((x.eng.queue n).filter (fun o => o.seq != k.seq)) })
      .next (match heldBlock s (.comp c) k with
        | some b => eccFault s' (.comp c) (4096 * b)
        | none => engineFault s' (.comp c) causeTiming (s.gcyc (.comp c)).toNat (some k.seq) (engineSource e) true)

/-- GCYC_LIMIT (R209, R322): GCYC passes 0xFFFF_FFFE in a window of core c; it raises TIMING once. -/
def execGcycLimit (c : Nat) (s : State) : Host.Outcome State Fault Refusal :=
  if c ≥ Config.computeCores then .fault .noSuchUnit else
  let x := s.core (.comp c)
  if x.tw && x.sys.gcycHeld.isNone && s.gcyc (.comp c) == 0xFFFF_FFFF &&
      !x.issue.faults.any (fun f => f.code == causeTiming && f.seq.isNone && f.val == 0xFFFF_FFFF) && !x.issue.trapWait.any (fun t => t.fatal) &&
      (match s.gangOf (.comp c) with | some g => g.fatalAt.all (fun p => p.1 != .comp c) | none => true) then
    .next (engineFault s (.comp c) causeTiming 0xFFFF_FFFF none 0 true)
  else .next s

end Sys2Proof.Machine
end

