-- ==== Sys2Proof/Machine/Gangs.lean ====
section
/-! DEFINITION. How a gang ends (R120, R300, R301): retirement, completion records, kills and what they discard, the wakes of
parked cores (R114), and the comparison of checked pairs (R123). -/

namespace Sys2Proof.Machine
open Sys2Proof

/-! ## Fences, freedom and records -/

/-- The bit of a core in its die's fence mask (R291). -/
def fenceBit : CoreId → Nat
  | .comp n => n % 128
  | .mem m => 128 + m % 8
/-- Is a core out of placement. -/
def State.isFenced (s : State) (c : CoreId) : Bool := bitAt (s.die (dieOf c)).fence (fenceBit c)
/-- Fence a core out of placement, or clear its bit. -/
def State.setFence (s : State) (c : CoreId) (b : Bool) : State :=
  let x := s.die (dieOf c)
  s.setDie (dieOf c) { x with fence := setBit x.fence (fenceBit c) b }

/-- Has a core of a gang stopped: retired, killed, or never started (R92, R120). -/
def RunState.stops : RunState → Bool
  | .stopped | .free | .held => true
  | _ => false

/-- Write a completion record and raise the interrupt (R301); an error completion stops the queue. A
record whose place no host window maps is lost (R370). [DEDUCED A29, unsafe] [DEDUCED A58, unsafe] -/
def writeCompletion (s : State) (d : Nat) (r : List Byte) (status : Nat) (report : Option KillReport) : State :=
  let q := recQueue r
  let s := if status = 0 then s else s.modQueue d q (fun x => { x with halt := true })
  let x := s.queue d q
  if x.qcomp = 0 then s else
  let who := match report with
    | some p => (match p.core with | .comp n => n | .mem m => 0x400 + m)
    | none => 0
  let num (f : KillReport → BitVec 64) : List Byte := leBytes 8 ((report.map f).getD 0).toNat
  let bytes := leBytes 4 (recTag r + recCtx r * 2 ^ 8 + q * 2 ^ 16 + status * 2 ^ 24) ++ leBytes 4 0 ++ leBytes 8 (s.die d).cycle ++
    num (fun p => p.cause) ++ num (fun p => p.val) ++ num (fun p => p.seq) ++ leBytes 8 who ++ leBytes 16 0
  let pa := x.qcomp + 64 * (x.qcnt.toNat % 64)
  let s := if s.mappable pa 64 then s.write (s.physHome pa) bytes else s
  let s := { s with module := { s.module with interrupts := s.module.interrupts ++ [(d, q)] } }
  s.modQueue d q (fun x => { x with qcnt := x.qcnt + 1 })

/-! ## Release -/

/-- A core leaves its gang and may be placed again from the next cycle, unless the module holds in reset (R376): PLACED and the pair registers clear, the banks are
free (R103, R300, R311). -/
def freeCore (s : State) (c : CoreId) : State :=
  s.modCore c (fun x =>
    let x := x.setStatus 4 false
    { x with
      run := if s.module.thermalHold then .held else .free, gang := none
      sys := { x.sys with pair := 0 }
      slice := { x.slice with holders := Vector.replicate 32 .free } })

/-- What has been sent of a ring gang that has been counted, or has ended, is no longer looked at, since its number may serve another: its
reservations, none of which is stamped past its deadline D, and what other modules have sent before D, or once it has ended and no
other gang here has its number, all that they have sent (R306, R308). [DEDUCED A78, unsafe] -/
def forgetRing (s : State) (r : List Byte) (ended : Bool) : State :=
  if !recRing r then s else
  let n := recRingNumber r
  let D := recDeadline r
  let m := s.module
  let alone := ended && !s.gangs.any (fun g => recRing g.record && recRingNumber g.record == n && recDeadline g.record != D)
  let stays (v : Nat × Nat × Nat) : Bool := v.1 != n || (!alone && tickPast v.2.2 (D + 2 ^ 32 - 1))
  { s with module := { m with
      reservations := m.reservations.filter (fun v => v.1 != n || tickPast v.2.2 D)
      failures := m.failures.filter (fun v => v.2.1 == m.number || stays v)
      meetings := m.meetings.filter stays
      ringCounted := mapSet m.ringCounted n D } }

/-- The gang is gone: its slot and its cores are free, unless its record runs once more after a PAIRDIV (R123, R300). [DEDUCED A25, unsafe] -/
def releaseGang (s : State) (g : Gang) : State :=
  let cores := g.all.filter (fun c => (s.core c).gang == some g.id)
  let s := cores.foldl freeCore s
  let slot (r : Record) : Option Record :=
    if r.gang == some g.id then (if r.requeued && !g.requeued then some { r with gang := none, readyFor := 0, blocking := false } else none)
    else some r
  let s := (forgetRing s g.record true).modQueue g.die g.queue (fun q => { q with records := q.records.filterMap slot })
  let x := s.die g.die
  let (qs, cs) := if x.freed.1 = x.cycle then x.freed.2 else ([], [])
  { s.setDie g.die { x with freed := (x.cycle, g.queue :: qs, cores.map coreKey ++ cs) } with
    gangs := s.gangs.filter (fun h => h.id != g.id) }

/-! ## Kills (R120) -/

/-- A command ring after a kill: what the gang has numbered, from `base` on, and has not completed is discarded (R315). [DEDUCED A37, unsafe] -/
def discardRing (base : BitVec 32) (l : List (Nat × RingEntry)) : List (Nat × RingEntry) :=
  l.map (fun (n, e) => (n, if e.status = 2 ∨ e.status = 7 ∨ seqBefore e.seq base then e else { e with status := 5 }))

/-- The engines with everything in flight discarded (R120). [DEDUCED A37, unsafe] -/
def discardEngines (e : Engines) (now : Nat) : Engines :=
  { Engines.reset with
    freeAt := min e.freeAt now, cmdEnd := min e.cmdEnd now, ring := discardRing e.ringBase e.ring, seq := e.seq, ringBase := e.ringBase }

/-- A core of a killed gang stops without trap entry, and its commands, messages and results in flight are discarded; stores
that have issued still perform. One parked by `wfi` stops when the wake reaches it (R114, R120). [DEDUCED A37, unsafe] -/
def stopCore (s : State) (c : CoreId) : State :=
  let t := s.now c
  let s := match c with
    | .comp k => if (s.core c).tw then closeWindow s k else s
    | .mem _ => s
  let s := match c with
    | .comp k => let q := s.cluster (k / 16); if q.merges.contains k then s.setCluster (k / 16) { q with merges := q.merges.filter (fun m => m != k) } else s
    | .mem _ => s
  s.modCore c (fun x => { x with
    run := if x.run = .parked then .parked else .stopped
    sys := { x.sys with status := setBit x.sys.status 1 false, gcycHeld := none }
    issue := { Issue.reset with readyAt := t }
    ops := (x.ops.filter (fun o => o.kind.isStore && o.value.isNone)).map (fun o => { o with dst := none })
    vq := [], replay := [], eng := discardEngines x.eng t, channels := [], outbox := none, posts := [], cascade := none })

/-- Does a stream end at one of the gang's cores. -/
def streamOf (s : State) (g : Gang) (t : Stream) : Bool :=
  g.all.any (fun c => match c with
    | .comp k => (t.entry.senderModule == s.module.number && t.entry.senderCore == k) ||
        (t.entry.receiverModule == s.module.number && t.entry.receiverCore == k)
    | .mem _ => false)

/-- The beats of the gang's streams are discarded (R120, R308). [DEDUCED A37, unsafe] -/
def discardBeats (s : State) (g : Gang) : State :=
  { s with streams := s.streams.map (fun (n, t) =>
      (n, if streamOf s g t then { t with pending := [], flying := [], buffer := [], taken := 0, credit := t.entry.credit, owed := 0 } else t)) }

/-- The part of a ring gang on this module has failed: a failure record goes to the others, and its beats are discarded (R308). -/
def sendFailure (s : State) (n : Nat) : State :=
  match s.gang n with
  | none => s
  | some g =>
    if !recRing g.record || !g.committed || g.aborted || g.failedAt.isSome then s else
    let s := discardBeats (s.modGang n (fun g => { g with failedAt := some s.module.tick })) g
    { s with module := { s.module with failures := s.module.failures ++ [(recRingNumber g.record, s.module.number, s.module.tick)] } }

/-- Has every store of a gang's members performed (R196, R300). -/
def storesDone (s : State) (g : Gang) : Bool :=
  g.all.all (fun c => let x := s.core c
    (x.gang != some g.id) || (x.vq.isEmpty && x.ops.all (fun o => !(o.kind.isStore || o.kind == .vector true || o.isAppend) || o.performed)))

/-- A killed gang: its record is written once every store of it has performed (R196, R301), and it is gone when its last member has
stopped (R120). [DEDUCED A37, unsafe] -/
def finishKill (s : State) (n : Nat) : State :=
  match s.gang n with
  | some g =>
    if !g.killed || !storesDone s g then s else
    let s := match g.closing with
      | some (status, report) => (writeCompletion s g.die g.record status report).modGang n (fun g => { g with closing := none })
      | none => s
    if g.all.all (fun c => (s.core c).gang != some n || (s.core c).run.stops) then releaseGang s g else s
  | none => s

/-- Kill a gang (R120, R301): its members stop, what it has in flight is discarded, its queue stops, and a completion record says why
unless the record runs once more (R123). [DEDUCED A37, unsafe] -/
def killGang (s : State) (n : Nat) (status : Nat) (report : Option KillReport) (again : Bool) : State :=
  match s.gang n with
  | none => s
  | some g =>
    if g.killed then s else
    let s := sendFailure s n
    let mine := g.all.filter (fun c => (s.core c).gang == some n)
    let s := mine.foldl stopCore s
    let s := { s with flits := s.flits.filter (fun f => !mine.any (fun c => c == .comp f.target || c == .comp f.src)) }
    let s := discardBeats s g
    let s := if again then s.modQueue g.die g.queue (fun q => { q with
        records := q.records.map (fun r => if r.gang == some n then { r with requeued := true } else r) })
      else s.modQueue g.die g.queue (fun q => { q with halt := true })
    finishKill (s.modGang n (fun g => { g with
      killed := true, closing := if again then none else some (status, report)
      freezeAt := none, frozen := false, sync := [], opens := [] })) n

/-- FATAL_KILL (R120, R123, R308): a core that took a fatal trap has executed `wfi`, or 65 536 cycles have passed since its
entry. The first PAIRDIV runs the gang once more, the second fences the pair. [DEDUCED A36, unsafe] -/
def execFatalKill (n : Nat) (s : State) : Host.Outcome State Fault Refusal :=
  match s.gang n with
  | none => .fault .noSuchUnit
  | some g =>
    if g.killed || !g.fatalAt.any (fun p => (s.core p.1).run == .parked || decide (p.2 + 65536 ≤ s.now p.1)) then .next s else
    let code := ((g.trap.map (fun p => bitsAt p.cause 0 8)).getD 0)
    if code = causePairdiv then
      if g.requeued then
        let pair : List CoreId := match g.trap with
          | some p => p.core :: (match p.core with | .comp k => [.comp (bitsAt (s.core (.comp k)).sys.pair 0 11)] | .mem _ => [])
          | none => []
        .next (killGang (pair.foldl (fun s c => s.setFence c true) s) n 5 g.trap false)
      else .next (killGang s n 5 g.trap true)
    else .next (killGang s n (if code = causeGangAbort then 4 else 1) g.trap false)

/-- SYSTEM_KILL_REQUEST (R301, R342): system software has a gang killed; the record carries the trap state it reports. -/
def execSystemKillRequest (n : Nat) (report : Option KillReport) (s : State) : Host.Outcome State Fault Refusal :=
  match s.gang n with
  | none => .fault .noSuchUnit
  | some _ => .next (killGang s n 1 report false)

/-! ## Retirement (R300) -/

/-- May a gang retire: every member has, and no store of a member waits (R300). -/
def retireReady (s : State) (g : Gang) : Bool := g.started && !g.killed && g.all.all (fun c => g.retired.contains c) && storesDone s g

/-- GANG_RETIRE (R300, R301): SET joins the home cluster's event bits on this cycle, a sink writes its record, the slot and the
cores are free. A killed gang retires with its error record (R120). -/
def execGangRetire (n : Nat) (s : State) : Host.Outcome State Fault Refusal :=
  match s.gang n with
  | none => .fault .noSuchUnit
  | some g =>
    if g.killed then .next (finishKill s n) else
    if !retireReady s g then .next s else
    let s := s.land (8 * g.die + recHome g.record) (some (s.die g.die).cycle) true (recSet g.record)
    let s := if recSink g.record then writeCompletion s g.die g.record 0 none else s
    .next (releaseGang s g)

/-! ## Wakes (R114) -/

/-- Wake a parked core: a resumption goes on at the word after the `wfi`, and a kill leaves the core stopped. The wake of a placement
comes with the new gang, whose launch sets the registers (R298); there is none for a core whose gang is live. -/
def wakeCore (s : State) (c : CoreId) (w : Wake) : State :=
  let x := s.core c
  let go (f : Core → Core) : State := s.modCore c (fun x => { f x with run := .running, issue := { x.issue with readyAt := s.now c + 1 } })
  match (if x.run = .parked then s.gangOf c else none) with
  | none => s
  | some g =>
    match w with
    | .resume => if g.killed then s else go id
    | .place => s
    | .kill => if g.killed then finishKill (s.modCore c (fun x => { x with run := .stopped, pc := x.sys.trapvec })) g.id else s

/-- WFI_WAKE (R114): a wake of the task queue manager or the management core reaches a parked core. -/
def execWfiWake (c : CoreId) (w : Wake) (s : State) : Host.Outcome State Fault Refusal :=
  if !c.wf then .fault .noSuchUnit else .next (wakeCore s c w)

/-! ## Checked pairs (R123) -/

/-- Two accesses that the mesh port takes for one (R123). [DEDUCED A36, unsafe] -/
def awayTwin : MemOp ⊕ VecEntry ⊕ PairMessage → MemOp ⊕ VecEntry ⊕ PairMessage → Bool
  | .inl a, .inl b => a.twin b
  | .inr (.inl a), .inr (.inl b) => a.data == b.data
  | .inr (.inr a), .inr (.inr b) => a == b
  | _, _ => false

/-- The address of an access that leaves a core: a message has that of its target (R123). [DEDUCED A36, unsafe] -/
def awayAddress : MemOp ⊕ VecEntry ⊕ PairMessage → Nat
  | .inl o => homeAddress o.home
  | .inr (.inl e) => homeAddress ((e.data.head?.map (fun p => p.1)).getD e.home)
  | .inr (.inr m) => m.target.toNat

/-- The cycle from which a store waits for its partner (R123); a message has no limit. [DEDUCED A36, unsafe] -/
def awaySince : MemOp ⊕ VecEntry ⊕ PairMessage → Option Nat
  | .inl o => o.due
  | .inr (.inl e) => some e.performAt
  | .inr (.inr _) => none

/-- The address of the first accesses of a pair that differ, or of a store that has met no partner for 1024 cycles (R123). [DEDUCED A36, unsafe] -/
def pairAddress (s : State) (k p : Nat) : Option Nat :=
  match s.nextAway k, s.nextAway p with
  | some a, some b => if awayTwin a b then none else some (awayAddress a)
  | some a, none | none, some a =>
    if (awaySince a).any (fun t => decide (t + 1024 ≤ s.now (.comp k))) then some (awayAddress a) else none
  | none, none => none

/-- Has a core been told of a PAIRDIV already: it waits for it, or has taken a fatal trap (R120, R123). [DEDUCED A36, unsafe] -/
def toldFatal (s : State) (c : CoreId) : Bool :=
  let i := (s.core c).issue
  i.faults.any (fun f => f.code == causePairdiv) || i.trapWait.any (fun t => t.fatal) ||
    (match s.gangOf c with | some g => g.fatalAt.any (fun p => p.1 == c) | none => false)

/-- PAIRDIV (R123): the mesh port has found that core c and its partner differ; both take PAIRDIV. [DEDUCED A70, unsafe] -/
def execPairdiv (c addr : Nat) (s : State) : Host.Outcome State Fault Refusal :=
  if c ≥ Config.computeCores then .fault .noSuchUnit else
  match s.partner c with
  | none => .next s
  | some p =>
    if pairAddress s c p = some addr ∧ !toldFatal s (.comp c) then
      .next (engineFault (engineFault s (.comp c) causePairdiv addr none 0 true) (.comp p) causePairdiv addr none 0 true)
    else .next s

end Sys2Proof.Machine
end

