-- ==== Sys2Proof/Machine/Traps.lean ====
section
/-! DEFINITION. The traps that no word raises (R105-R107, R117-R119, R121-R123): faults of engines, STEP, PREEMPT, the entry of a
trap that has waited, and the freeze and release of a group in a timed window. -/

namespace Sys2Proof.Machine
open Sys2Proof

/-- The core stands at an instruction boundary: it runs, its last word's cycles are over, and no word has begun (R105, R117). -/
def atBoundary (s : State) (c : CoreId) : Bool :=
  let x := s.core c
  (x.run == .running || x.run == .retiring) && decide (x.issue.readyAt ≤ s.now c) &&
    (match x.issue.wait with | .translators _ _ _ | .table _ => false | _ => true)

/-- At a boundary of program level with no trap on its way. -/
def programBoundary (s : State) (c : CoreId) : Bool :=
  let x := s.core c
  atBoundary s c && x.run == .running && !x.system && x.issue.trapWait.isNone

/-! ## Engine faults (R105) -/

/-- Is fault a reported before fault b: unnumbered first, by cycle and code; numbered in the order of `push` (R105). -/
def PendingFault.before (a b : PendingFault) : Bool :=
  match a.seq, b.seq with
  | none, some _ => true
  | some _, none => false
  | none, none => decide (a.cycle < b.cycle ∨ (a.cycle = b.cycle ∧ a.code < b.code))
  | some x, some y => seqBefore x y

/-- The fault that is reported: the first fatal one, and without one the first (R105, R121). -/
def reported (l : List PendingFault) : Option PendingFault :=
  let first (l : List PendingFault) : Option PendingFault :=
    l.foldl (fun acc f => match acc with | none => some f | some g => if f.before g then some f else acc) none
  match first (l.filter (fun f => f.fatal)) with
  | some f => some f
  | none => first l

/-- The trap of an engine's fault at a core: TRAPPC the next word to issue (R102, R104). [DEDUCED A34, unsafe] [DEDUCED A69, unsafe] -/
def faultTrap (x : Core) (f : PendingFault) : TrapInfo :=
  { code := f.code, val := f.val, seq := seqWord f.seq, source := f.source, imprecise := f.fatal, fatal := f.fatal, pc := x.pc, leaves := false }

/-- Is a fault the report of a memory core's parked stores (R178). -/
def PendingFault.isReport (f : PendingFault) : Bool := f.code == causeXlate && f.source == 3 && f.seq.isNone

/-- IMPRECISE_FAULT (R105, R121, R178, R179): the fault that is reported is taken at the core's next boundary, one that is not fatal
once the replay queue holds parked entries alone; a fatal one discards every other. The report of parked entries goes before a trap that
waits and is not fatal. [DEDUCED A34, unsafe] [DEDUCED A66, safe] -/
def execImpreciseFault (c : CoreId) (s : State) : Host.Outcome State Fault Refusal :=
  if !c.wf then .fault .noSuchUnit else
  let x := s.core c
  match reported x.issue.faults with
  | none => .next s
  | some f =>
    let free := match x.issue.trapWait with | none => true | some t => (f.fatal || f.isReport) && !t.fatal
    if !atBoundary s c || !free || !(f.fatal || x.replay.all (fun e => e.parked)) then .next s else
    let s := s.modCore c (fun x => { x with
      replay := if f.isReport then x.replay.map (fun e => { e with told := e.told || e.parked }) else x.replay
      issue := { x.issue with faults := if f.fatal then [] else x.issue.faults.erase f } })
    .next (deliverTrap s c (faultTrap x f))

/-! ## Entry after a wait (R106) -/

/-- May the trap that waits at core c enter (R106): the core has settled. -/
def entryReady (s : State) (c : CoreId) (t : TrapInfo) : Bool :=
  let x := s.core c
  decide (x.issue.readyAt ≤ s.now c) && trapReady s c t

/-- A core that still runs words. -/
def RunState.live : RunState → Bool
  | .running | .retiring => true
  | _ => false

/-- TRAP_ENTRY (R106, R119, R123): the trap that waits at core c enters, or in a window signals the freeze first; PREEMPT and STEP of a
checked pair enter both cores, unless the other one has a cause of its own for the freeze of their group. -/
def execTrapEntry (c : CoreId) (s : State) : Host.Outcome State Fault Refusal :=
  if !c.wf then .fault .noSuchUnit else
  let x := s.core c
  match x.issue.trapWait with
  | none => .next s
  | some t =>
    if s.mustFreeze c t then .next (awaitTrap s c t) else
    if !entryReady s c t then .next s else
    let partner : Option Nat := match c with
      | .comp k => if pairBound x t then s.partner k else none
      | .mem _ => none
    match partner with
    | none => .next (enterTrap s c t)
    | some p =>
      let y := s.core (.comp p)
      if !y.run.live then .next (enterTrap s c t) else
      match y.issue.trapWait with
      | some u =>
        if u.code = t.code then
          (if entryReady s (.comp p) u then .next (enterTrap (enterTrap s c t) (.comp p) u) else .next s)
        else if s.isFrozen c then .next (enterTrap s c t) else .next s
      | none => if s.isFrozen c then .next (enterTrap s c t) else .next s

/-! ## STEP (R107, R121, R122) -/

/-- STEP at a core. -/
def stepTrap (x : Core) : TrapInfo := preciseTrap x.pc causeStep 0

/-- The cores that a request to c concerns: both of a checked pair (R123). [DEDUCED A36, unsafe] -/
def State.both (s : State) (c : CoreId) : List CoreId :=
  match c with
  | .comp k => match s.partner k with | some p => [c, .comp p] | none => [c]
  | .mem _ => [c]

/-- SINGLE_STEP (R122): a word has issued at program level under STEP, and STEP is taken before the next one. -/
def execSingleStep (c : CoreId) (s : State) : Host.Outcome State Fault Refusal :=
  if !c.wf then .fault .noSuchUnit else
  let x := s.core c
  if x.issue.stepDue && programBoundary s c && !x.issue.faults.any (fun f => f.fatal) then
    let s := (s.both c).foldl (fun s d =>
      if (s.core d).issue.trapWait.isNone && (s.core d).run == .running then
        s.modCore d (fun x => { x with issue := { x.issue with stepDue := true } }) else s) s
    let s := s.modCore c (fun x => { x with issue := { x.issue with stepDue := false } })
    .next (deliverTrap s c (stepTrap x))
  else .next s

/-! ## PREEMPT (R107, R117, R118, R121) -/

/-- The SOURCE of a requester (R101, R117). -/
def requesterSource : Requester → Nat
  | .manager => 10
  | .management => 12

/-- PREEMPT at a core. -/
def preemptTrap (x : Core) (source : Nat) : TrapInfo := { preciseTrap x.pc causePreempt 0 with source := source }

/-- The core's `end` has passed its checks, or its chain's END block has completed: a request is answered RETIRED (R92, R118, R257). -/
def Core.isEnding (x : Core) : Bool := x.run == .retiring || x.issue.ending

/-- Does a request have an effect on a core (R107, R118): one that is taking PREEMPT needs no second. -/
def preemptable (x : Core) : Bool :=
  x.gang.isSome && (x.run == .running || x.run == .parked) && !x.issue.ending &&
    (match x.issue.trapWait with | some t => t.code != causePreempt | none => true)

/-- May PREEMPT be taken now: at a boundary of program level, with nothing of a higher rank due (R121), and in a window only once the
group has frozen (R119). -/
def preemptReady (s : State) (c : CoreId) : Bool :=
  let x := s.core c
  x.issue.preempt.isSome && programBoundary s c && !x.issue.stepDue && x.issue.faults.isEmpty &&
    (s.isFrozen c || (!x.tw && (match s.gangOf c with | some g => g.freezeAt.isNone | none => true)))

/-- PREEMPT is taken where a request is pending (R107, R117). Which word's own trap or `end` goes before it is settled where the word
issues (R121). [DEDUCED A35, unsafe] -/
def takePreempt (s : State) (c : CoreId) : State :=
  let x := s.core c
  match x.issue.preempt with
  | some source =>
    if preemptReady s c then
      deliverTrap (s.modCore c (fun x => { x with issue := { x.issue with preempt := none } })) c (preemptTrap x source)
    else s
  | none => s

/-- Has a core of a live gang retired (R92). -/
def State.hasRetired (s : State) (c : CoreId) : Bool :=
  (s.core c).run == .stopped && (match s.gangOf c with | some g => !g.killed && g.retired.contains c | none => false)

/-- A request with a SOURCE reaches one core: it is pending, or is answered RETIRED (R107, R118); in a window the core signals the
freeze of its group at once and issues on until it comes (R119). -/
def notePreempt (source : Nat) (s : State) (c : CoreId) : State :=
  let x := s.core c
  if x.gang.isSome && (x.isEnding || s.hasRetired c) then s.modCore c (fun x => { x with issue := { x.issue with answered := x.issue.answered ++ [source] } })
  else if preemptable x && x.issue.preempt.isNone then
    let s := s.modCore c (fun x => { x with issue := { x.issue with preempt := some source } })
    if x.tw && !x.system && !s.isFrozen c then signalFreeze s c else s
  else s

/-- PREEMPTION_REQUEST (R117, R118, R123): a request reaches a core, of a checked pair both. -/
def execPreemptionRequest (c : CoreId) (src : Requester) (s : State) : Host.Outcome State Fault Refusal :=
  if !c.wf then .fault .noSuchUnit else .next ((s.both c).foldl (notePreempt (requesterSource src)) s)

/-! ## A window's group (R119) -/

/-- The compute members of a gang that have not retired. -/
def Gang.running (g : Gang) : List Nat := g.compute.filter (fun k => !g.retired.contains (.comp k))

/-- The core waits at a Weir: its arrival is withdrawn by a freeze, and the word arrives again (R334). -/
def Wait.isWeir : Wait → Bool
  | .weir _ _ _ => true
  | _ => false

/-- A member freezes on cycle F: GCYC holds, issue stops, its timed commands and its chain stop at their next restart points, and it
takes PREEMPT, with the SOURCE of its own request or the Weir's, unless it has a cause of its own or runs at system level, where PREEMPT
stays pending (R101, R107, R119). [DEDUCED A35, unsafe] -/
def freezeMember (s : State) (k : Nat) : State :=
  let c : CoreId := .comp k
  let v := s.gcyc c
  s.modCore c (fun x =>
    let own := x.issue.trapWait.isSome
    { x with
      sys := { x.sys with gcycHeld := some v }
      eng := { x.eng with stopAt := some (s.now c), chainStop := if x.blockEnded then x.eng.chainStop else some (s.now c) }
      issue := { x.issue with
        wait := if x.system && !x.issue.wait.isWeir then x.issue.wait else .none
        trapWait := if own || x.system then x.issue.trapWait else some (preemptTrap x (x.issue.preempt.getD 11))
        preempt := if x.system then some (x.issue.preempt.getD 11) else if own then x.issue.preempt else none } })

/-- A flit in flight is held at its target with its due GCYC (R119). -/
def holdFlit (s : State) (ks : List Nat) (f : Flit) : Flit :=
  if ks.contains f.target && !f.held then
    let c : CoreId := .comp f.target
    { f with held := true, due := (BitVec.ofNat 32 f.due - BitVec.ofNat 32 (s.now c) + s.gcyc c).toNat }
  else f

/-- GROUP_FREEZE (R119, R334): on cycle F every member of the gang's group freezes, and its arrival at the Weir is withdrawn. -/
def execGroupFreeze (n : Nat) (s : State) : Host.Outcome State Fault Refusal :=
  match s.gang n with
  | none => .fault .noSuchUnit
  | some g =>
    match g.freezeAt with
    | none => .next s
    | some t =>
      if g.frozen || decide ((s.die g.die).cycle < t) then .next s else
      let s := { s with flits := s.flits.map (holdFlit s g.running) }
      let s := g.running.foldl freezeMember s
      .next (s.modGang n (fun g => { g with frozen := true, sync := g.sync.filter (fun a => isMemCore a.1), opens := [], returned := [] }))

/-- A member goes on at the release: GCYC is G_F on this cycle, and the word at its pc may issue (R119, R322). [DEDUCED A35, unsafe] -/
def releaseMember (s : State) (k : Nat) : State :=
  let c : CoreId := .comp k
  let now := s.now c
  s.modCore c (fun x =>
    let x := match x.sys.gcycHeld with | some v => x.setGcyc now v | none => x
    { x with issue := { x.issue with wait := .none, readyAt := now } })

/-- GROUP_RELEASE (R119): every member has returned, and the Weir's latency is over; all go on together. -/
def execGroupRelease (n : Nat) (s : State) : Host.Outcome State Fault Refusal :=
  match s.gang n with
  | none => .fault .noSuchUnit
  | some g =>
    let arrived := latest (g.running.map (fun k => (s.core (.comp k)).issue.readyAt - 1))
    if g.frozen && g.running.all (fun k => g.returned.contains (.comp k) && (s.core (.comp k)).issue.wait == .release) &&
        decide (arrived + weirLatency (windowScope g) ≤ (s.die g.die).cycle) then
      .next (g.running.foldl releaseMember (s.modGang n (fun g => { g with frozen := false, freezeAt := none, returned := [] })))
    else .next s

end Sys2Proof.Machine
end

