-- ==== Sys2Proof/Machine/Tasks.lean ====
section
/-! DEFINITION. The task queue manager (R291-R302): deposits, readiness, the choice of a gang, placement and launch, the
watchdog, suspension, and ring gangs (R305-R308). -/

namespace Sys2Proof.Machine
open Sys2Proof

/-! ## Deposits (R293-R295) -/

/-- Deposit a record in its queue of die d when it is acceptable and of the context allowed: the state, and the status 0, 1
FULL or 2 BAD (R293-R295). -/
def depositRecord (s : State) (d : Nat) (ctx : Option Nat) (hold : Option CoreId) (r : List Byte) : State × Nat :=
  if !recordOk r || (match ctx with | some k => k != recCtx r | none => false) then (s, 2)
  else if (s.queue d (recQueue r)).records.length ≥ 32 then (s, 1)
  else
    let entry : Record := { id := s.nextId, bytes := r, gang := none, readyFor := 0, blocking := false, hold := hold, requeued := false }
    (({ s with nextId := s.nextId + 1 } : State).modQueue d (recQueue r) (fun q => { q with records := q.records ++ [entry] }), 0)

/-- Deposit a copy of the record at g_a; the status comes to g_d (R294). -/
def execLaunch (S : Bool) (d a : BitVec 5) (s : State) : Host.Outcome State Fault Refusal :=
  runWord S (do
    bindCheck [a.toNat] [d.toNat]
    let r ← readReg a.toNat
    let p ← checkAddress r 0 128 Reg.permR .no false
    if r.cursor % 64 ≠ 0 then raise causeAlign (valOf r.cursor)
    let c ← getCore
    require (!c.tw) causeIssue
    memoryGate
    release 5
    let s ← get
    let die := dieOf s.cur
    let x := s.die die
    match ← reserveAppend d.toNat with
    | some (q, z) => addOp ⟨0, .deposit, q.home, z, 0, if z = 0 then none else some d.toNat, q.near, none, none⟩
    | none => addOp ⟨0, .deposit, 0, 0, 0, if d = 0 then none else some d.toNat, false, none, none⟩
    let t ← get
    set (t.setDie die { x with deposits := x.deposits ++ [⟨s.nextId, some s.cur, c.context, c.stepOn && !c.system, s.bytes p.home 128⟩] })
    pure (.next 1)) s

/-- The rank of a deposit among those of one cycle (R295). -/
def depositRank : Option CoreId → Nat
  | none => 0
  | some c => 1 + coreKey c

/-- A transaction answers, a service with the tag of its request (R369, R371). -/
def answer (s : State) (d status : Nat) (data : List Byte) (tag : Option (BitVec 16) := none) : State :=
  { s with module := { s.module with responses := s.module.responses ++ [⟨d, tag, status, data⟩] } }

/-- The manager takes one deposit; the status of a `launch` goes back to its core, and a stepped one is held while the core still waits for
it (R122, R294); that of a SUBMIT goes to the host (R295). -/
def takeDeposit (s : State) (d : Nat) (p : Deposit) : State :=
  let waits (c : CoreId) : Bool := (s.core c).ops.any (fun o => o.id == p.id)
  let hold := p.source.bind (fun c => if p.stepped && waits c then some c else none)
  let (s, status) := depositRecord s d (p.source.map (fun _ => p.context)) hold p.record
  match p.source with
  | none => answer s d status []
  | some c => s.modCore c (fun x => { x with ops := x.ops.map (fun o =>
      if o.id == p.id then { o with value := some (Reg.ofWord (BitVec.ofNat 64 status)) } else o) })

/-- Does one arrival stand before another: on an earlier cycle, or on the same one by its rank (R295). -/
def arrivesBefore (a b : Nat × Deposit) : Bool :=
  decide (a.1 < b.1 ∨ (a.1 = b.1 ∧ depositRank a.2.source ≤ depositRank b.2.source))

/-- The deposits that have arrived at die d's manager, in the order in which it takes them (R295). -/
def State.arrivals (s : State) (d : Nat) : List (Nat × Deposit) := (s.die d).arrived.mergeSort arrivesBefore

/-- Deposits arrive at die d's manager on this cycle; it takes one on each later cycle, in arrival order (R295). [DEDUCED A74, unsafe] -/
def arriveDeposits (s : State) (d : Nat) (l : List Deposit) : State :=
  let x := s.die d
  s.setDie d { x with arrived := x.arrived ++ l.map (fun p => (x.cycle, p)) }

/-- The manager of die d takes the first deposit that had arrived before this cycle, one a cycle (R295). [DEDUCED A74, unsafe] -/
def takeArrival (s : State) (d : Nat) : State :=
  let x := s.die d
  match s.arrivals d with
  | [] => s
  | p :: _ =>
    if x.taken == some x.cycle || decide (x.cycle ≤ p.1) then s else
    takeDeposit (s.setDie d { x with arrived := x.arrived.erase p, taken := some x.cycle }) d p.2

/-- TASK_DEPOSIT (R295): the named deposits arrive at die d's manager on this cycle, and it takes the first of those that arrived
earlier. -/
def execTaskDeposit (d : Nat) (ids : List Nat) (s : State) : Host.Outcome State Fault Refusal :=
  if d ≥ Config.dies then .fault .noSuchUnit else
  let x := s.die d
  let s := s.setDie d { x with deposits := x.deposits.filter (fun p => !ids.contains p.id) }
  .next (takeArrival (arriveDeposits s d (x.deposits.filter (fun p => ids.contains p.id))) d)

/-! ## Readiness and order (R296, R297) -/

/-- A record's gang runs, or has run. -/
def State.hasLaunched (s : State) (r : Record) : Bool :=
  match r.gang with
  | none => false
  | some n => match s.gang n with | some g => g.started | none => true

/-- The first record of queue q of die d that has not launched, with the number of records before it (R296). -/
def State.headRecord (s : State) (d q : Nat) : Option (Record × Nat) :=
  (s.queue d q).records.zipIdx.find? (fun p => !s.hasLaunched p.1)

/-- Is a record ready, with its queue's order satisfied and its queue not HALTed (R296, R297)? A gang that retires still counts
on that cycle (R302). [DEDUCED A25, unsafe] -/
def State.inOrder (s : State) (d q : Nat) (r : Record) (before : Nat) : Bool :=
  let x := s.die d
  let gone := x.freed.1 == x.cycle && x.freed.2.1.contains q
  let ev := (s.cluster (8 * d + recHome r.bytes)).ev
  !(s.queue d q).halt && (recOvl r.bytes || (before == 0 && !gone)) && ev &&& recWait r.bytes == recWait r.bytes

/-- A record that stands at its queue's head, ready and in order: the queue and the record. -/
def State.readyHead (s : State) (d q : Nat) : Option (Nat × Record) :=
  match s.headRecord d q with
  | some (r, n) => if s.inOrder d q r n then some (q, r) else none
  | none => none

/-- The ready heads of a die. -/
def State.readyHeads (s : State) (d : Nat) : List (Nat × Record) := (List.range 16).filterMap (s.readyHead d)

/-- The level of a queue (R291). -/
def queueLevel (q : Nat) : Nat := q / 4

/-- The blocking heads, oldest first (R297). -/
def State.blockingHeads (s : State) (d : Nat) : List (Nat × Record) :=
  ((s.readyHeads d).filter (fun p => p.2.blocking)).mergeSort (fun a b =>
    decide (b.2.readyFor < a.2.readyFor ∨ (b.2.readyFor = a.2.readyFor ∧ a.2.id ≤ b.2.id)))

/-- Does a blocking record hold another back: the same or a lower level in its home cluster (R297). [DEDUCED A25, unsafe] -/
def holdsBack (b r : Nat × Record) : Bool :=
  decide (queueLevel b.1 ≤ queueLevel r.1) && recHome b.2.bytes == recHome r.2.bytes

/-- Do the blocking records let a record be placed: an older one never yields to a younger. [DEDUCED A25, unsafe] -/
def State.unblocked (s : State) (d : Nat) (r : Nat × Record) : Bool :=
  let bs := s.blockingHeads d
  let older := if r.2.blocking then bs.takeWhile (fun b => b.2.id != r.2.id) else bs
  older.all (fun b => !holdsBack b r)

/-- STARVATION_GUARD (R297): a head that has been ready on 65 536 consecutive cycles without a placement becomes blocking. -/
def execStarvationGuard (d queue : Nat) (s : State) : Host.Outcome State Fault Refusal :=
  if d ≥ Config.dies ∨ queue ≥ 16 then .fault .noSuchUnit else
  match s.readyHead d queue with
  | some (_, r) =>
    if r.readyFor ≥ 65536 ∧ r.gang.isNone then
      .next (s.modQueue d queue (fun q => { q with records := q.records.map (fun x => if x.id == r.id then { x with blocking := true } else x) }))
    else .next s
  | none => .next s

/-- What a cycle of die d adds to its heads' counts: one for a ready head without a placement, a new start for any other (R297). -/
def countReady (s : State) (d : Nat) : State :=
  (List.range 16).foldl (fun s q =>
    match s.headRecord d q with
    | none => s
    | some (r, n) =>
      let ok := s.inOrder d q r n && r.gang.isNone
      if !ok && r.readyFor == 0 && !r.blocking then s else
      s.modQueue d q (fun x => { x with records := x.records.map (fun y =>
        if y.id == r.id then (if ok then { y with readyFor := y.readyFor + 1 } else { y with readyFor := 0, blocking := false }) else y) })) s

/-! ## Placement (R298) -/

/-- The core at local column x and row y of a cluster (R7, R298). -/
def clusterCore (q x y : Nat) : Nat := 16 * q + 4 * (2 * (y / 2) + x / 2) + 2 * (y % 2) + x % 2

/-- A core belongs to a gang or holds a context, or is reserved for one, or was freed on this cycle (R298, R302). -/
def State.busyCore (s : State) (c : CoreId) : Bool :=
  let x := s.die (dieOf c)
  (s.core c).gang.isSome || s.gangs.any (fun g => g.all.contains c) || (x.freed.1 == x.cycle && x.freed.2.2.contains (coreKey c))

/-- Is a core free and unfenced (R298). [DEDUCED A25, unsafe] -/
def State.freeFor (s : State) (c : CoreId) : Bool :=
  !s.busyCore c && !s.isFenced c && ((s.core c).run == .free || (s.core c).run == .parked)

/-- Has a core's slice a fenced quarter (R234). -/
def State.quarterFenced (s : State) (k : Nat) : Bool := fencedBits (s.core (.comp k)).sys.mstat != 0

/-- The bounding rectangle of some cores of a die: first and last column, first and last row (R298). -/
def bounds (ks : List Nat) : Nat × Nat × Nat × Nat :=
  let xs := ks.map coreX
  let ys := ks.map coreY
  (xs.foldl min 16, xs.foldl max 0, ys.foldl min 16, ys.foldl max 0)

/-- Does a rectangle hold a core. -/
def inBounds (b : Nat × Nat × Nat × Nat) (k : Nat) : Bool :=
  decide (b.1 ≤ coreX k ∧ coreX k ≤ b.2.1 ∧ b.2.2.1 ≤ coreY k ∧ coreY k ≤ b.2.2.2)

/-- Do two rectangles share a position. -/
def boundsMeet (a b : Nat × Nat × Nat × Nat) : Bool :=
  decide (a.1 ≤ b.2.1 ∧ b.1 ≤ a.2.1 ∧ a.2.2.1 ≤ b.2.2.2 ∧ b.2.2.1 ≤ a.2.2.2)

/-- The rectangle rule of a TIMED gang over the cores placed so far (R298). [DEDUCED A33, unsafe] -/
def State.timedPlace (s : State) (d : Nat) (ks : List Nat) : Bool :=
  let b := bounds ks
  ks.all (fun k => !s.quarterFenced k) &&
    (List.range 128).all (fun i => let k := 128 * d + i; !inBounds b k || ks.contains k || !s.busyCore (.comp k)) &&
    s.gangs.all (fun g => !(g.die == d && recTimed g.record && !g.compute.isEmpty && boundsMeet b (bounds g.compute)))

/-- A compute group's cores at an origin, in rank order: row-major in the rectangle (R299). -/
def groupAt (q : Nat) (g : GroupEntry) (x y : Nat) : List Nat :=
  (List.range g.height).flatMap (fun j => (List.range g.width).map (fun i => clusterCore q (x + i) (y + j)))

/-- The first position of a compute group that succeeds (R298); `taken` are the gang's cores so far. [DEDUCED A33, unsafe] -/
def placeCompute (s : State) (d : Nat) (r : List Byte) (g : GroupEntry) (taken : List Nat) : Option (List Nat) :=
  let origins := (List.range (5 - g.height)).flatMap (fun y => (List.range (5 - g.width)).map (fun x => (x, y)))
  (origins.map (fun (x, y) => (x, y, groupAt (8 * d + recHome r) g x y))).findSome? (fun (x, y, ks) =>
    if ks.all (fun k => s.freeFor (.comp k) && !taken.contains k) &&
        (!g.joint || (x % 2 == 0 && y % 2 == 0 && ks.all (fun k => !s.quarterFenced k))) &&
        (!recPair r || x % 2 == 0) && (!recTimed r || s.timedPlace d (taken ++ ks)) then some ks else none)

/-- Place the groups of a record in order, all or none (R298). -/
def placeGroups (s : State) (d : Nat) (r : List Byte) : List (Nat × GroupEntry) → List Nat → Option (List (Nat × List CoreId))
  | [], _ => some []
  | (i, g) :: rest, taken =>
    if g.isMem then
      let cs := g.channels.map (fun ch => CoreId.mem (8 * d + ch))
      if cs.all s.freeFor then (placeGroups s d r rest taken).map (fun l => (i, cs) :: l) else none
    else
      match placeCompute s d r g taken with
      | none => none
      | some ks => (placeGroups s d r rest (taken ++ ks)).map (fun l => (i, ks.map CoreId.comp) :: l)

/-- The placement of a record on a die, if there is one on this cycle. -/
def State.placement (s : State) (d : Nat) (r : List Byte) : Option (List (Nat × List CoreId)) :=
  placeGroups s d r ((recGroups r).zipIdx.map (fun p => (p.2, p.1))) []

/-! ## Launch (R77, R299, R324) -/

/-- STAGE and COUNT of a gang in WDOG of its members (R323, R324). -/
def wdogWord (old : Word) (stage count : Nat) : Word := setBits (setBits old 0 2 stage) 16 16 (min count 0xFFFF)

/-- The watchdog's stage and its start changed, and shown in every member (R302, R324). -/
def setStage (s : State) (n stage : Nat) : State :=
  match s.gang n with
  | none => s
  | some g =>
    let now := (s.die g.die).cycle
    let s := s.modGang n (fun g => { g with stage := stage, count := 0, stageStart := now })
    g.all.foldl (fun s c => if (s.core c).gang == some n then
      s.modCore c (fun x => { x with sys := { x.sys with wdog := wdogWord x.sys.wdog stage 0 } }) else s) s

/-- The PAIR register of a member of a checked pair (R103). -/
def pairWord (c : CoreId) (requeued : Bool) : Word :=
  match c with
  | .comp k =>
    let odd := k % 2 == 1
    BitVec.ofNat 64 ((if odd then k - 1 else k + 1) + odd.toNat * 2 ^ 11 + requeued.toNat * 2 ^ 12)
  | .mem _ => 0

/-- The general registers at a launch (R299): `rank` within group `i`. [DEDUCED A44, unsafe] -/
def launchRegs (c : CoreId) (ctxarea : Nat) (r : List Byte) (g : GroupEntry) (i rank : Nat) : Vector Reg 32 :=
  let o := coreIndex c
  let ib := recIbase r
  let stack := makeCap 3 0 ctxarea o Config.privateBase (ctxarea - Config.privateBase)
  let args := if g.alen = 0 then Reg.zero else makeCap 3 3 (ib + g.aoff) o (ib + g.aoff) g.alen
  let image := makeCap 5 3 (ib + g.eoff) o ib (recIlen r)
  ((((Vector.replicate 32 Reg.zero).setIfInBounds 2 stack).setIfInBounds 3 args).setIfInBounds 4 image).setIfInBounds 5
    (Reg.ofWord (BitVec.ofNat 64 (rank % 16 + i % 4 * 16)))

/-- A member starts (R77, R299): the registers that are saved on switch at zero, the launch values, program level at the entry;
a core that stands in `wfi` begins at TRAPVEC with the trap registers set for the gang (R114). [DEDUCED A44, unsafe] [DEDUCED A62, unsafe] -/
def startMember (s : State) (n : Nat) (r : List Byte) (requeued : Bool) (i rank : Nat) (c : CoreId) : State :=
  let g := recGroup r i
  let now := s.now c
  let entry : Word := alignPc (BitVec.ofNat 64 (recIbase r + g.eoff))
  s.modCore c (fun x =>
    let parked := x.run == .parked
    let paired := recPair r && !isMemCore c
    { x with
      run := .running
      pc := if parked then alignPc x.sys.trapvec else entry
      g := launchRegs c x.ctxarea r g i rank
      k := Vector.replicate 8 0
      v := Vector.replicate 16 (Vector.replicate 64 0)
      sys := { SysRegs.reset (isMemCore c) with
        status := if paired then 16 else 0
        priv := if parked then 1 else 0
        trappc := if parked then entry else 0
        trapvec := x.sys.trapvec, privsz := x.sys.privsz, xbase := x.sys.xbase, xlimit := x.sys.xlimit
        mstat := setBits 0 40 4 (fencedBits x.sys.mstat)
        gcycBase := now
        pair := if paired then pairWord c requeued else 0 }
      gen := Vector.replicate 4 Reg.zero
      issue := { Issue.reset with readyAt := now + 1 }
      vq := [], replay := [], channels := [], outbox := none, posts := [], cascade := none, vready := [], vwait := 0, vcredit := 0
      slice := { x.slice with dtab := [], holders := Vector.replicate 32 .free }
      eng := { x.eng with saved := false, refilled := false, savedJoint := [], savedBase := [], ringBase := x.eng.seq, stopAt := none, chainStop := none, lastStart := Vector.replicate 6 0 }
      gang := some n, context := recCtx r })

/-- Start every member of a gang on this cycle, its watchdog in stage 1 when T1 is set (R299, R302, R324). -/
def startGang (s : State) (n : Nat) : State :=
  match s.gang n with
  | none => s
  | some g =>
    let s := g.members.foldl (fun s (i, cs) =>
      (cs.zipIdx).foldl (fun s (c, rank) => startMember s n g.record g.requeued i rank c) s) s
    let s := s.modGang n (fun g => { g with started := true })
    setStage s n (if (s.queue g.die g.queue).qlim.1 = 0 then 0 else 1)

/-- A gang of a record with its placement; the record knows it (R291). -/
def admitGang (s : State) (d q : Nat) (r : Record) (ms : List (Nat × List CoreId)) : State × Nat :=
  let n := s.nextId
  let gang : Gang :=
    { id := n, die := d, queue := q, record := r.bytes, members := ms, retired := [], stage := 0, count := 0,
      stageStart := (s.die d).cycle, expired := false, killed := false, closing := none, freezeAt := none, frozen := false, returned := [], sync := [], opens := [],
      trap := none, fatalAt := [], requeued := r.requeued, started := false, committed := false, failedAt := none, aborted := false }
  let s := { s with nextId := n + 1, gangs := s.gangs ++ [gang] }
  (s.modQueue d q (fun x => { x with records := x.records.map (fun y =>
    if y.id == r.id then { y with gang := some n, readyFor := 0, blocking := false } else y) }), n)

/-- A gang of queue q launches on this cycle: the level pointer moves on, and the cycle's launch is spent (R297). -/
def spendLaunch (s : State) (d q : Nat) : State :=
  let x := s.die d
  s.setDie d { x with
    pointers := x.pointers.setIfInBounds (queueLevel q) (BitVec.ofNat 2 (q % 4 + 1)).toNat
    launched := some (x.cycle, queueLevel q) }

/-- Has the manager of die d launched a gang on this cycle (R297). -/
def State.hasSpent (s : State) (d : Nat) : Bool :=
  match (s.die d).launched with | some (t, _) => t == (s.die d).cycle | none => false

/-- Launch a record on its placement (R297, R299). -/
def launchRecord (s : State) (d : Nat) (p : Nat × Record) (ms : List (Nat × List CoreId)) : State :=
  let (s, n) := admitGang s d p.1 p.2 ms
  spendLaunch (startGang s n) d p.1

/-- Is a gang suspended, and may it resume: every member that has not retired stands in `wfi` after a PREEMPT that it has not
returned from (R302). -/
def State.resumable (s : State) (g : Gang) : Bool :=
  let cs := g.all.filter (fun c => !g.retired.contains c)
  g.started && !g.killed && !cs.isEmpty && cs.all (fun c =>
    let x := s.core c
    x.run == .parked && x.issue.preempted && decide (x.issue.readyAt ≤ s.now c))

/-- May a level launch on this cycle: it has resumed nothing, and has nothing to resume (R302). -/
def State.levelOpen (s : State) (d l : Nat) : Bool :=
  let x := s.die d
  !(x.resumed.1 == x.cycle && x.resumed.2.contains l) && !s.gangs.any (fun g => g.die == d && queueLevel g.queue == l && s.resumable g)

/-- May a ready head launch now, and where (R296-R298): it is no ring record, no step holds it, and nothing blocks it. -/
def State.launchable (s : State) (d : Nat) (p : Nat × Record) : Option (List (Nat × List CoreId)) :=
  if p.2.hold.isNone && !recRing p.2.bytes && s.levelOpen d (queueLevel p.1) && s.unblocked d p then s.placement d p.2.bytes else none

/-- The launch of a level: the oldest blocking record that can be served, else the first queue from the level pointer (R297). -/
def levelChoice (s : State) (d l : Nat) : Option ((Nat × Record) × List (Nat × List CoreId)) :=
  let served := (s.blockingHeads d).filterMap (fun p => (s.launchable d p).map (fun ms => (p, ms)))
  if served.any (fun p => queueLevel p.1.1 == l) then served.head? else
  let at0 := (s.die d).pointers.toList.getD l 0
  ((List.range 4).map (fun i => 4 * l + (at0 + i) % 4)).findSome? (fun q =>
    match s.readyHead d q with
    | some p => if p.2.blocking then none else (s.launchable d p).map (fun ms => (p, ms))
    | none => none)

/-- The gang that die d's manager launches on this cycle (R297); none while the module holds in reset (R376). -/
def State.launchChoice (s : State) (d : Nat) : Option ((Nat × Record) × List (Nat × List CoreId)) :=
  if s.hasSpent d || s.module.thermalHold then none else (List.range 4).findSome? (levelChoice s d)

/-- GANG_LAUNCH (R296-R299): die d's manager launches at most one gang a cycle. [DESIGN CHOICE A2, safe] -/
def execGangLaunch (d : Nat) (s : State) : Host.Outcome State Fault Refusal :=
  if d ≥ Config.dies then .fault .noSuchUnit else
  match s.launchChoice d with
  | some (p, ms) => .next (launchRecord s d p ms)
  | none => .next s

/-! ## Watchdog and suspension (R302) -/

/-- Has the stage of a gang's watchdog run for its limit; the watchdog runs while T1 is not 0. [DEDUCED A58, unsafe] -/
def State.stageOver (s : State) (g : Gang) (stage limit : Nat) : Bool :=
  g.stage == stage && (s.queue g.die g.queue).qlim.1 != 0 && limit != 0 && decide (g.stageStart + 1024 * limit ≤ (s.die g.die).cycle)

/-- WATCHDOG_T1 (R302): the manager asks every member to be pre-empted. -/
def execWatchdogT1 (n : Nat) (s : State) : Host.Outcome State Fault Refusal :=
  match s.gang n with
  | none => .fault .noSuchUnit
  | some g =>
    if s.stageOver g 1 (s.queue g.die g.queue).qlim.1 then
      let s := setStage s n 2
      .next (g.all.foldl (fun s c => if (s.core c).gang == some n then notePreempt 10 s c else s) s)
    else .next s

/-- WATCHDOG_T2 (R302): the gang is killed with status 2; its record names the first fatal trap, if there has been one (R301). -/
def execWatchdogT2 (n : Nat) (s : State) : Host.Outcome State Fault Refusal :=
  match s.gang n with
  | none => .fault .noSuchUnit
  | some g =>
    if s.stageOver g 2 (s.queue g.die g.queue).qlim.2.1 then .next (killGang (setStage s n 3) n 2 g.trap false) else .next s

/-- WATCHDOG_T3 (R302): the members that have not stopped are fenced, once. -/
def execWatchdogT3 (n : Nat) (s : State) : Host.Outcome State Fault Refusal :=
  match s.gang n with
  | none => .fault .noSuchUnit
  | some g =>
    if s.stageOver g 3 (s.queue g.die g.queue).qlim.2.2 && !g.expired then
      .next (g.all.foldl (fun s c => if (s.core c).gang == some n && !(s.core c).run.stops then s.setFence c true else s)
        (s.modGang n (fun g => { g with expired := true })))
    else .next s

/-- GANG_RESUME (R302): a suspended gang's members are woken, on a cycle on which its level launches no gang. -/
def execGangResume (n : Nat) (s : State) : Host.Outcome State Fault Refusal :=
  match s.gang n with
  | none => .fault .noSuchUnit
  | some g =>
    let x := s.die g.die
    let l := queueLevel g.queue
    if s.resumable g && !(x.launched == some (x.cycle, l)) then
      let ls := if x.resumed.1 = x.cycle then x.resumed.2 else []
      let s := s.setDie g.die { x with resumed := (x.cycle, l :: ls) }
      .next ((g.all.filter (fun c => !g.retired.contains c)).foldl (fun s c => wakeCore s c .resume) s)
    else .next s

/-! ## Ring gangs (R305-R308) -/

/-- RING_RESERVE (R306, R307): a launchable ring record takes its cores and sends its reservation; past its deadline it leaves
with status 3. -/
def execRingReserve (d queue : Nat) (s : State) : Host.Outcome State Fault Refusal :=
  if d ≥ Config.dies ∨ queue ≥ 16 then .fault .noSuchUnit else
  match s.readyHead d queue with
  | none => .next s
  | some p =>
    let r := p.2
    if !recRing r.bytes || r.gang.isSome || r.hold.isSome || !s.unblocked d p then .next s else
    match s.placement d r.bytes with
    | none => .next s
    | some ms =>
      if tickPast s.module.tick (recDeadline r.bytes) then
        let s := s.modQueue d queue (fun q => { q with records := q.records.filter (fun x => x.id != r.id) })
        .next (writeCompletion (forgetRing s r.bytes true) d r.bytes 3 none)
      else
        let (s, _) := admitGang s d queue r ms
        .next { s with module := { s.module with
          reservations := s.module.reservations ++ [(recRingNumber r.bytes, s.module.number, s.module.tick)] } }

/-- A module's reservation counts at the deadline D: it is stamped with a tick before D - 1, and past the deadline of the gang before it that
had its number (R306). [DEDUCED A78, unsafe] -/
def State.counted (s : State) (r : List Byte) (m : Nat) : Bool :=
  s.module.reservations.any (fun v => v.1 == recRingNumber r && v.2.1 == m && tickPast (recDeadline r + 2 ^ 32 - 1) v.2.2 &&
    (mapGet s.module.ringCounted (recRingNumber r)).all (fun d => tickPast v.2.2 d))

/-- Is a tick that a record names at hand, or past (R307). -/
def State.tickDue (s : State) (t : Nat) : Bool := s.module.tick % 2 ^ 32 == t || tickPast s.module.tick t

/-- Is a reserved ring gang to be counted, and a committed one to start (R306). -/
def commitDue (s : State) (g : Gang) : Bool :=
  recRing g.record && !g.started && !g.committed && !g.killed && s.tickDue (recDeadline g.record)
def startDue (s : State) (g : Gang) : Bool := g.committed && !g.started && !g.killed && s.tickDue (recStart g.record)

/-- RING_COMMIT (R306): at tick D the module counts the reservations, and commits or leaves with status 3; the reservations have been
used. [DEDUCED A78, unsafe] -/
def execRingCommit (n : Nat) (s : State) : Host.Outcome State Fault Refusal :=
  match s.gang n with
  | none => .fault .noSuchUnit
  | some g =>
    if !commitDue s g then .next s else
    if (ringParts s.module.ringSize g.record).all (s.counted g.record) then
      .next ((forgetRing s g.record false).modGang n (fun g => { g with committed := true }))
    else .next (releaseGang (writeCompletion s g.die g.record 3 none) g)

/-- RING_START (R297, R302, R306, R308): a committed gang starts at tick S, as the launch of its cycle, after what its level resumes; where a core of it has been fenced
since, the part fails. -/
def execRingStart (n : Nat) (s : State) : Host.Outcome State Fault Refusal :=
  match s.gang n with
  | none => .fault .noSuchUnit
  | some g =>
    if !startDue s g || s.hasSpent g.die || !s.levelOpen g.die (queueLevel g.queue) then .next s else
    if g.all.all (fun c => (s.core c).gang.isNone && !s.isFenced c) then .next (spendLaunch (startGang s n) g.die g.queue)
    else .next (killGang s n 4 none false)

/-- FAILURE_RECORD (R308): the part of a committed ring gang on this module has faulted fatally. -/
def execFailureRecord (n : Nat) (s : State) : Host.Outcome State Fault Refusal :=
  match s.gang n with
  | none => .fault .noSuchUnit
  | some g => .next (if !g.fatalAt.isEmpty || g.killed then sendFailure s n else s)

/-- The failure of another module, since the gang's deadline, that aborts a ring gang on this tick (R308). -/
def State.abortDue (s : State) (g : Gang) : Bool :=
  s.module.failures.any (fun f => f.1 == recRingNumber g.record && f.2.1 != s.module.number &&
    tickPast f.2.2 (recDeadline g.record + 2 ^ 32 - 1) && tickPast s.module.tick (f.2.2 + 1))

/-- Is a failure of this module's part to be sent, and one of another to abort the gang (R308). -/
def failureDue (g : Gang) : Bool :=
  recRing g.record && g.committed && !g.aborted && g.failedAt.isNone && (!g.fatalAt.isEmpty || g.killed)
def abortTime (s : State) (g : Gang) : Bool := g.committed && !g.aborted && !g.killed && g.failedAt.isNone && s.abortDue g

/-- Does a ring gang wait for something that happens in this tick of the ring time base (R305-R308, R333). -/
def ringWaits (s : State) : Bool :=
  s.gangs.any (fun g => commitDue s g || startDue s g || failureDue g || abortTime s g ||
    (g.sync.any (fun a => a.2.1 == 6) && syncReady s g ⟨.sync, 6, 0⟩))

/-- GANGABORT (R308): two ticks after a failure elsewhere the members take GANGABORT and the part is killed with status 4; its
beats are discarded. -/
def execGangabort (n : Nat) (s : State) : Host.Outcome State Fault Refusal :=
  match s.gang n with
  | none => .fault .noSuchUnit
  | some g =>
    if !abortTime s g then .next s else
    let s := discardBeats (s.modGang n (fun g => { g with aborted := true })) g
    if g.started then
      .next ((g.all.filter (fun c => !g.retired.contains c)).foldl (fun s c =>
        engineFault s c causeGangAbort s.module.tick none 11 true) s)
    else .next (killGang s n 4 none false)

end Sys2Proof.Machine
end

