-- ==== Sys2Proof/Machine/HostSide.lean ====
section
/-! DEFINITION. The host and the management cores: uncorrectable errors (R140, R141), the Torhar link (R369, R370), the firmware
services (R371), stream admission (R303), clock points, power (R21, R375, R376), boot and attestation (R373, R374). -/

namespace Sys2Proof.Machine
open Sys2Proof

/-! ## Errors (R141) -/

/-- The clean copy registered for the whole 4 KiB block b, at a place that is mapped (R141, R370). -/
def State.cleanCopy (s : State) (b : Nat) : Option CleanCopy :=
  s.module.clean.find? (fun k => decide (k.base ≤ 4096 * b ∧ 4096 * b + 4096 ≤ k.base + k.len) &&
    s.mappable (k.backing + (4096 * b - k.base)) 4096)

/-- The unit of SRAM that holds a home address, as a number of its own, and the spare blocks it has (R141); the Basin belongs to its
slice. -/
def spareUnit (h : Nat) : Option (Nat × Nat) :=
  if h < Config.sramHome then none
  else if h < Config.sramHome + Config.sramClusters then some ((h - Config.sramHome) / Config.sliceSize, 8)
  else if h < Config.sramHome + Config.sramSize then some (0x1000 + (h - Config.sramHome - Config.sramClusters) / Config.clusterSize, 16)
  else if h < Config.scratchpadHome then none
  else if Config.basinHome ≤ h then some ((h - Config.basinHome) / Config.basinSize, 8)
  else some (0x2000 + (h - Config.scratchpadHome) / Config.scratchpadSize, 4)

/-- Does a leaf with C = 1, or one of a weight page, map the frame: one that a TLB holds or one of the page tables of a context (R134,
R141). [DEDUCED A39, unsafe] -/
def State.leafClean (s : State) (h : Nat) : Bool :=
  let hit (e : TlbEntry) : Bool := (bitAt e.leaf 7 || bitAt e.leaf 3) && decide (e.frame ≤ h ∧ h < e.frame + e.size)
  s.cores.any (fun p => p.2.tlb.any hit) || s.clusters.any (fun p => p.2.tlb.any hit) ||
    s.dies.any (fun p => p.2.roots.any (fun r => bitAt r.2 0 && s.tableClean h 4 (pteFrame r.2 * 4096)))

/-- Is the block clean: an external frame with C in its leaf, an external weight page or a weight frame, with a copy registered (R141).
[DEDUCED A39, unsafe] -/
def State.isClean (s : State) (h : Nat) : Bool :=
  (s.cleanCopy (h / 4096)).isSome &&
    (if h < lpddrEnd then s.leafClean h
     else match sliceOf h with
       | some k => s.inWeights (k / 128) k ((h - Config.sramHome) % Config.sliceSize / 4096 * 4096) 4096
       | none => false)

/-- Does a timed command that core c runs read the address (R141, R312); in a window the block that its chain has loaded, or loads, and
what its command reads count too (R250). [DEDUCED A39, unsafe] -/
def timedReads (x : Core) (c : CoreId) (h : Nat) : Bool :=
  let runs := (match x.eng.array with | some r => [r.cmd] | none => []) ++ (match x.eng.copyRun with | some r => [r.cmd] | none => []) ++
    x.eng.landing.map (fun r => r.cmd)
  let seqs := (runs.filter (fun k => cmdT k.word)).map (fun k => k.seq)
  let lies (a n : Nat) : Bool := !isExternal a && decide (rawHome c a ≤ h ∧ h < rawHome c a + n)
  x.eng.sluice.any (fun e => seqs.contains e.seq && !e.isDst && e.loc == 0 &&
    decide (e.start ≤ homeAddress h ∧ homeAddress h < e.stop)) ||
  (x.tw && (match x.cascade with
    | some k => lies k.block 32 || (match k.cmd with
      | some cmd => lies cmd.base (32 * blockLength (k.header.getD 0)) ||
          (restoredRanges c cmd).any (fun r => !r.dst && !r.place.external && decide (r.place.home ≤ h ∧ h < r.place.home + r.len))
      | none => false)
    | none => false))

/-- A block is retired and a spare takes its place; after the last spare of a slice its core is fenced (R141). [DEDUCED A40, unsafe] -/
def retireBlock (s : State) (h : Nat) : State :=
  match spareUnit h with
  | none => { s with module := { s.module with retiredBlocks := s.module.retiredBlocks ++ [(h / 4096, 0x3000)] } }
  | some (u, spares) =>
    let l := s.module.retiredBlocks ++ [(h / 4096, u)]
    let s := { s with module := { s.module with retiredBlocks := l } }
    if u < 0x1000 ∧ spares ≤ (l.filter (fun p => p.2 == u)).length then s.setFence (.comp u) true else s

/-- The block's bytes are lost: what the spare holds is free (R141). [DESIGN CHOICE A16, safe] -/
def loseBlock (s : State) (b : Nat) : State :=
  let n := s.module.lost
  let s := s.write (4096 * b) ((List.range 4096).map (fun i => Config.lostByte n (4096 * b + i)))
  { s with module := { s.module with lost := n + 1 } }

/-- The contents of bank h of core k's Basin are lost (R141). [DESIGN CHOICE A16, safe] -/
def loseBank (s : State) (k h : Nat) : State :=
  let n := s.module.lost
  let at0 (i : Nat) : Nat := Config.basinHome + Config.basinSize * k + 2048 * h + 4 * i
  let cell (i : Nat) : BitVec 32 := BitVec.ofNat 32 (leNat ((List.range 4).map (fun j => Config.lostByte n (at0 i + j))))
  let s := s.modCore (.comp k) (fun x => { x with slice := { x.slice with
    basin := spliceCells x.slice.basin (512 * h) ((List.range 512).map cell) } })
  { s with module := { s.module with lost := n + 1 } }

/-- UNCORRECTABLE_ERROR (R141): an access of core c has met an error at a home address. A clean block recovers, and the access
waits; one that a timed command reads is fatal all the same; any other block is retired and the fault is fatal, as is that of a bank of
a Basin, whose block is retired. [DESIGN CHOICE A16, safe] [DESIGN CHOICE A60, safe] -/
def execUncorrectableError (home : Nat) (c : CoreId) (s : State) : Host.Outcome State Fault Refusal :=
  if !c.wf then .fault .noSuchUnit else
  if Config.basinHome ≤ home ∧ home < Config.basinHome + Config.basinSize * Config.computeCores then
    let k := (home - Config.basinHome) / Config.basinSize
    let h := (home - Config.basinHome) % Config.basinSize / 2048
    .next (engineFault (loseBank (retireBlock s home) k h) c causeEcc (Config.basinAddress k h).toNat none 9 true)
  else
  if s.isClean home then
    let b := home / 4096
    let s := if s.module.recovering.contains b then s else
      { s with module := { s.module with recovering := s.module.recovering ++ [b] } }
    .next (if timedReads (s.core c) c home then eccFault s c home else s)
  else .next (eccFault (loseBlock (retireBlock s home) (home / 4096)) c home)

/-- The frame that takes the place of an external block b (R141): the one that the memory manager has chosen, when it lies in LPDDR6 and
4 KiB leaves map the block; a part of a larger page keeps its place. [DEDUCED A40, unsafe] -/
def newFrame (s : State) (b frame : Nat) : Nat × List Nat :=
  let leaves := (s.dies.flatMap (fun p => p.2.roots)).flatMap (fun r => if bitAt r.2 0 then s.leavesOf b 4 (pteFrame r.2 * 4096) else [])
  if leaves.isEmpty ∨ 4096 * frame + 4096 > lpddrEnd then (b, []) else (frame, leaves)

/-- What has moved from a block to another: the accesses that wait on it, and the copy registered for it. [DEDUCED A40, unsafe] -/
def moveBlock (s : State) (b frame : Nat) (k : CleanCopy) : State :=
  let move (o : MemOp) : MemOp := if o.home / 4096 = b then { o with home := 4096 * frame + o.home % 4096 } else o
  { s with
    cores := s.cores.map (fun p => (p.1, { p.2 with ops := p.2.ops.map move }))
    module := { s.module with clean := s.module.clean ++ [⟨4096 * frame, 4096, k.backing + (4096 * b - k.base)⟩] } }

/-- The frame that the memory manager has chosen for block b, its own while none is chosen (R141). [DEDUCED A40, unsafe] -/
def chosenFrame (s : State) (b : Nat) : Nat := (mapGet s.module.frames b).getD b

/-- ECC_RECOVERY (R141): the block is reloaded from its copy: a spare stands in its place, or for an external frame a new one, which its
leaves now name and whose old translations are dropped; the access that waited replays. [DEDUCED A40, unsafe] -/
def execEccRecovery (home : Nat) (s : State) : Host.Outcome State Fault Refusal :=
  let b := home / 4096
  if !s.module.recovering.contains b then .next s else
  match s.cleanCopy b with
  | none => .next s
  | some k =>
    let s := retireBlock s home
    let (f, leaves) := if home < lpddrEnd then newFrame s b (chosenFrame s b) else (b, [])
    let s := s.write (4096 * f) (s.bytes (s.physHome (k.backing + (4096 * b - k.base))) 4096)
    let s := leaves.foldl (fun s a => s.writeNum a 8 (setBits (BitVec.ofNat 64 (s.num a 8)) 12 40 f).toNat) s
    let s := if f = b then s else moveBlock s b f k
    let s := if home < lpddrEnd then
        dropTranslations s 0 false (fun e => decide (e.frame < 4096 * b + 4096 ∧ 4096 * b < e.frame + e.size)) else s
    let m := s.module
    .next { s with module := { m with recovering := m.recovering.filter (fun x => x != b), frames := m.frames.filter (fun p => p.1 != b) } }

/-! ## Torhar transactions (R369, R370) -/

/-- The die of a physical address of LPDDR6 or of the SRAM alias; die 0 for any other. -/
def hostDie (pa : Nat) : Nat := if pa < lpddrEnd then pa / Config.lpddrPerDie else homeDie pa % Config.dies

/-- The dies that a transaction goes to: an MREAD or MWRITE to those of its first and its last byte (R369). -/
def Transaction.dies (t : Transaction) : List Nat :=
  match t.op with
  | .mread pa n => [hostDie pa, hostDie (pa + n - 1)]
  | .mwrite pa bs => [hostDie pa, hostDie (pa + bs.length - 1)]
  | _ => [t.die]

/-- Does die d still owe the answer of a CLOCK or a SUBMIT (R294, R375). -/
def State.hostOwes (s : State) (d : Nat) : Bool :=
  s.module.clockReplies.any (fun r => r.1 == d) || (s.die d).arrived.any (fun p => p.2.source.isNone)

/-- Does die d still serve an earlier transaction (R369, R371). -/
def State.hostBusy (s : State) (d : Nat) : Bool := s.module.torhar.any (fun t => t.dies.contains d) || s.hostOwes d

/-- A transaction waits its turn at die d, with the tag of its request. -/
def enqueueHost (s : State) (d : Nat) (i : HostOp) (data : List Byte) : State :=
  { s with module := { s.module with torhar := s.module.torhar ++ [⟨d, i, data, s.module.tag⟩] } }

/-- A transaction takes effect, once the earlier ones of its die have completed (R369). -/
def inTurn (s : State) (d : Nat) (i : HostOp) (f : State → State) : State := if s.hostBusy d then enqueueHost s d i [] else f s

/-- Has a die booted (R373). [DEDUCED A38, unsafe] -/
def State.booted (s : State) (d : Nat) : Bool := (s.die d).bootStep == 8 && !s.module.thermalHold

/-- SUBMIT (R295): at a die that has booted the record arrives at the manager, whose status answers when it takes it; another die answers
BAD. [DEDUCED A38, unsafe] -/
def execSubmit (d : Nat) (record : List Byte) (s : State) : Host.Outcome State Fault Refusal :=
  if d ≥ Config.dies then .fault .noSuchUnit else
  .next (inTurn s d (.submit record) (fun s =>
    if !s.booted d then answer s d 2 []
    else arriveDeposits { s with nextId := s.nextId + 1 } d [⟨s.nextId, none, 0, false, record⟩]))

/-- The range of an MREAD or MWRITE: 8 to 4096 bytes, 8-byte aligned, within LPDDR6 or within the SRAM alias (R369). -/
def hostRange (pa n : Nat) : Bool :=
  decide (8 ≤ n ∧ n ≤ 4096) && n % 8 == 0 && pa % 8 == 0 &&
    (decide (pa + n ≤ lpddrEnd) || decide (Config.sramHome ≤ pa ∧ pa + n ≤ Config.sramHome + Config.sramSize))

/-- MREAD (R369): it joins the transactions of its die, which serves it 8 bytes at a time, or answers BAD in its turn. -/
def execMread (pa n : Nat) (s : State) : Host.Outcome State Fault Refusal :=
  .next (enqueueHost s (hostDie pa) (.mread pa n) [])

/-- MWRITE (R369): it joins the transactions of its die, which serves it 8 bytes at a time, or answers BAD in its turn. -/
def execMwrite (pa : Nat) (data : List Byte) (s : State) : Host.Outcome State Fault Refusal :=
  .next (enqueueHost s (hostDie pa) (.mwrite pa data) data)

/-- A list of transactions with the first that equals t given other data, or gone. -/
def setFirst (t : Transaction) (data : Option (List Byte)) : List Transaction → List Transaction
  | [] => []
  | u :: l =>
    if u = t then (match data with | none => l | some b => { t with data := b } :: l) else u :: setFirst t data l

/-- Transaction t with other data, or gone. -/
def setHost (s : State) (t : Transaction) (data : Option (List Byte)) : State :=
  { s with module := { s.module with torhar := setFirst t data s.module.torhar } }

/-- The next 8 bytes of an MREAD or MWRITE perform at their home, in ascending address; after the last it answers. Tags of what a write
touches are cleared (R125, R369). One whose range is bad answers BAD and changes nothing. [DESIGN CHOICE A60, safe] -/
def serveBytes (s : State) (t : Transaction) : State :=
  match t.op with
  | .mread pa n =>
    if !hostRange pa n then answer (setHost s t none) t.die 2 [] else
    let h := pa + t.data.length
    if s.recovers h 8 then s else
    let got := t.data ++ s.bytes h 8
    if n ≤ got.length then answer (setHost s t none) t.die 0 got else setHost s t (some got)
  | .mwrite pa bs =>
    if !hostRange pa bs.length then answer (setHost s t none) t.die 2 [] else
    let h := pa + (bs.length - t.data.length)
    if s.recovers h 8 then s else
    let s := s.write h (t.data.take 8)
    if t.data.length ≤ 8 then answer (setHost s t none) t.die 0 [] else setHost s t (some (t.data.drop 8))
  | _ => s

/-- Every other transaction is refused with BAD (R369). -/
def execTorharBadTransaction (_code : Nat) (s : State) : Host.Outcome State Fault Refusal := .next (answer s 0 2 [])

/-! ## Firmware services (R371) -/

/-- The code of a SERVICE request (R371). -/
def HostOp.code : HostOp → Nat
  | .qset _ _ _ _ _ => 1
  | .unfence _ => 2
  | .root _ _ _ => 3
  | .clean _ _ _ => 4
  | .stream _ => 5
  | .clock _ _ => 6
  | .ringrd _ _ => 7
  | .evclr _ _ => 8
  | .hwin _ _ _ => 9
  | .attest _ => 10
  | .unknown code => code
  | .submit _ | .mread _ _ | .mwrite _ _ => 0

/-- Bytes 0-3 of a SERVICE request: its code and its sequence tag (R371). -/
def HostOp.head (i : HostOp) (tag : BitVec 16) : List Byte := leBytes 2 i.code ++ leBytes 2 tag.toNat

/-- The bytes of a SERVICE response (R371): the tag where the request has it, the status in bytes 4-7, then what the service returns, filled up
to 64 bytes. [DESIGN CHOICE A79, unsafe] -/
def Response.bytes (r : Response) : List Byte :=
  let b := leBytes 2 0 ++ leBytes 2 (r.tag.getD 0).toNat ++ leBytes 4 r.status ++ r.data
  b ++ List.replicate (64 - b.length) 0

/-- A service of die d answers its request, whose tag it echoes (R371). -/
def reply (s : State) (d status : Nat) (data : List Byte) : State := answer s d status data (some s.module.tag)

/-- A service of die d, in its turn: status 3 from a die whose boot has stopped, else status 1 for a bad operand, else what it does
(R371, R373). [DEDUCED A38, unsafe] [DESIGN CHOICE A79, unsafe] -/
def service (s : State) (d : Nat) (i : HostOp) (ok : Bool) (f : State → State × Nat × List Byte) : Host.Outcome State Fault Refusal :=
  if d ≥ Config.dies then .fault .noSuchUnit else
  .next (inTurn s d i (fun s =>
    if !s.booted d then reply s d 3 [BitVec.ofNat 8 (s.die d).bootStep]
    else if !ok then reply s d 1 []
    else let r := f s; reply r.1 d r.2.1 r.2.2))

/-- A physical range that an operand of a service may name: in LPDDR6 or in the host windows, never the SRAM alias (R137). [DEDUCED A75, unsafe] -/
def physRange (pa n : Nat) : Bool :=
  decide (pa + n ≤ lpddrEnd) || decide (Config.hostBase ≤ pa ∧ pa + n ≤ Config.scratchpadHome)

/-- The gangs of a queue whose limit T1 was 0 begin to count their first stage, from their launch, once it is not (R302); where T1 is 0 their
watchdog is off, and STAGE and COUNT are 0 (R323). [DEDUCED A58, unsafe] -/
def startWatchdogs (s : State) (d queue : Nat) : State :=
  if (s.queue d queue).qlim.1 = 0 then
    (s.gangs.filter (fun g => g.die == d && g.queue == queue && g.stage != 0)).foldl (fun s g =>
      (setStage s g.id 0).modGang g.id (fun h => { h with stageStart := g.stageStart })) s
  else
  (s.gangs.filter (fun g => g.die == d && g.queue == queue && g.started && g.stage == 0)).foldl (fun s g =>
    let n := ((s.die d).cycle - g.stageStart) / 1024
    let s := s.modGang g.id (fun g => { g with stage := 1, count := n })
    g.all.foldl (fun s c => if (s.core c).gang == some g.id then
      s.modCore c (fun x => { x with sys := { x.sys with wdog := wdogWord x.sys.wdog 1 n } }) else s) s) s

/-- QSET: completion ring and limits of a queue; HALT clears (R291, R371). [DEDUCED A75, unsafe] -/
def execQset (d queue qcomp t1 t2 t3 : Nat) (s : State) : Host.Outcome State Fault Refusal :=
  service s d (.qset queue qcomp t1 t2 t3)
    (decide (queue < 16 ∧ t1 < 2 ^ 16 ∧ t2 < 2 ^ 16 ∧ t3 < 2 ^ 16) && qcomp % 4096 == 0 && physRange qcomp 4096)
    (fun s => (startWatchdogs (s.modQueue d queue (fun q => { q with qcomp := qcomp, qlim := (t1, t2, t3), halt := false })) d queue, 0, []))

/-- UNFENCE: the fence bit of a core of the die, and MSTAT.FENCED (R234, R371). -/
def execUnfence (d : Nat) (c : CoreId) (s : State) : Host.Outcome State Fault Refusal :=
  service s d (.unfence c) (c.wf && dieOf c == d) (fun s =>
    ((s.setFence c false).modCore c (fun x => { x with sys := { x.sys with mstat := setBits x.sys.mstat 40 4 0 } }), 0, []))

/-- ROOT: a context's root entry (R310, R371). -/
def execRoot (d ctx frame : Nat) (valid : Bool) (s : State) : Host.Outcome State Fault Refusal :=
  service s d (.root ctx frame valid) (decide (ctx < 64 ∧ frame < 2 ^ 40)) (fun s =>
    let x := s.die d
    (s.setDie d { x with roots := mapSet x.roots ctx (BitVec.ofNat 64 (frame * 4096 + valid.toNat)) }, 0, []))

/-- CLEAN: a clean backing copy of a range in external memory or in slices (R141, R371). [DEDUCED A75, unsafe] -/
def execClean (d base len backing : Nat) (s : State) : Host.Outcome State Fault Refusal :=
  service s d (.clean base len backing) (base % 4096 == 0 && len % 4096 == 0 && decide (0 < len) && physRange backing len &&
      (decide (base + len ≤ lpddrEnd) || decide (Config.sramHome ≤ base ∧ base + len ≤ Config.sramHome + Config.sramClusters)))
    (fun s => ({ s with module := { s.module with clean := s.module.clean ++ [⟨base, len, backing⟩] } }, 0, []))

/-- The links a stream crosses: its direction and the module at the lower end of each (R303). -/
def streamLinks (n : Nat) (e : StreamRequest) : List Nat :=
  let hops := if e.east then (e.receiverModule + n - e.senderModule) % n else (e.senderModule + n - e.receiverModule) % n
  (List.range hops).map (fun i => if e.east then (e.senderModule + i) % n else (e.senderModule + n - 1 - i) % n)

/-- May a stream be admitted (R303). [DEDUCED A31, unsafe] -/
def streamOk (s : State) (e : StreamRequest) : Bool :=
  let n := s.module.ringSize
  let links := streamLinks n e
  let load (l : Nat) : Nat := ((s.streams.filter (fun p => p.2.entry.east == e.east && (streamLinks n p.2.entry).contains l)).map
    (fun p => p.2.entry.share)).sum
  decide (e.number < 65536 ∧ e.context < 64 ∧ e.senderModule < n ∧ e.receiverModule < n ∧ e.senderModule ≠ e.receiverModule) &&
    decide (e.senderCore < Config.computeCores ∧ e.receiverCore < Config.computeCores ∧ 1 ≤ e.share ∧ e.share ≤ 1024) &&
    decide (4 ≤ e.credit ∧ e.credit ≤ 256) && (mapGet s.streams e.number).isNone &&
    links.all (fun l => decide (load l + e.share ≤ 1024)) &&
    decide (100 * links.length * e.share * 7680 + 65536 ≤ e.bound * e.share * 7680)

/-- Does a command of a core name a stream (R303). -/
def namesStream (x : Core) (n : Nat) : Bool :=
  (x.eng.queue 5).any (fun k => ringStream k == n) || x.eng.ringRuns.any (fun r => ringStream r.cmd == n) ||
    (x.eng.queue 0).any (fun k => drainStream k == some n) || (match x.eng.array with | some r => drainStream r.cmd == some n | none => false) ||
    (match x.cascade.bind (fun b => b.cmd) with | some k => drainStream k == some n | none => false)

/-- Is a stream in use at an end on this module, or has it beats on their way. [DEDUCED A31, unsafe] -/
def streamBusy (s : State) (t : Stream) : Bool :=
  let e := t.entry
  (e.senderModule == s.module.number && namesStream (s.core (.comp e.senderCore)) e.number) ||
    (e.receiverModule == s.module.number && namesStream (s.core (.comp e.receiverCore)) e.number) ||
    !t.pending.isEmpty || !t.flying.isEmpty

/-- STREAM: open a stream by admission, or close one that no command names (R303, R371). [DEDUCED A31, unsafe] -/
def execStream (d : Nat) (entry : StreamRequest) (s : State) : Host.Outcome State Fault Refusal :=
  if entry.isOpen then
    service s d (.stream entry) (streamOk s entry) (fun s =>
      let t : Stream := { entry := entry, pending := [], flying := [], buffer := [], taken := 0, credit := entry.credit, owed := 0 }
      ({ s with streams := mapSet s.streams entry.number t }, 0, []))
  else
    service s d (.stream entry) (mapGet s.streams entry.number).isSome (fun s =>
      match mapGet s.streams entry.number with
      | some t => if streamBusy s t then (s, 2, []) else ({ s with streams := mapErase s.streams entry.number }, 0, [])
      | none => (s, 1, []))

/-- RINGRD: the command-ring entry of a sequence number, 40 bytes (R315, R371). [DESIGN CHOICE A79, unsafe] -/
def execRingrd (d : Nat) (c : CoreId) (sq : BitVec 32) (s : State) : Host.Outcome State Fault Refusal :=
  service s d (.ringrd c sq) (c.wf && dieOf c == d) (fun s =>
    let e := (mapGet (s.core c).eng.ring (sq.toNat % 64)).getD ⟨0, 0, 7, 0⟩
    (s, 0, leBytes 40 (e.cmd.toNat * 2 ^ 64 + e.origin * 2 ^ 35 + e.status * 2 ^ 32 + e.seq.toNat)))

/-- EVCLR: event bits of a cluster of the die cleared by mask (R326, R371). -/
def execEvclrService (d cluster : Nat) (mask : BitVec 256) (s : State) : Host.Outcome State Fault Refusal :=
  service s d (.evclr cluster mask) (decide (cluster < 8)) (fun s => (s.land (8 * d + cluster) (some (s.die d).cycle) false mask, 0, []))

/-- HWIN: base and length of a host window (R370, R371). -/
def execHwin (d win hbase hlen : Nat) (s : State) : Host.Outcome State Fault Refusal :=
  service s d (.hwin win hbase hlen) (decide (win < 16 ∧ hbase < 2 ^ 64 ∧ hlen ≤ 2 ^ 47)) (fun s =>
    ({ s with module := { s.module with windows := s.module.windows.setIfInBounds win (hbase, hlen) } }, 0, []))

/-- The firmware image that a die finds, and its fuses (R373). [DESIGN CHOICE A13, unsafe] -/
def Module.firmwareOf (m : Module) (d : Nat) : Firmware := (mapGet m.firmwares d).getD m.firmware

/-- ATTEST: nonce, measurement registers, the fused version and serial number, and the two signatures (R374). [DESIGN CHOICE A13, unsafe]
[DEDUCED A57, unsafe] [DESIGN CHOICE A79, unsafe] -/
def execAttest (d : Nat) (nonce : BitVec 256) (s : State) : Host.Outcome State Fault Refusal :=
  service s d (.attest nonce) true (fun s =>
    let m := s.module
    let body := leBytes 32 nonce.toNat ++ leBytes 48 (s.die d).measure0.toNat ++ leBytes 48 (s.die d).measure1.toNat ++
      leBytes 8 (m.firmwareOf d).rollback ++ leBytes 8 (m.firmwareOf d).serial
    (s, 0, body ++ Config.reportSignatures body))

/-- Any other code: status 1, and nothing changes (R371). -/
def execServiceUnknown (d code : Nat) (s : State) : Host.Outcome State Fault Refusal :=
  service s d (.unknown code) false (fun s => (s, 0, []))

/-! ## Clock points and power (R21, R375, R376) -/

/-- CLOCK: the named dies are to change, each after what it still has to change to; the answer waits for the last, and point 3 is denied
while the inlet is hot (R375, R376). [DEDUCED A41, unsafe] -/
def execClock (d : Nat) (mask : BitVec 16) (point : Nat) (s : State) : Host.Outcome State Fault Refusal :=
  if d ≥ Config.dies then .fault .noSuchUnit else
  let ds := (List.range 16).filter (fun i => bitAt mask i)
  if s.hostBusy d || !s.booted d || point > 3 || (point == 3 && s.module.inletHot) || ds.isEmpty then
    service s d (.clock mask point) (decide (point ≤ 3)) (fun s => (s, if ds.isEmpty then 0 else 3, []))
  else
    let s := ds.foldl (fun s i => s.setDie i { s.die i with change := (s.die i).change ++ [some point] }) s
    .next { s with module := { s.module with clockReplies := s.module.clockReplies ++ [(d, s.module.tag, ds)] } }

/-- The first CLOCK request that waits for die d does so no more. -/
def dieChanged (d : Nat) : List (Nat × BitVec 16 × List Nat) → List (Nat × BitVec 16 × List Nat)
  | [] => []
  | r :: l => if r.2.2.contains d then (r.1, r.2.1, r.2.2.filter (fun i => i != d)) :: l else r :: dieChanged d l

/-- CLOCK_CHANGE (R21, R375, R376): die d changes to the first point it has to, or moves one point lower, from the cycle on that follows the
end of its last open window; a request whose last die this was answers. [DEDUCED A41, unsafe] -/
def execClockChange (d : Nat) (s : State) : Host.Outcome State Fault Refusal :=
  if d ≥ Config.dies then .fault .noSuchUnit else
  let x := s.die d
  match x.change with
  | [] => .next s
  | p :: rest =>
    if s.dieInWindow d || x.closed == some x.cycle then .next s else
    let s := s.setDie d { x with point := p.getD (x.point - 1), change := rest }
    if p.isNone then .next s else
    let left := dieChanged d s.module.clockReplies
    let s := { s with module := { s.module with clockReplies := left.filter (fun r => !r.2.2.isEmpty) } }
    .next ((left.filter (fun r => r.2.2.isEmpty)).foldl (fun s r => answer s r.1 0 [] (some r.2.1)) s)

/-- The thermal limit (R376): every gang is killed with status 1 and TRAPCAUSE 0, and the module holds in reset. -/
def thermalStop (s : State) : State :=
  let s := s.gangs.foldl (fun s g => killGang s g.id 1 none false) s
  { s with
    released := []
    cores := s.cores.map (fun p => (p.1, { p.2 with run := .held }))
    module := { s.module with thermalHold := true } }

/-- POWER_CHECK (R376): watts and junction temperatures averaged over 10 ms, and the inlet's. [DEDUCED A41, unsafe] [DEDUCED A57, unsafe]
[DESIGN CHOICE A60, safe] -/
def execPowerCheck (watts : Nat) (temps : List Nat) (inlet : Nat) (s : State) : Host.Outcome State Fault Refusal :=
  let s := { s with module := { s.module with inletHot := decide (35 < inlet) } }
  if temps.any (fun t => decide (105 ≤ t)) then .next (thermalStop s) else
  .next ((List.range 16).foldl (fun s d =>
    let x := s.die d
    if (decide (5600 < watts) || decide (95 ≤ temps.getD d 0)) && !x.change.contains none && (!x.change.isEmpty || decide (0 < x.point)) then
      s.setDie d { x with change := x.change ++ [none] }
    else s) s)

/-! ## Transactions in their turn (R369) -/

/-- What a transaction of die d does, once its turn has come. -/
def hostOp (s : State) (d : Nat) : HostOp → Host.Outcome State Fault Refusal
  | .submit record => execSubmit d record s
  | .mread pa n => execMread pa n s
  | .mwrite pa data => execMwrite pa data s
  | .qset queue qcomp t1 t2 t3 => execQset d queue qcomp t1 t2 t3 s
  | .unfence c => execUnfence d c s
  | .root ctx frame valid => execRoot d ctx frame valid s
  | .clean base len backing => execClean d base len backing s
  | .stream entry => execStream d entry s
  | .clock mask point => execClock d mask point s
  | .ringrd c sq => execRingrd d c sq s
  | .evclr cluster mask => execEvclrService d cluster mask s
  | .hwin win hbase hlen => execHwin d win hbase hlen s
  | .attest nonce => execAttest d nonce s
  | .unknown code => execServiceUnknown d code s

/-- The first transaction of die d that has not completed. -/
def State.firstHost (s : State) (d : Nat) : Option Transaction := s.module.torhar.find? (fun t => t.dies.contains d)

/-- The Torhar link of die d moves on (R369): the next 8 bytes of an MREAD or MWRITE at the head of the transactions of its dies perform;
another transaction at the head takes effect, once no earlier CLOCK or SUBMIT of the die waits for its answer. -/
def serveHost (s : State) (d : Nat) : Host.Outcome State Fault Refusal :=
  match s.firstHost d with
  | none => .next s
  | some t =>
    if t.dies.any (fun e => s.hostOwes e || s.firstHost e != some t) then .next s else
    match t.op with
    | .mread _ _ | .mwrite _ _ => .next (serveBytes s t)
    | i =>
      match hostOp { s with module := { s.module with torhar := [], tag := t.tag } } d i with
      | .next u => .next { u with module := { u.module with torhar := setFirst t none s.module.torhar, tag := s.module.tag } }
      | o => o

/-! ## Boot (R124, R373) -/

/-- How far a die's boot comes: 8 when every step succeeds, else the step that failed (R373). -/
def bootReach (f : Firmware) : Nat :=
  if !f.readable then 2 else if !(f.ed25519 && f.mldsa) then 3 else if f.version < f.rollback then 4 else if !f.systemOk then 6 else 8

/-- The home of a private-window address of a core. -/
def privateHome (c : CoreId) (a : Nat) : Nat :=
  match c with
  | .comp k => sliceHome k (a - Config.privateBase)
  | .mem m => scratchpadHome m (a - Config.privateBase)

/-- Every core of the module. -/
def allCores : List CoreId := (List.range Config.computeCores).map CoreId.comp ++ (List.range Config.memoryCores).map CoreId.mem

/-- A die after its management core has come as far as it does (R373, R374): the step that failed, and the measurements made before it. -/
def bootedDie (f : Firmware) : Die :=
  let reach := bootReach f
  { Die.reset with
    bootStep := reach
    measure0 := if reach ≤ 4 then 0 else Config.extendMeasurement 0 f.digest
    measure1 := if reach = 8 then Config.extendMeasurement 0 f.systemDigest else 0 }

/-- MODULE_RESET (R373): SRAM and tags are zero, the cores held; on each die the firmware is read, checked and measured, its LPDDR6 is
zeroed, the resident code stands at TRAPVEC of each of its cores, and its cores are free. A step that fails stops that die's boot there.
Host memory, the fuses and the ring's time base are not the module's to reset. [DESIGN CHOICE A4, unsafe] [DESIGN CHOICE A13, unsafe] -/
def execModuleReset (s : State) : Host.Outcome State Fault Refusal :=
  let m := s.module
  let f (d : Nat) : Firmware := m.firmwareOf d
  let stays (a : Nat) : Bool := decide (Config.hostHome ≤ a) || decide (a < lpddrEnd ∧ bootReach (f (a / Config.lpddrPerDie)) ≤ 4)
  let up := (List.range Config.dies).filter (fun d => bootReach (f d) == 8)
  let s : State := { State.reset with
    cur := s.cur, agenda := s.agenda, nextId := s.nextId
    mem := s.mem.filter (fun p => stays p.1)
    dies := (List.range Config.dies).map (fun d => (d, bootedDie (f d)))
    released := up.map (fun d => (d, (f d).trapvec))
    module := { Module.reset with
      number := m.number, ringSize := m.ringSize, tick := m.tick, firmware := m.firmware, firmwares := m.firmwares, tag := m.tag } }
  .next ((up.filter (fun d => !(f d).systemCode.isEmpty)).foldl (fun s d =>
    (allCores.filter (fun c => dieOf c == d)).foldl (fun s c => s.write (privateHome c (f d).trapvec.toNat) (f d).systemCode) s) s)

end Sys2Proof.Machine
end

