-- ==== Sys2Proof/Machine/Dispatch.lean ====
section
/-! DEFINITION. The dispatch: one arm for each constructor of `Instr`, each a direct call of its meaning. -/

namespace Sys2Proof.Machine
open Sys2Proof

/-- What one instruction or event does (the meaning it names). -/
def exec (i : Instr) (s : State) : Host.Outcome State Fault Refusal :=
  match i with
  | .add S d a b => Sys2Proof.Machine.execAdd S d a b s
  | .sub S d a b => Sys2Proof.Machine.execSub S d a b s
  | .and S d a b => Sys2Proof.Machine.execAnd S d a b s
  | .or S d a b => Sys2Proof.Machine.execOr S d a b s
  | .xor S d a b => Sys2Proof.Machine.execXor S d a b s
  | .andn S d a b => Sys2Proof.Machine.execAndn S d a b s
  | .orn S d a b => Sys2Proof.Machine.execOrn S d a b s
  | .shl S d a b => Sys2Proof.Machine.execShl S d a b s
  | .shr S d a b => Sys2Proof.Machine.execShr S d a b s
  | .sra S d a b => Sys2Proof.Machine.execSra S d a b s
  | .rol S d a b => Sys2Proof.Machine.execRol S d a b s
  | .ror S d a b => Sys2Proof.Machine.execRor S d a b s
  | .slt S d a b => Sys2Proof.Machine.execSlt S d a b s
  | .sltu S d a b => Sys2Proof.Machine.execSltu S d a b s
  | .seq S d a b => Sys2Proof.Machine.execSeq S d a b s
  | .sne S d a b => Sys2Proof.Machine.execSne S d a b s
  | .min S d a b => Sys2Proof.Machine.execMin S d a b s
  | .max S d a b => Sys2Proof.Machine.execMax S d a b s
  | .minu S d a b => Sys2Proof.Machine.execMinu S d a b s
  | .maxu S d a b => Sys2Proof.Machine.execMaxu S d a b s
  | .clz S d a => Sys2Proof.Machine.execClz S d a s
  | .ctz S d a => Sys2Proof.Machine.execCtz S d a s
  | .popc S d a => Sys2Proof.Machine.execPopc S d a s
  | .bswap S d a => Sys2Proof.Machine.execBswap S d a s
  | .sextB S d a => Sys2Proof.Machine.execSextB S d a s
  | .sextH S d a => Sys2Proof.Machine.execSextH S d a s
  | .sextW S d a => Sys2Proof.Machine.execSextW S d a s
  | .zextB S d a => Sys2Proof.Machine.execZextB S d a s
  | .zextH S d a => Sys2Proof.Machine.execZextH S d a s
  | .zextW S d a => Sys2Proof.Machine.execZextW S d a s
  | .mul S d a b => Sys2Proof.Machine.execMul S d a b s
  | .mulh S d a b => Sys2Proof.Machine.execMulh S d a b s
  | .mulhu S d a b => Sys2Proof.Machine.execMulhu S d a b s
  | .div S d a b => Sys2Proof.Machine.execDiv S d a b s
  | .divu S d a b => Sys2Proof.Machine.execDivu S d a b s
  | .rem S d a b => Sys2Proof.Machine.execRem S d a b s
  | .remu S d a b => Sys2Proof.Machine.execRemu S d a b s
  | .csel S d a b c n => Sys2Proof.Machine.execCsel S d a b c n s
  | .bfx S d a l w => Sys2Proof.Machine.execBfx S d a l w s
  | .bfxz S d a l w => Sys2Proof.Machine.execBfxz S d a l w s
  | .bins S d a l w => Sys2Proof.Machine.execBins S d a l w s
  | .addi S d a imm => Sys2Proof.Machine.execAddi S d a imm s
  | .andi S d a imm => Sys2Proof.Machine.execAndi S d a imm s
  | .ori S d a imm => Sys2Proof.Machine.execOri S d a imm s
  | .xori S d a imm => Sys2Proof.Machine.execXori S d a imm s
  | .slti S d a imm => Sys2Proof.Machine.execSlti S d a imm s
  | .sltiu S d a imm => Sys2Proof.Machine.execSltiu S d a imm s
  | .shli S d a imm => Sys2Proof.Machine.execShli S d a imm s
  | .shri S d a imm => Sys2Proof.Machine.execShri S d a imm s
  | .srai S d a imm => Sys2Proof.Machine.execSrai S d a imm s
  | .lui S d imm => Sys2Proof.Machine.execLui S d imm s
  | .addpc S d imm => Sys2Proof.Machine.execAddpc S d imm s
  | .br S a b c o => Sys2Proof.Machine.execBr S a b c o s
  | .j S o => Sys2Proof.Machine.execJ S o s
  | .jal S o => Sys2Proof.Machine.execJal S o s
  | .jr S d a => Sys2Proof.Machine.execJr S d a s
  | .skip S a b c n => Sys2Proof.Machine.execSkip S a b c n s
  | .loop S a n step => Sys2Proof.Machine.execLoop S a n step s
  | .endGroup S => Sys2Proof.Machine.execEndGroup S s
  | .trap S imm => Sys2Proof.Machine.execTrap S imm s
  | .creadCur S d a => Sys2Proof.Machine.execCreadCur S d a s
  | .creadBase S d a => Sys2Proof.Machine.execCreadBase S d a s
  | .creadLen S d a => Sys2Proof.Machine.execCreadLen S d a s
  | .creadPerm S d a => Sys2Proof.Machine.execCreadPerm S d a s
  | .creadSpace S d a => Sys2Proof.Machine.execCreadSpace S d a s
  | .creadOwner S d a => Sys2Proof.Machine.execCreadOwner S d a s
  | .creadTag S d a => Sys2Proof.Machine.execCreadTag S d a s
  | .ccopy S d a => Sys2Proof.Machine.execCcopy S d a s
  | .cstrip S d a => Sys2Proof.Machine.execCstrip S d a s
  | .cshift S d a b => Sys2Proof.Machine.execCshift S d a b s
  | .cshifti S d a imm => Sys2Proof.Machine.execCshifti S d a imm s
  | .cnarrow S d a b => Sys2Proof.Machine.execCnarrow S d a b s
  | .cmask S d a m => Sys2Proof.Machine.execCmask S d a m s
  | .cspace S d a => Sys2Proof.Machine.execCspace S d a s
  | .ccast S d a t => Sys2Proof.Machine.execCcast S d a t s
  | .cderive S d a b => Sys2Proof.Machine.execCderive S d a b s
  | .ldSb S d b o => Sys2Proof.Machine.execLdSb S d b o s
  | .ldZb S d b o => Sys2Proof.Machine.execLdZb S d b o s
  | .ldSh S d b o => Sys2Proof.Machine.execLdSh S d b o s
  | .ldZh S d b o => Sys2Proof.Machine.execLdZh S d b o s
  | .ldSw S d b o => Sys2Proof.Machine.execLdSw S d b o s
  | .ldZw S d b o => Sys2Proof.Machine.execLdZw S d b o s
  | .ldD S d b o => Sys2Proof.Machine.execLdD S d b o s
  | .ldC S d b o => Sys2Proof.Machine.execLdC S d b o s
  | .stB S d b o => Sys2Proof.Machine.execStB S d b o s
  | .stH S d b o => Sys2Proof.Machine.execStH S d b o s
  | .stW S d b o => Sys2Proof.Machine.execStW S d b o s
  | .stD S d b o => Sys2Proof.Machine.execStD S d b o s
  | .stC S d b o => Sys2Proof.Machine.execStC S d b o s
  | .amoAdd S d a b z => Sys2Proof.Machine.execAmoAdd S d a b z s
  | .amoAnd S d a b z => Sys2Proof.Machine.execAmoAnd S d a b z s
  | .amoOr S d a b z => Sys2Proof.Machine.execAmoOr S d a b z s
  | .amoXor S d a b z => Sys2Proof.Machine.execAmoXor S d a b z s
  | .amoSwap S d a b z => Sys2Proof.Machine.execAmoSwap S d a b z s
  | .amoSmax S d a b z => Sys2Proof.Machine.execAmoSmax S d a b z s
  | .amoSmin S d a b z => Sys2Proof.Machine.execAmoSmin S d a b z s
  | .amoCas S d a b z => Sys2Proof.Machine.execAmoCas S d a b z s
  | .ldAcq S d a z p => Sys2Proof.Machine.execLdAcq S d a z p s
  | .stRel S a b z p => Sys2Proof.Machine.execStRel S a b z p s
  | .fenceSl S => Sys2Proof.Machine.execFenceSl S s
  | .fenceAcq S p => Sys2Proof.Machine.execFenceAcq S p s
  | .fenceRel S p => Sys2Proof.Machine.execFenceRel S p s
  | .fenceFull S p => Sys2Proof.Machine.execFenceFull S p s
  | .sbind S d a b n r z => Sys2Proof.Machine.execSbind S d a b n r z s
  | .sunbind S d n => Sys2Proof.Machine.execSunbind S d n s
  | .vintAdd S d a b m t => Sys2Proof.Machine.execVintAdd S d a b m t s
  | .vintSub S d a b m t => Sys2Proof.Machine.execVintSub S d a b m t s
  | .vintAdds S d a b m t => Sys2Proof.Machine.execVintAdds S d a b m t s
  | .vintSubs S d a b m t => Sys2Proof.Machine.execVintSubs S d a b m t s
  | .vintMul S d a b m t => Sys2Proof.Machine.execVintMul S d a b m t s
  | .vintMulh S d a b m t => Sys2Proof.Machine.execVintMulh S d a b m t s
  | .vintMin S d a b m t => Sys2Proof.Machine.execVintMin S d a b m t s
  | .vintMax S d a b m t => Sys2Proof.Machine.execVintMax S d a b m t s
  | .vintMinu S d a b m t => Sys2Proof.Machine.execVintMinu S d a b m t s
  | .vintMaxu S d a b m t => Sys2Proof.Machine.execVintMaxu S d a b m t s
  | .vintAnd S d a b m t => Sys2Proof.Machine.execVintAnd S d a b m t s
  | .vintOr S d a b m t => Sys2Proof.Machine.execVintOr S d a b m t s
  | .vintXor S d a b m t => Sys2Proof.Machine.execVintXor S d a b m t s
  | .vintShl S d a b m t => Sys2Proof.Machine.execVintShl S d a b m t s
  | .vintShr S d a b m t => Sys2Proof.Machine.execVintShr S d a b m t s
  | .vintSra S d a b m t => Sys2Proof.Machine.execVintSra S d a b m t s
  | .vintAbs S d a m t => Sys2Proof.Machine.execVintAbs S d a m t s
  | .vintNeg S d a m t => Sys2Proof.Machine.execVintNeg S d a m t s
  | .vfpAdd S d a b m => Sys2Proof.Machine.execVfpAdd S d a b m s
  | .vfpSub S d a b m => Sys2Proof.Machine.execVfpSub S d a b m s
  | .vfpMul S d a b m => Sys2Proof.Machine.execVfpMul S d a b m s
  | .vfpFma S d a b m => Sys2Proof.Machine.execVfpFma S d a b m s
  | .vfpMin S d a b m => Sys2Proof.Machine.execVfpMin S d a b m s
  | .vfpMax S d a b m => Sys2Proof.Machine.execVfpMax S d a b m s
  | .vfpAbs S d a m => Sys2Proof.Machine.execVfpAbs S d a m s
  | .vfpNeg S d a m => Sys2Proof.Machine.execVfpNeg S d a m s
  | .vfpExp2 S d a m => Sys2Proof.Machine.execVfpExp2 S d a m s
  | .vfpLog2 S d a m => Sys2Proof.Machine.execVfpLog2 S d a m s
  | .vfpRecip S d a m => Sys2Proof.Machine.execVfpRecip S d a m s
  | .vfpRsqrt S d a m => Sys2Proof.Machine.execVfpRsqrt S d a m s
  | .vcmp S a b d t c => Sys2Proof.Machine.execVcmp S a b d t c s
  | .vsel S d a b m => Sys2Proof.Machine.execVsel S d a b m s
  | .vperm S d a b m => Sys2Proof.Machine.execVperm S d a b m s
  | .vbcast S d g => Sys2Proof.Machine.execVbcast S d g s
  | .vslide S d a g u => Sys2Proof.Machine.execVslide S d a g u s
  | .vredSumI32 S d a m => Sys2Proof.Machine.execVredSumI32 S d a m s
  | .vredMinI32 S d a m => Sys2Proof.Machine.execVredMinI32 S d a m s
  | .vredMaxI32 S d a m => Sys2Proof.Machine.execVredMaxI32 S d a m s
  | .vredSumF32 S d a m => Sys2Proof.Machine.execVredSumF32 S d a m s
  | .vredMinF32 S d a m => Sys2Proof.Machine.execVredMinF32 S d a m s
  | .vredMaxF32 S d a m => Sys2Proof.Machine.execVredMaxF32 S d a m s
  | .vtopk S d a k u t => Sys2Proof.Machine.execVtopk S d a k u t s
  | .vcvtTobf S d a m => Sys2Proof.Machine.execVcvtTobf S d a m s
  | .vcvtFrombf S d a m => Sys2Proof.Machine.execVcvtFrombf S d a m s
  | .vcvtItof S d a m => Sys2Proof.Machine.execVcvtItof S d a m s
  | .vcvtFtoi S d a m => Sys2Proof.Machine.execVcvtFtoi S d a m s
  | .vcvtSat8 S d a m => Sys2Proof.Machine.execVcvtSat8 S d a m s
  | .vcvtSat16 S d a m => Sys2Proof.Machine.execVcvtSat16 S d a m s
  | .vcvtMxq S d a b => Sys2Proof.Machine.execVcvtMxq S d a b s
  | .vcvtMxd S d a b => Sys2Proof.Machine.execVcvtMxd S d a b s
  | .vcvtTdec S d a m => Sys2Proof.Machine.execVcvtTdec S d a m s
  | .vcvtTenc S d a m => Sys2Proof.Machine.execVcvtTenc S d a m s
  | .vld S d b m z => Sys2Proof.Machine.execVld S d b m z s
  | .vst S d b m z => Sys2Proof.Machine.execVst S d b m z s
  | .vsetvl S d a => Sys2Proof.Machine.execVsetvl S d a s
  | .vmovgToG S d v b => Sys2Proof.Machine.execVmovgToG S d v b s
  | .vmovgToV S v a b => Sys2Proof.Machine.execVmovgToV S v a b s
  | .vectorBind q l => Sys2Proof.Machine.execVectorBind q l s
  | .kclr S k => Sys2Proof.Machine.execKclr S k s
  | .kset S k a f imm => Sys2Proof.Machine.execKset S k a f imm s
  | .kcap S k a w imm => Sys2Proof.Machine.execKcap S k a w imm s
  | .push S k a => Sys2Proof.Machine.execPush S k a s
  | .gissueWide S k => Sys2Proof.Machine.execGissueWide S k s
  | .gissueDeep S k => Sys2Proof.Machine.execGissueDeep S k s
  | .jointOperation q => Sys2Proof.Machine.execJointOperation q s
  | .cascade S a => Sys2Proof.Machine.execCascade S a s
  | .qsave S => Sys2Proof.Machine.execQsave S s
  | .qload S => Sys2Proof.Machine.execQload S s
  | .evset S e => Sys2Proof.Machine.execEvset S e s
  | .evclr S e => Sys2Proof.Machine.execEvclr S e s
  | .evpost S a e => Sys2Proof.Machine.execEvpost S a e s
  | .eventBitUpdate q => Sys2Proof.Machine.execEventBitUpdate q s
  | .evwait S e => Sys2Proof.Machine.execEvwait S e s
  | .wsync S p => Sys2Proof.Machine.execWsync S p s
  | .weirRelease gang w => Sys2Proof.Machine.execWeirRelease gang w s
  | .tbegin S => Sys2Proof.Machine.execTbegin S s
  | .tend S => Sys2Proof.Machine.execTend S s
  | .tsend S a c n => Sys2Proof.Machine.execTsend S a c n s
  | .trecv S d c n => Sys2Proof.Machine.execTrecv S d c n s
  | .timedFlitArrival c n => Sys2Proof.Machine.execTimedFlitArrival c n s
  | .send S a b c => Sys2Proof.Machine.execSend S a b c s
  | .recv S d c => Sys2Proof.Machine.execRecv S d c s
  | .bwait S a b => Sys2Proof.Machine.execBwait S a b s
  | .balloc S d => Sys2Proof.Machine.execBalloc S d s
  | .bankZeroingEnd c h => Sys2Proof.Machine.execBankZeroingEnd c h s
  | .bfree S a => Sys2Proof.Machine.execBfree S a s
  | .launch S d a => Sys2Proof.Machine.execLaunch S d a s
  | .taskDeposit d ids => Sys2Proof.Machine.execTaskDeposit d ids s
  | .dtload S a => Sys2Proof.Machine.execDtload S a s
  | .sysrd S d n => Sys2Proof.Machine.execSysrd S d n s
  | .syswr S a n => Sys2Proof.Machine.execSyswr S a n s
  | .syswrStatus S a => Sys2Proof.Machine.execSyswrStatus S a s
  | .syswrPriv S a => Sys2Proof.Machine.execSyswrPriv S a s
  | .syswrPrivsz S a => Sys2Proof.Machine.execSyswrPrivsz S a s
  | .syswrXbase S a => Sys2Proof.Machine.execSyswrXbase S a s
  | .syswrXlimit S a => Sys2Proof.Machine.execSyswrXlimit S a s
  | .eret S => Sys2Proof.Machine.execEret S s
  | .tlbinvCtx S a p => Sys2Proof.Machine.execTlbinvCtx S a p s
  | .tlbinvPage S a p => Sys2Proof.Machine.execTlbinvPage S a p s
  | .tlbinvAll S p => Sys2Proof.Machine.execTlbinvAll S p s
  | .wfi S => Sys2Proof.Machine.execWfi S s
  | .wfiWake c w => Sys2Proof.Machine.execWfiWake c w s
  | .brk S imm => Sys2Proof.Machine.execBrk S imm s
  | .dld S d b o => Sys2Proof.Machine.execDld S d b o s
  | .dst S d b o => Sys2Proof.Machine.execDst S d b o s
  | .dfence S => Sys2Proof.Machine.execDfence S s
  | .replayWalkDone m => Sys2Proof.Machine.execReplayWalkDone m s
  | .storePerform c n => Sys2Proof.Machine.execStorePerform c n s
  | .loadReturn c n => Sys2Proof.Machine.execLoadReturn c n s
  | .translationWalk t va need => Sys2Proof.Machine.execTranslationWalk t va need s
  | .mmT c => Sys2Proof.Machine.execMmT c s
  | .mmS c => Sys2Proof.Machine.execMmS c s
  | .drain c => Sys2Proof.Machine.execDrain c s
  | .stest c bad => Sys2Proof.Machine.execStest c bad s
  | .selfTestInjection c bad => Sys2Proof.Machine.execSelfTestInjection c bad s
  | .srch c => Sys2Proof.Machine.execSrch c s
  | .resid c => Sys2Proof.Machine.execResid c s
  | .copy c => Sys2Proof.Machine.execCopy c s
  | .fill c => Sys2Proof.Machine.execFill c s
  | .xformPackTrits c => Sys2Proof.Machine.execXformPackTrits c s
  | .xformUnpack c => Sys2Proof.Machine.execXformUnpack c s
  | .xformSwizzle c => Sys2Proof.Machine.execXformSwizzle c s
  | .xformTranspose c => Sys2Proof.Machine.execXformTranspose c s
  | .xformSparseEncode c => Sys2Proof.Machine.execXformSparseEncode c s
  | .xformSparseDecode c => Sys2Proof.Machine.execXformSparseDecode c s
  | .xformMxint8Quantise c => Sys2Proof.Machine.execXformMxint8Quantise c s
  | .xformBf16Widen c => Sys2Proof.Machine.execXformBf16Widen c s
  | .tern c => Sys2Proof.Machine.execTern c s
  | .copyChunk c => Sys2Proof.Machine.execCopyChunk c s
  | .gather c => Sys2Proof.Machine.execGather c s
  | .scatter c => Sys2Proof.Machine.execScatter c s
  | .scadd c => Sys2Proof.Machine.execScadd c s
  | .pages c => Sys2Proof.Machine.execPages c s
  | .dipperBatch q => Sys2Proof.Machine.execDipperBatch q s
  | .merge c => Sys2Proof.Machine.execMerge c s
  | .rsend c => Sys2Proof.Machine.execRsend c s
  | .rrecv c => Sys2Proof.Machine.execRrecv c s
  | .rillBeatArrival sn beat => Sys2Proof.Machine.execRillBeatArrival sn beat s
  | .rillCreditReturn sn => Sys2Proof.Machine.execRillCreditReturn sn s
  | .engineCompletion c e sq => Sys2Proof.Machine.execEngineCompletion c e sq s
  | .timingFault c e => Sys2Proof.Machine.execTimingFault c e s
  | .gcycLimit c => Sys2Proof.Machine.execGcycLimit c s
  | .cascadeBlockLoad c => Sys2Proof.Machine.execCascadeBlockLoad c s
  | .blockMmT c => Sys2Proof.Machine.execBlockMmT c s
  | .blockMmS c => Sys2Proof.Machine.execBlockMmS c s
  | .blockDrain c => Sys2Proof.Machine.execBlockDrain c s
  | .blockBranch c => Sys2Proof.Machine.execBlockBranch c s
  | .blockYield c => Sys2Proof.Machine.execBlockYield c s
  | .blockEnd c => Sys2Proof.Machine.execBlockEnd c s
  | .blockPad c => Sys2Proof.Machine.execBlockPad c s
  | .blockEvset c => Sys2Proof.Machine.execBlockEvset c s
  | .impreciseFault c => Sys2Proof.Machine.execImpreciseFault c s
  | .trapEntry c => Sys2Proof.Machine.execTrapEntry c s
  | .singleStep c => Sys2Proof.Machine.execSingleStep c s
  | .preemptionRequest c src => Sys2Proof.Machine.execPreemptionRequest c src s
  | .groupFreeze gang => Sys2Proof.Machine.execGroupFreeze gang s
  | .groupRelease gang => Sys2Proof.Machine.execGroupRelease gang s
  | .fatalKill gang => Sys2Proof.Machine.execFatalKill gang s
  | .pairdiv c addr => Sys2Proof.Machine.execPairdiv c addr s
  | .coreRetire c => Sys2Proof.Machine.execCoreRetire c s
  | .gangLaunch d => Sys2Proof.Machine.execGangLaunch d s
  | .starvationGuard d queue => Sys2Proof.Machine.execStarvationGuard d queue s
  | .gangRetire gang => Sys2Proof.Machine.execGangRetire gang s
  | .watchdogT1 gang => Sys2Proof.Machine.execWatchdogT1 gang s
  | .watchdogT2 gang => Sys2Proof.Machine.execWatchdogT2 gang s
  | .watchdogT3 gang => Sys2Proof.Machine.execWatchdogT3 gang s
  | .gangResume gang => Sys2Proof.Machine.execGangResume gang s
  | .ringReserve d queue => Sys2Proof.Machine.execRingReserve d queue s
  | .ringCommit gang => Sys2Proof.Machine.execRingCommit gang s
  | .ringStart gang => Sys2Proof.Machine.execRingStart gang s
  | .failureRecord gang => Sys2Proof.Machine.execFailureRecord gang s
  | .gangabort gang => Sys2Proof.Machine.execGangabort gang s
  | .uncorrectableError home c => Sys2Proof.Machine.execUncorrectableError home c s
  | .eccRecovery home => Sys2Proof.Machine.execEccRecovery home s
  | .submit d record => Sys2Proof.Machine.execSubmit d record s
  | .mread pa n => Sys2Proof.Machine.execMread pa n s
  | .mwrite pa data => Sys2Proof.Machine.execMwrite pa data s
  | .torharBadTransaction code => Sys2Proof.Machine.execTorharBadTransaction code s
  | .qset d queue qcomp t1 t2 t3 => Sys2Proof.Machine.execQset d queue qcomp t1 t2 t3 s
  | .unfence d c => Sys2Proof.Machine.execUnfence d c s
  | .root d ctx frame valid => Sys2Proof.Machine.execRoot d ctx frame valid s
  | .clean d base len backing => Sys2Proof.Machine.execClean d base len backing s
  | .stream d entry => Sys2Proof.Machine.execStream d entry s
  | .clock d mask point => Sys2Proof.Machine.execClock d mask point s
  | .clockChange d => Sys2Proof.Machine.execClockChange d s
  | .ringrd d c sq => Sys2Proof.Machine.execRingrd d c sq s
  | .evclrService d cluster mask => Sys2Proof.Machine.execEvclrService d cluster mask s
  | .hwin d win hbase hlen => Sys2Proof.Machine.execHwin d win hbase hlen s
  | .attest d nonce => Sys2Proof.Machine.execAttest d nonce s
  | .serviceUnknown d code => Sys2Proof.Machine.execServiceUnknown d code s
  | .powerCheck watts temps inlet => Sys2Proof.Machine.execPowerCheck watts temps inlet s
  | .moduleReset => Sys2Proof.Machine.execModuleReset s
  | .systemKillRequest gang report => Sys2Proof.Machine.execSystemKillRequest gang report s

end Sys2Proof.Machine
end

