-- ==== Sys2Proof/Machine/Clock.lean ====
section
/-! DEFINITION. A core's next word: when it may issue and how it is fetched (R72-R79, R104, R107, R130), and one cycle of a
die's clock (R297, R302, R320, R323). -/

namespace Sys2Proof.Machine
open Sys2Proof

/-! ## Issue -/

/-- Does anything stand before the next word at program level: STEP, Cascade mode, a frozen window (R107, R119, R246). -/
def Core.programHeld (x : Core) : Bool := !x.system && (x.issue.stepDue || x.casc || x.sys.gcycHeld.isSome)

/-- Is the fetch of the core's next word held by the recovery of its block (R141). -/
def fetchRecovers (s : State) (c : CoreId) : Bool :=
  !s.module.recovering.isEmpty && (s.core c).issue.loopCopy.isNone &&
    (match s.resolve c (s.core c).system (s.core c).pc.toNat 4 .no false with
     | .ok p => s.recovers p.home 8
     | .error _ => false)

/-- May the core issue its next word on this cycle, a pre-emption request apart. -/
def mayIssue (s : State) (c : CoreId) : Bool :=
  let x := s.core c
  x.run == .running && decide (x.issue.readyAt ≤ s.now c) && x.issue.trapWait.isNone && x.issue.faults.isEmpty && !x.programHeld &&
    (match x.issue.wait with | .none | .walkFailed _ => true | _ => false) && (!x.issue.settle || x.settled) && !fetchRecovers s c

/-- The word at an address, or the cause of a fetch that the windows refuse (R130). -/
def fetchWord (s : State) (c : CoreId) (a : Int) : Except Nat (BitVec 32) :=
  match s.resolve c (s.core c).system a 4 .no false with
  | .ok p => .ok (BitVec.ofNat 32 (s.num p.home 4))
  | .error e => .error e

/-- What the core's next word is: the captured body's at the loop index, or the one at the pc with the step word of a `loop`
(R33, R75, R130); or the address and cause of a fetch that fails. [DEDUCED A63, unsafe] -/
def nextWords (s : State) (c : CoreId) : Except (Nat × Word) (BitVec 32 × BitVec 32) :=
  let x := s.core c
  match x.issue.loopCopy with
  | some body => .ok (body.getD x.loopIndex 0, 0)
  | none =>
    match fetchWord s c x.pc.toNat with
    | .error e => .error (e, x.pc)
    | .ok w =>
      if takesStepWord w then
        match fetchWord s c (x.pc.toNat + 4) with
        | .error e => .error (e, x.pc + 4)
        | .ok w2 => .ok (w, w2)
      else .ok (w, 0)

/-- The core's next word issues: what it does, ILLEGAL for a word that no row has, or the trap of its fetch (R104, R130). -/
def issueWord (s : State) (c : CoreId) : Host.Outcome State Fault Refusal :=
  let s : State := { s with cur := c }
  match nextWords s c with
  | .error (e, a) => .next (deliverTrap s c (preciseTrap a e a))
  | .ok (w, w2) =>
    match decode w w2 with
    | .ok i => exec i s
    | .error _ => .next (deliverTrap s c (preciseTrap (s.core c).pc causeIllegal (w.setWidth 64)))

/-- The next word of a core at program level goes before a pre-emption request that falls due on its cycle: it traps, or it is an `end`
that passes its checks (R121). After an `eret` the request goes first (R107). -/
def wordGoesFirst (s : State) (c : CoreId) : Bool :=
  !(s.core c).issue.resumed &&
  match issueWord s c with
  | .next t => let y := t.core c; y.system || y.issue.trapWait.isSome || y.run == .retiring
  | _ => false

/-- May the core issue its next word on this cycle (R121). -/
def canIssue (s : State) (c : CoreId) : Bool := mayIssue s c && (!preemptReady s c || wordGoesFirst s c)

/-! ## The clock of a die -/

/-- COUNT of a gang's watchdog (R302, R323). -/
def countGang (s : State) (g : Gang) : State :=
  let n := ((s.die g.die).cycle - g.stageStart) / 1024
  if g.stage = 0 ∨ n = g.count then s else
  let s := s.modGang g.id (fun g => { g with count := n })
  g.all.foldl (fun s c => if (s.core c).gang == some g.id then
    s.modCore c (fun x => { x with sys := { x.sys with wdog := wdogWord x.sys.wdog g.stage n } }) else s) s

/-- A `tlbinv` waits on while a translator has not arrived; the Weir's latency runs from the last arrival (R319). -/
def holdInvalidate (s : State) (d : Nat) : State :=
  { s with cores := s.cores.map (fun p =>
      match p.2.issue.wait with
      | .translators dieOnly _ ids =>
        if dieOf (coreOfKey p.1) == d && !translatorsQuiet s ids then
          (p.1, { p.2 with issue := { p.2.issue with readyAt := max p.2.issue.readyAt ((s.die d).cycle + if dieOnly then 21 else 2) } })
        else p
      | _ => p) }

/-- One cycle of die d passes (R320): CYCLE advances, and with it what counts cycles: readiness (R297), the watchdogs (R302) and
the vector arbiter (R208). [DESIGN CHOICE A61, safe] -/
def tickDie (s : State) (d : Nat) : State :=
  let s := holdInvalidate (countReady s d) d
  let ks := s.cores.filterMap (fun p => if p.1 < 4096 ∧ p.1 / 128 = d ∧ !(p.2.vq.isEmpty && p.2.vwait == 0 && p.2.vcredit == 0) then some p.1 else none)
  let s := ks.foldl vectorTick s
  let s := if s.quads.any (fun p => p.1 / 32 == d && p.2.shareBefore.isSome) then
      { s with quads := s.quads.map (fun p => (p.1, if p.1 / 32 = d then { p.2 with shareBefore := none } else p.2)) } else s
  let s := s.setDie d { s.die d with cycle := (s.die d).cycle + 1 }
  (s.gangs.filter (fun g => g.die == d)).foldl countGang s

end Sys2Proof.Machine
end

