-- ==== Sys2Proof/Machine/Policy.lean ====
section
/-! DEFINITION. Which part of the module moves next. The agenda names moves; where it names none, whatever is due happens at
once, then the cores that may issue do so in ascending order, then the die that is furthest behind passes one cycle. -/

namespace Sys2Proof.Machine
open Sys2Proof

/-- A step of an engine, a manager or a core that may be due: its meaning. -/
abbrev Row := State → Host.Outcome State Fault Refusal

/-- Does a DRAIN to a stream end on this cycle, its last beat having left (R225, R304). -/
def drainEnds (s : State) (c : CoreId) : Bool :=
  match (s.core c).eng.array with
  | some r => (drainStream r.cmd).isSome && decide (r.finish ≤ s.now c) && drainLeft s r
  | none => false

/-- Sets and clears of a cluster that land by this cycle and have not yet joined its bits. -/
def State.dueLandings (s : State) (q : Nat) : List Landing := (s.cluster q).landing.filter (fun p => p.due.isSome && s.lands q p)

/-- Does a step bring an event bit of die d, or a completion that sets one, to the cycle on which the step is made (R327). -/
def landsOn (s t : State) (d : Nat) : Bool :=
  (List.range 8).any (fun i => let q := 8 * d + i
    (t.cluster q).ev != (s.cluster q).ev || decide ((s.dueLandings q).length < (t.dueLandings q).length)) ||
  t.cores.any (fun p => let c := coreOfKey p.1; dieOf c == d && drainEnds t c && !drainEnds s c)

/-- Would a step bring an event bit to a cycle on which bits of its die have been read: every reader of a cycle sees what lands on it, so
the step waits for the next (R327). [DEDUCED A72, unsafe] -/
def landsLate (s t : State) : Bool := s.dies.any (fun p => p.2.sampled == some p.2.cycle && landsOn s t p.1)

/-- A step that is no word: what a slice's own ports wrote on its cycle prevails over it (R126), and it brings no event bit to a cycle on which
the bits have been read (R327). -/
def makeStep (i : Row) (s : State) : Host.Outcome State Fault Refusal :=
  match i s with
  | .next t => .next (if landsLate s t then s else ownPrevails s t)
  | o => o

/-- Event bits of die d have been read on this cycle (R327). -/
def State.noteRead (s : State) (d : Nat) : State := let x := s.die d; s.setDie d { x with sampled := some x.cycle }

/-- A step that reads event bits of die d when it does something. [DEDUCED A72, unsafe] -/
def samples (d : Nat) (i : Row) : Row := fun s =>
  match i s with
  | .next t => .next (if t = s then s else t.noteRead d)
  | o => o

/-- The state after a row, when the row does something. [DESIGN CHOICE A2, safe] -/
def tryRow (s : State) (i : Row) : Option State :=
  match makeStep i s with
  | .next t => if t = s then none else some t
  | _ => none

/-- The first row of a list that does something. -/
def firstRow (s : State) (l : List Row) : Option State := l.findSome? (tryRow s)

/-- The listed cores of a die. -/
def coresOf (s : State) (d : Nat) : List (CoreId × Core) :=
  s.cores.filterMap (fun p => let c := coreOfKey p.1; if dieOf c = d then some (c, p.2) else none)

/-- The clusters of a die that have something to land. -/
def clustersOf (s : State) (d : Nat) : List Nat :=
  s.clusters.filterMap (fun p => if p.1 / 8 = d ∧ !p.2.landing.isEmpty then some p.1 else none)

/-- The gangs of a die. -/
def gangsOf (s : State) (d : Nat) : List Gang := s.gangs.filter (fun g => g.die == d)

/-- A thing that may be due, and whether the spec fixes its cycle: no cycle of the die passes, and no word of the die issues, before a
fixed one has happened, while another may come later (R22, R180, R280). [DEDUCED A72, unsafe] -/
structure Due where
  isFixed : Bool
  row : Row

/-- Rows whose cycle is fixed. -/
def fixed (l : List Row) : List Due := l.map (fun r => ⟨true, r⟩)
/-- Rows whose cycle is not. -/
def loose (l : List Row) : List Due := l.map (fun r => ⟨false, r⟩)

/-- The rows by which a core's accesses go on: stores and vector accesses to the own slice have their cycles, the others have not (R182,
R184, R264). [DESIGN CHOICE A8, unsafe] -/
def accessRows (c : CoreId) (x : Core) : List Due :=
  x.ops.flatMap (fun o => ⟨(o.kind.isVector || o.kind.buffered) && ownHome c o.home, execStorePerform c o.id⟩ ::
    loose [execLoadReturn c o.id]) ++
  fixed (x.vq.map (fun e => execLoadReturn c e.id)) ++
  (match c with
   | .mem m =>
     loose ((if x.replay.isEmpty then [] else [execReplayWalkDone m]) ++
       (match x.issue.wait with | .walk va need => [execTranslationWalk (.memCore m) va need] | _ => []))
   | .comp k => if x.slice.zeroed.toList.all (fun t => t == 0) then [] else fixed ((List.range 32).map (fun h => execBankZeroingEnd k h)))

/-- The rows by which the commands and blocks that a core's engines run go on: of the array, of blocks of one cycle and of timed copies,
with fixed cycles; a Dipper command completes by the second cycle after its last batch (R285, R355). [DEDUCED A91, unsafe] -/
def engineRows (now : Nat) (c : CoreId) (x : Core) : List Due :=
  (match x.eng.array, c with
   | some r, .comp _ => fixed [execEngineCompletion c .matrix r.cmd.seq, execEngineCompletion c .cascade r.cmd.seq]
   | _, _ => []) ++
  (match c, x.cascade with
   | .comp k, some b => fixed (if b.link.isSome then [execBlockBranch k, execBlockYield k, execBlockEnd k, execBlockPad k, execBlockEvset k] else [])
   | _, _ => []) ++
  (match x.eng.copyRun with
   | some r => [execCopyChunk c, execEngineCompletion c .copy r.cmd.seq].map (fun a => ⟨cmdT r.cmd.word, a⟩)
   | none => []) ++
  (if x.eng.landing.isEmpty then [] else fixed (execCopyChunk c :: x.eng.landing.map (fun r => execEngineCompletion c .copy r.cmd.seq))) ++
  (match x.eng.dipperRun, c with
   | some r, .comp k => [⟨false, execDipperBatch (k / 16)⟩, ⟨r.ended.any (fun t => decide (t + 1 < now)), execEngineCompletion c .dipper r.cmd.seq⟩]
   | _, _ => []) ++
  loose ((match x.eng.reduction with | some k => [execEngineCompletion c .reduction k.seq] | none => []) ++
  (match c with
   | .comp k => (if x.eng.ringRuns.isEmpty then [] else [execRsend k, execRrecv k]) ++ x.eng.ringRuns.map (fun r => execEngineCompletion c .ring r.cmd.seq)
   | .mem _ => []))

/-- The rows by which a core's queues, vector queue and chain go on: every engine accepts its head on the first cycle on which it may
(R205). -/
def queueRows (s : State) (c : CoreId) (x : Core) : List Due :=
  let copy : List Due := fixed (if (x.eng.queue 2).isEmpty && x.eng.copyRun.isNone then [] else
    [execCopy c, execFill c, execXformPackTrits c, execXformUnpack c, execXformSwizzle c, execXformTranspose c, execXformSparseEncode c,
     execXformSparseDecode c, execXformMxint8Quantise c, execXformBf16Widen c, execTern c])
  match c with
  | .mem _ => copy
  | .comp k =>
    fixed (if (x.eng.queue 0).isEmpty then [] else [execMmT k, execMmS k, execDrain k, execStest k 0, execJointOperation (k / 4)]) ++
    fixed (if (x.eng.queue 1).isEmpty then [] else [execSrch k, execResid k]) ++ copy ++
    fixed (match x.head 3 with
      | some h => if x.eng.dipperRun.isSome then [] else [fun s => .next (acceptDipper (cmdOp h.word) k s)]
      | none => []) ++
    loose (if x.eng.dipperRun.isNone then [] else [execGather k, execScatter k, execScadd k, execPages k]) ++
    fixed (if (x.eng.queue 4).isEmpty then [] else [execMerge k]) ++
    fixed (if (x.eng.queue 5).isEmpty then [] else [fun s => .next (acceptRing 2 k (acceptRing 1 k s))]) ++
    fixed (if x.vq.isEmpty then [] else (List.range 4).map (fun l => execVectorBind (k / 4) l)) ++
    (match x.cascade with
     | none => []
     | some b => fixed (if b.link.isSome then [] else [samples (k / 128) (execBlockMmT k), samples (k / 128) (execBlockMmS k), execBlockDrain k,
         samples (k / 128) (execBlockBranch k), execBlockYield k, execBlockEnd k, execBlockPad k, execBlockEvset k]) ++ [⟨s.inOwnSlice c b.block 32, execCascadeBlockLoad k⟩])

/-- The timed faults, the comparison of pairs and the retirement of a core. -/
def checkRows (s : State) (c : CoreId) (x : Core) : List Due :=
  (match c with
   | .comp k =>
     fixed (if x.tw then [execGcycLimit k] else []) ++
     fixed ([(0, Engine.matrix), (1, .seed), (2, .copy)].flatMap (fun p => if (x.eng.queue p.1).isEmpty then [] else [execTimingFault k p.2])) ++
     fixed (if x.paired then (match (s.partner k).bind (pairAddress s k) with | some a => [execPairdiv k a] | none => []) else [])
   | .mem _ => []) ++
  loose (if x.run == .retiring then [execCoreRetire c] else [])

/-- A pending request is taken, unless the word that issues on this cycle goes first (R117, R121). -/
def preemptRow (c : CoreId) : Row := fun s => .next (if mayIssue s c && wordGoesFirst s c then s else takePreempt s c)

/-- The traps that no word raises, in the order of R121. -/
def trapRows (c : CoreId) (x : Core) : List Due :=
  fixed ((if x.issue.faults.isEmpty then [] else [execImpreciseFault c]) ++
  (if x.issue.trapWait.isSome then [execTrapEntry c] else []) ++
  (if x.issue.stepDue then [execSingleStep c] else []) ++
  (if x.issue.preempt.isSome then [preemptRow c] else []))

/-- The meetings of a gang: those up to die scope release on a fixed cycle, one at module scope by the 400th cycle after the last arrival
(R6). [DESIGN CHOICE A8, unsafe] -/
def meetingRows (s : State) (g : Gang) : List Due :=
  let overdue := decide (latest ((g.sync.filter (fun a => a.2.1 == 5)).map (fun a => a.2.2)) + 400 ≤ (s.die g.die).cycle)
  fixed (if g.opens.isEmpty then [] else [execWeirRelease g.id ⟨.windowOpen, 0, 0⟩]) ++
  g.sync.map (fun a => ⟨decide (a.2.1 ≤ 4) || (a.2.1 == 5 && overdue), execWeirRelease g.id ⟨.sync, a.2.1, scopeUnit a.1 a.2.1⟩⟩) ++
  fixed ((if g.freezeAt.isSome then [execGroupFreeze g.id] else []) ++ (if g.frozen then [execGroupRelease g.id] else []))

/-- The end and the limits of a gang; a suspended one resumes on the first cycle on which it may (R302). -/
def gangRows (g : Gang) : List Due :=
  loose [execGangRetire g.id] ++ fixed (if !g.fatalAt.isEmpty then [execFatalKill g.id] else []) ++
  fixed (if g.stage = 0 then [] else [execWatchdogT1 g.id, execWatchdogT2 g.id, execWatchdogT3 g.id]) ++
  loose (if g.killed then g.all.map (fun c => execWfiWake c .kill) else []) ++ fixed (if g.killed then [] else [execGangResume g.id]) ++
  loose (if recRing g.record then [execRingCommit g.id, execRingStart g.id, execFailureRecord g.id, execGangabort g.id] else [])

/-- The rows of a cluster's event bits: a set or clear with a due cycle lands on it (R327). -/
def eventRows (s : State) (d : Nat) : List Due :=
  (clustersOf s d).map (fun q => ⟨(s.cluster q).landing.any (fun p => match p.1 with | some t => decide (t ≤ (s.die d).cycle) | none => false),
    execEventBitUpdate q⟩)

/-- The lines of timed copies that reach their slices: its network port writes them ahead of what else comes on the cycle (R278).
[DEDUCED A72, unsafe] -/
def lineRows (l : List (CoreId × Core)) : List Row :=
  l.filterMap (fun p => if p.2.eng.landing.isEmpty then none else some (fun s => .next (landLines s p.1)))

/-- What comes first on a cycle of a die: the lines of timed copies, accesses, completions, and the event bits (R278, R327). -/
def earlyRows (s : State) (d : Nat) : List Due :=
  fixed (lineRows (coresOf s d)) ++ (coresOf s d).flatMap (fun p => accessRows p.1 p.2 ++ engineRows (s.die d).cycle p.1 p.2) ++ eventRows s d

/-- The word of a core that rewrites its windows goes on by the 400th cycle after it has issued, every copy written by then (R311). -/
def tableRows (s : State) (d : Nat) (l : List (CoreId × Core)) : List Due :=
  l.filterMap (fun p => match p.2.issue.wait with
    | .table _ => some ⟨decide (p.2.issue.readyAt + 399 ≤ (s.die d).cycle), fun s =>
        .next ((s.oldWindows.filter (fun w => w.core == coreIndex p.1)).foldl (fun s w => tableCopyDone s w.die w.core) s)⟩
    | _ => none)

/-- What falls due on a die, in the order in which one cycle's happenings see one another: a change of its clock (R375), accesses and completions, the event bits
(R327) with those of gangs that retire, then acceptances, arrivals and faults, meetings, traps, the task queue manager. -/
def dieRows (s : State) (d : Nat) : List Due :=
  let cs := coresOf s d
  let gs := gangsOf s d
  let x := s.die d
  let waiting := x.queues.toList.any (fun q => !q.records.isEmpty)
  fixed (if x.change.isEmpty then [] else [execClockChange d]) ++ earlyRows s d ++ loose (gs.map (fun g => execGangRetire g.id)) ++ eventRows s d ++ cs.flatMap (fun p => queueRows s p.1 p.2) ++
  fixed ((s.flits.filter (fun f => f.die == d)).map (fun f => execTimedFlitArrival f.target f.channel)) ++
  cs.flatMap (fun p => checkRows s p.1 p.2) ++ gs.flatMap (meetingRows s) ++ tableRows s d cs ++
  cs.filterMap (fun p => match p.2.issue.wait with
    | .translators dieOnly _ _ => some ⟨dieOnly || decide (p.2.issue.readyAt + 399 ≤ x.cycle), execWeirRelease 0 ⟨.invalidate, 0, coreKey p.1⟩⟩
    | _ => none) ++
  cs.flatMap (fun p => trapRows p.1 p.2) ++ gs.flatMap gangRows ++
  fixed (if x.arrived.isEmpty then [] else [execTaskDeposit d []]) ++
  loose (if x.deposits.isEmpty then [] else [execTaskDeposit d (x.deposits.map (fun p => p.id))]) ++
  fixed (if waiting then (List.range 16).flatMap (fun q => [execStarvationGuard d q, samples d (execRingReserve d q)]) ++ [samples d (execGangLaunch d)] else []) ++
  loose (if s.module.torhar.isEmpty then [] else [fun s => serveHost s d])

/-- The first of some things due whose cycle the spec fixes. -/
def firstFixed (s : State) (l : List Due) : Option State := firstRow s (l.filterMap (fun r => if r.isFixed then some r.row else none))

/-- What is due on a die whose cycle the spec fixes. [DEDUCED A72, unsafe] -/
def fixedDue (s : State) (d : Nat) : Option State := firstFixed s (dieRows s d)

/-- The die whose event bits a step reads on its cycle: a block that samples one, or the manager that finds a record ready (R253, R255,
R327). -/
def sampler : Instr → Option Nat
  | .blockBranch c | .blockMmT c | .blockMmS c => some (c / 128)
  | .gangLaunch d | .ringReserve d _ => some d
  | _ => none

/-- May a step be made before what comes first on its cycle: none may before the lines of timed copies that are due, but their own (R278), nor
one that reads event bits before what sets and clears them (R255, R327). [DEDUCED A72, unsafe] -/
def mayGoFirst (s : State) (i : Instr) : Bool :=
  (match i with
   | .copyChunk _ => true
   | _ => (firstRow s (lineRows (s.cores.map (fun p => (coreOfKey p.1, p.2))))).isNone) &&
  (match sampler i with
   | some d => (firstFixed s (earlyRows s d)).isNone
   | none => true)

/-- A step of the machine by its name. -/
def namedStep (i : Instr) : Row := makeStep (match sampler i with | some d => samples d (exec i) | none => exec i)

/-- Does a core's next word read event bits: it is an `evwait` (R327, R329). -/
def readsEvents (s : State) (c : CoreId) : Bool :=
  match nextWords s c with
  | .ok (w, w2) => (match decode w w2 with | .ok (.evwait _ _) => true | _ => false)
  | .error _ => false

/-- A core issues its next word; what that reads of its die's event bits is noted (R327). -/
def runNext (s : State) (c : CoreId) : Host.Outcome State Fault Refusal :=
  match issueWord s c with
  | .next t => .next (if readsEvents s c then t.noteRead (dieOf c) else t)
  | o => o

/-- What falls due in the module at large: the recovery of blocks, beats that have left, the boot. [DESIGN CHOICE A6, safe] -/
def moduleRows (s : State) : List Row :=
  (if (s.die 0).bootStep = 0 ∧ !s.module.thermalHold then [execModuleReset] else []) ++
  s.module.recovering.map (fun b => execEccRecovery (4096 * b)) ++
  s.streams.flatMap (fun p => p.2.flying.map (fun b => execRillBeatArrival p.1 b))

/-- The first thing due, done. [DESIGN CHOICE A1, unsafe] -/
def dueStep (s : State) : Option State :=
  match firstRow s (moduleRows s) with
  | some t => some t
  | none =>
    match s.oldWindows with
    | w :: _ => some (tableCopyDone s w.die w.core)
    | [] => (List.range Config.dies).findSome? (fun d => firstRow s ((dieRows s d).map (fun r => r.row)))

/-- The cores that may issue now. [DESIGN CHOICE A1, unsafe] -/
def readyCores (s : State) : List CoreId := (s.cores.map (fun p => coreOfKey p.1)).filter (canIssue s)

/-- The die that is furthest behind. [DESIGN CHOICE A1, unsafe] -/
def slowestDie (s : State) : Nat :=
  (List.range Config.dies).foldl (fun b d => if (s.die d).cycle < (s.die b).cycle then d else b) 0

/-- The move made when the agenda names none. [DESIGN CHOICE A1, unsafe] -/
def autoStep (s : State) : Host.Outcome State Fault Refusal :=
  match dueStep s with
  | some t => .next t
  | none =>
    match readyCores s with
    | c :: _ => runNext s c
    | [] => .next (tickDie s (slowestDie s))

/-- The core that runs a word placed from outside: memory core 0 for the words of memory cores (R28), else core 0. [DESIGN CHOICE A6, safe] -/
def wordCore (w : Nat) : CoreId := if 0x70 ≤ w / 2 ^ 24 % 128 ∧ w / 2 ^ 24 % 128 ≤ 0x72 then .mem 0 else .comp 0

/-- The state in which a word stands where a core fetches next: the die has booted, the core runs at system level with its pc at
the base of its private window, the word and the 32 bits after it lie there, and the core moves next. [DESIGN CHOICE A6, safe] -/
def placeWord (s : State) (nbits w : Nat) : State :=
  let v := w % 2 ^ nbits
  let c := wordCore v
  let s := if (s.die 0).bootStep = 8 then s else s.setDie 0 { s.die 0 with bootStep := 8 }
  let s := s.modCore c (fun x => { x with
    run := .running, pc := BitVec.ofNat 64 Config.privateBase
    issue := { Issue.reset with readyAt := 0 } })
  let s := s.writeNum (privateHome c Config.privateBase) 8 v
  { s with cur := c, agenda := .issue c :: s.agenda }

/-- Does a core fetch a word at an address from outside its slice or scratchpad. -/
def farWord (s : State) (c : CoreId) (a : Nat) : Bool :=
  match s.resolve c (s.core c).system a 4 .no false with
  | .ok p => !p.own
  | .error _ => false

/-- Does the core fetch its next word from outside its slice or scratchpad, so that R79 names no cost for it; a `loop` fetches its step word and
its body with it (R75). A captured body is not
fetched (R75), but an `eret` into it has just fetched its step word and all of it (R76). [DESIGN CHOICE A8, unsafe] -/
def fetchesFar (s : State) (c : CoreId) : Bool :=
  let x := s.core c
  let loopWords : Nat := match fetchWord s c x.pc.toNat with
    | .ok w => if takesStepWord w then bitsAt w 0 5 + 2 else 0
    | .error _ => 0
  if x.issue.loopCopy.isNone then (List.range (loopWords + 1)).any (fun i => farWord s c (x.pc + BitVec.ofNat 64 (4 * i)).toNat)
  else x.issue.resumed &&
    (List.range (x.loopLast + 2)).any (fun i => farWord s c (x.pc - BitVec.ofNat 64 (4 * x.loopIndex + 4) + BitVec.ofNat 64 (4 * i)).toNat)

/-- A move that the agenda names. A word issues only from a core that may issue, once what the spec fixes for this cycle has happened
on its die (R212), another step only when it may go before what comes first on its cycle, a die's cycle passes only when nothing with a fixed cycle is due on it and none of its cores may issue, and a tick
of the ring time base only when no ring gang waits for something that happens in this one (R306-R308); where a move may not be made,
nothing happens. [DESIGN CHOICE A1, unsafe] [DESIGN CHOICE A8, unsafe] [DEDUCED A40, unsafe] [DESIGN CHOICE A60, safe] [DESIGN CHOICE A61, safe]
[DEDUCED A72, unsafe] [DEDUCED A73, unsafe] [DEDUCED A78, unsafe] [DESIGN CHOICE A79, unsafe] -/
def act (a : Action) (s : State) : Host.Outcome State Fault Refusal :=
  match a with
  | .issue c => if canIssue s c && (fixedDue s (dieOf c)).isNone then runNext s c else .next s
  | .event i => if i.isWord || !mayGoFirst s i then .next s else namedStep i s
  | .tick d => .next (if (fixedDue s d).isNone && (coresOf s d).all (fun p => !canIssue s p.1) then tickDie s d else s)
  | .slowFetch c n =>
    .next (if canIssue s c && fetchesFar s c then s.modCore c (fun x => { x with issue := { x.issue with readyAt := s.now c + n } }) else s)
  | .tableCopy d c => .next (tableCopyDone s d c)
  | .ringTick => .next (if ringWaits s then s else
      let m := s.module
      { s with module := { m with
        tick := (m.tick + 1) % 2 ^ 32, ringCounted := m.ringCounted.filter (fun p => !tickPast m.tick (p.2 + 2 ^ 30)) } })
  | .ringRecord gang m tick =>
    .next { s with module := { s.module with reservations := s.module.reservations ++ [(gang, m, tick)] } }
  | .ringFailure gang m tick =>
    .next { s with module := { s.module with failures := s.module.failures ++ [(gang, m, tick)] } }
  | .ringArrival gang m tick =>
    let v := s.module.meetings
    let withdrawn := (v.reverse.eraseP (fun x => x.1 == gang && x.2.1 == m)).reverse
    .next { s with module := { s.module with meetings := match tick with | some t => v ++ [(gang, m, t)] | none => withdrawn } }
  | .torhar d =>
    if (firstRow s (lineRows (s.cores.map (fun p => (coreOfKey p.1, p.2))))).isSome then .next s else makeStep (fun s => serveHost s d) s
  | .correction d => .next (s.setDie d { s.die d with corrections := (s.die d).corrections + 1 })
  | .requestTag t => .next { s with module := { s.module with tag := t } }
  | .chosenFrame b f => .next { s with module := { s.module with frames := mapSet s.module.frames b f } }

end Sys2Proof.Machine
end

