-- ==== Sys2Proof/Machine/Step.lean ====
section
/-! DEFINITION. One step of the machine, and the state in which a given word is the next to run. -/

namespace Sys2Proof.Machine
open Sys2Proof

/-- One step: the first move of the agenda, or the one the module makes by itself. [DESIGN CHOICE A1, unsafe] -/
def step (s : State) : Host.Outcome State Fault Refusal :=
  match s.agenda with
  | a :: rest => act a { s with agenda := rest }
  | [] => autoStep s

/-- The state with an instruction in the place of the next word of a core that has booted: core 0, or for the words of memory
cores (opcodes 0x70 to 0x72) memory core 0. [DESIGN CHOICE A6, safe] -/
def State.withFetchWord (s : State) (nbits w : Nat) : State := placeWord s nbits w

end Sys2Proof.Machine
end

