-- ==== Sys2Proof/Safety.lean ====
section
/-! DEFINITION. The terms in which claims speak of a run: the well-formed state, what a word finds ready, what a step leaves as it
was, and the traps and waits that a word or an engine may end in. -/

namespace Sys2Proof.Machine
open Sys2Proof

/-! ## Well-formed states -/

/-- Memory is in its canonical form: addresses rising, no zero listed. -/
def State.wf (s : State) : Bool := Memory.wf s.mem

/-! ## What a word finds (R60, R72) -/

/-- Register r of the executing core is bound to no stream, and its last short result is ready (R60, R72). -/
def State.plain (s : State) (r : BitVec 5) : Prop :=
  (s.core s.cur).genOf r.toNat = none ∧ (mapGet (s.core s.cur).issue.regReady r.toNat).getD 0 ≤ s.now s.cur

/-- Register r of the executing core is bound to no stream (R60). -/
def State.unbound (s : State) (r : BitVec 5) : Prop := (s.core s.cur).genOf r.toNat = none

/-- Register r of the executing core. -/
def State.greg (s : State) (r : BitVec 5) : Reg := (s.core s.cur).reg r.toNat

/-- Bits [63:0] of register r of the executing core. -/
def State.gword (s : State) (r : BitVec 5) : Word := (s.greg r).w0

/-! ## What an access finds (R56, R165) -/

/-- An access of the executing core of n bytes at an offset of a capability, with the alignment and the permission given, passes
the checks of R165 and lands at a place: outside a window or in the core's own slice, tagged, permitted, within the bounds, its own
where the space is aliased, within a window that the core may reach, aligned, and clear of the Sluice table. -/
def AccessOk (s : State) (r : Reg) (off : Int) (n al : Nat) (perm : Reg → Bool) (isStore ext : Bool) (p : Place) : Prop :=
  let x := s.core s.cur
  let a : Int := (r.cursor : Int) + off
  (x.tw = false ∨ s.inOwnSlice s.cur a n = true) ∧ r.tag = true ∧ perm r = true ∧ r.base ≤ a ∧ a + n ≤ r.top ∧
    (r.space < 2 → r.owner = coreIndex s.cur) ∧
    s.resolve s.cur x.system a n (if isStore then .plain else .no) ext = .ok p ∧ a.toNat % al = 0 ∧
    ∀ e ∈ x.eng.sluice, e.hits p n isStore = false

/-! ## What a step leaves (frames) -/

/-- Nothing outside core c has changed but the names given to accesses: memory, tags, the other cores, quads, clusters, dies,
gangs, streams, flits and the module stand as before. -/
def OnlyCore (s t : State) (c : CoreId) : Prop :=
  t = { s with cores := t.cores, nextId := t.nextId } ∧ (∀ d, coreKey d ≠ coreKey c → t.core d = s.core d) ∧
    ∀ a, t.byte a = s.byte a

/-- Nothing outside the cores has changed but the names given to accesses. -/
def OnlyCores (s t : State) : Prop := t = { s with cores := t.cores, nextId := t.nextId }

/-- A core but for the note of what its slice's ports have written on a cycle (R126). -/
def Core.unnoted (x : Core) : Core := { x with slice := { x.slice with written := (0, []) } }

/-- Of a core, only pc, loop state, issue times and general register d have changed; the accesses and vector words in flight are
the same but for results that no longer go to d (R72). -/
def OnlyRegister (x y : Core) (d : BitVec 5) : Prop :=
  y = { x with
    pc := y.pc, g := y.g, ops := y.ops, vq := y.vq
    sys := { x.sys with loopstate := y.sys.loopstate }
    issue := { x.issue with
      readyAt := y.issue.readyAt, regReady := y.issue.regReady, settle := y.issue.settle, stepDue := y.issue.stepDue
      resumed := y.issue.resumed, loopCopy := y.issue.loopCopy } } ∧
    (∀ r, r ≠ d.toNat → y.reg r = x.reg r ∧ mapGet y.issue.regReady r = mapGet x.issue.regReady r) ∧
    y.ops = x.ops.map (fun o => if d ≠ 0 ∧ o.dst = some d.toNat then { o with dst := none } else o) ∧
    y.vq = x.vq.map (fun e => if d ≠ 0 ∧ e.dst = some d.toNat then { e with dst := none } else e)

/-- A core has passed a word: pc, loop state and issue times have changed, the results registers wait for have not. -/
def OnlyPassed (x y : Core) : Prop :=
  y = { x with
    pc := y.pc
    sys := { x.sys with loopstate := y.sys.loopstate }
    issue := { x.issue with
      readyAt := y.issue.readyAt, settle := y.issue.settle, stepDue := y.issue.stepDue, resumed := y.issue.resumed
      loopCopy := y.issue.loopCopy } }

/-- Memory from s to t: the bytes of a list at an address, every other byte as before; the granules they touch have the tag given
and every other granule its own (R125). -/
def BytesWritten (s t : State) (a : Nat) (bs : List Byte) (tag : Bool) : Prop :=
  (∀ i, i < bs.length → t.byte (a + i) = bs.getD i 0) ∧ (∀ b, b < a ∨ a + bs.length ≤ b → t.byte b = s.byte b) ∧
    (∀ b, bs ≠ [] → a / 16 ≤ b / 16 → b / 16 ≤ (a + bs.length - 1) / 16 → t.tagAt b = tag) ∧
    ∀ b, b / 16 < a / 16 ∨ (a + bs.length - 1) / 16 < b / 16 ∨ bs = [] → t.tagAt b = s.tagAt b

/-- How a word that goes on to the next one leaves the core: outside a loop body the pc one word on, the next word `cost` cycles
later, and the settle marker kept for it (R27, R73, R79). -/
def WordDone (S : Bool) (cost : Nat) (s t : State) : Prop :=
  ((s.core s.cur).issue.loopCopy = none → (t.core s.cur).pc = (s.core s.cur).pc + 4) ∧
    (t.core s.cur).issue.readyAt = s.now s.cur + cost ∧ (t.core s.cur).issue.settle = S

/-- Register d holds a value, ready `latency` cycles from now; a value for g0 is discarded (R50, R72). -/
def Wrote (s t : State) (d : BitVec 5) (v : Reg) (latency : Nat) : Prop :=
  if d = 0 then (t.core s.cur).reg 0 = Reg.zero
  else (t.core s.cur).reg d.toNat = v ∧ mapGet (t.core s.cur).issue.regReady d.toNat = some (s.now s.cur + latency)

/-- A word whose one effect is a value for general register d, ready `latency` cycles from now. -/
def RegisterWord (S : Bool) (d : BitVec 5) (v : Reg) (latency : Nat) (s t : State) : Prop :=
  WordDone S 1 s t ∧ OnlyCore s t s.cur ∧ OnlyRegister (s.core s.cur) (t.core s.cur) d ∧ Wrote s t d v latency

/-- A word that transfers control, with a link in d or d = 0 for none (R27, R79): the pc at the target, the next word three
cycles later. -/
def Jumped (S : Bool) (target : Word) (d : BitVec 5) (link : Reg) (s t : State) : Prop :=
  (t.core s.cur).pc = target ∧ (t.core s.cur).issue.readyAt = s.now s.cur + 3 ∧ (t.core s.cur).issue.settle = S ∧
    OnlyCore s t s.cur ∧ OnlyRegister (s.core s.cur) (t.core s.cur) d ∧ Wrote s t d link 1

/-- A word that does nothing but pass the next n words, at one cycle (R90): outside a loop body the pc 4 (n + 1) on. -/
def Passed (S : Bool) (n : Nat) (s t : State) : Prop :=
  ((s.core s.cur).issue.loopCopy = none → (t.core s.cur).pc = (s.core s.cur).pc + BitVec.ofNat 64 (4 * (n + 1))) ∧
    (t.core s.cur).issue.readyAt = s.now s.cur + 1 ∧ (t.core s.cur).issue.settle = S ∧
    OnlyCore s t s.cur ∧ OnlyRegister (s.core s.cur) (t.core s.cur) 0

/-- The conditions of `br`, `skip` and `csel` between a register and a word (R30). -/
def Condition (c : BitVec 4) (x : Reg) (y : Word) : Prop :=
  match c.toNat with
  | 0 => x.w0 = y
  | 1 => x.w0 ≠ y
  | 2 => x.w0.toInt < y.toInt
  | 3 => y.toInt ≤ x.w0.toInt
  | 4 => x.w0.toNat < y.toNat
  | 5 => y.toNat ≤ x.w0.toNat
  | 6 => x.tag = true
  | _ => x.tag = false

/-- The two-operand integer instructions with the latency and the value that R72, R81 and R82 give each: ADD, SUB, AND, OR, XOR, ANDN,
ORN, SHL, SHR, SRA, ROL, ROR, SLT, SLTU, SEQ, SNE, MIN, MAX, MINU, MAXU, MUL, MULH, MULHU, DIV, DIVU, REM and REMU. -/
def integerTable : List ((Bool → BitVec 5 → BitVec 5 → BitVec 5 → Instr) × Nat × (Word → Word → Word)) :=
  [(Instr.add, 1, fun x y => x + y), (Instr.sub, 1, fun x y => x - y), (Instr.and, 1, fun x y => x &&& y),
   (Instr.or, 1, fun x y => x ||| y), (Instr.xor, 1, fun x y => x ^^^ y), (Instr.andn, 1, fun x y => x &&& ~~~y),
   (Instr.orn, 1, fun x y => x ||| ~~~y), (Instr.shl, 1, fun x y => x <<< (y.toNat % 64)),
   (Instr.shr, 1, fun x y => x >>> (y.toNat % 64)), (Instr.sra, 1, fun x y => x.sshiftRight (y.toNat % 64)),
   (Instr.rol, 1, fun x y => x.rotateLeft (y.toNat % 64)), (Instr.ror, 1, fun x y => x.rotateRight (y.toNat % 64)),
   (Instr.slt, 1, fun x y => if x.toInt < y.toInt then 1 else 0),
   (Instr.sltu, 1, fun x y => if x.toNat < y.toNat then 1 else 0),
   (Instr.seq, 1, fun x y => if x = y then 1 else 0), (Instr.sne, 1, fun x y => if x = y then 0 else 1),
   (Instr.min, 1, fun x y => if x.toInt < y.toInt then x else y), (Instr.max, 1, fun x y => if x.toInt < y.toInt then y else x),
   (Instr.minu, 1, fun x y => if x.toNat < y.toNat then x else y), (Instr.maxu, 1, fun x y => if x.toNat < y.toNat then y else x),
   (Instr.mul, 3, fun x y => BitVec.ofNat 64 (x.toNat * y.toNat)),
   (Instr.mulh, 3, fun x y => BitVec.ofInt 64 (x.toInt * y.toInt / 2 ^ 64)),
   (Instr.mulhu, 3, fun x y => BitVec.ofNat 64 (x.toNat * y.toNat / 2 ^ 64)),
   (Instr.div, 34, fun x y => if y = 0 then BitVec.allOnes 64 else BitVec.ofInt 64 (x.toInt.tdiv y.toInt)),
   (Instr.divu, 34, fun x y => if y = 0 then BitVec.allOnes 64 else BitVec.ofNat 64 (x.toNat / y.toNat)),
   (Instr.rem, 34, fun x y => if y = 0 then x else BitVec.ofInt 64 (x.toInt.tmod y.toInt)),
   (Instr.remu, 34, fun x y => if y = 0 then x else BitVec.ofNat 64 (x.toNat % y.toNat))]

/-- The granule 2^e is the smallest that the encoding allows for len bytes at c (the loop of R95). -/
def Granule (c len e : Nat) : Prop :=
  let fits (e : Nat) : Prop := len = 0 ∨ (c + len + 2 ^ e - 1) / 2 ^ e * 2 ^ e - c / 2 ^ e * 2 ^ e < 2 ^ (e + 23)
  e ≤ 34 ∧ fits e ∧ ∀ f, f < e → ¬ fits f

/-! ## Loads and stores -/

/-- The loads of R166 and R167: size, permission, how the list of accesses names them, and the register that the tag and the bytes
read give. -/
def loadForms : List ((Bool → BitVec 5 → BitVec 5 → BitVec 14 → Instr) × Nat × (Reg → Bool) × MemKind × (Bool → Nat → Reg)) :=
  [(Instr.ldSb, 1, Reg.permR, .load true, fun _ n => ⟨false, 0, (BitVec.ofNat 8 n).signExtend 64⟩),
   (Instr.ldZb, 1, Reg.permR, .load false, fun _ n => ⟨false, 0, BitVec.ofNat 64 n⟩),
   (Instr.ldSh, 2, Reg.permR, .load true, fun _ n => ⟨false, 0, (BitVec.ofNat 16 n).signExtend 64⟩),
   (Instr.ldZh, 2, Reg.permR, .load false, fun _ n => ⟨false, 0, BitVec.ofNat 64 n⟩),
   (Instr.ldSw, 4, Reg.permR, .load true, fun _ n => ⟨false, 0, (BitVec.ofNat 32 n).signExtend 64⟩),
   (Instr.ldZw, 4, Reg.permR, .load false, fun _ n => ⟨false, 0, BitVec.ofNat 64 n⟩),
   (Instr.ldD, 8, Reg.permR, .load false, fun _ n => ⟨false, 0, BitVec.ofNat 64 n⟩),
   (Instr.ldC, 16, fun r => r.permR && r.permC, .loadCap, fun tag n =>
     let r : Reg := ⟨true, BitVec.ofNat 64 (n / 2 ^ 64), BitVec.ofNat 64 n⟩
     if tag = true ∧ r.SH ≤ 34 ∧ r.w1.getLsbD 63 = false ∧ 0 ≤ r.base ∧ r.top ≤ 2 ^ 57 then r else ⟨false, 0, r.w0⟩)]

/-- The stores of R166 and R167: size, permission, how the list of accesses names them, and the bytes a register gives, as a number. -/
def storeForms : List ((Bool → BitVec 5 → BitVec 5 → BitVec 14 → Instr) × Nat × (Reg → Bool) × (Bool → MemKind) × (Reg → Nat)) :=
  [(Instr.stB, 1, Reg.permW, fun _ => .store, fun r => r.w0.toNat % 2 ^ 8),
   (Instr.stH, 2, Reg.permW, fun _ => .store, fun r => r.w0.toNat % 2 ^ 16),
   (Instr.stW, 4, Reg.permW, fun _ => .store, fun r => r.w0.toNat % 2 ^ 32),
   (Instr.stD, 8, Reg.permW, fun _ => .store, fun r => r.w0.toNat),
   (Instr.stC, 16, fun r => r.permW && r.permC, .storeCap, fun r => r.w0.toNat + 2 ^ 64 * if r.tag then r.w1.toNat else 0)]

/-- No access of the core holds a later one back at issue: no acquire load is outstanding, and no fence is still held (R170, R171). -/
def Core.ungated (x : Core) : Prop := x.acquiring = false ∧ ∀ o ∈ x.ops, o.kind.isFence = false

/-- The core whose access of the name n uses a translation of an address; the notes of accesses that are gone leave (R139, R190). -/
def Core.uses (x : Core) (n va : Nat) (e : TlbEntry) : Core :=
  { x with through := x.through.filter (fun p => x.ops.any (fun o => o.id == p.1)) ++ [(n, va, e)] }

/-- An access of the executing core stands in its list of accesses, the word has passed, and nothing else has changed. -/
def Issued (S : Bool) (x : Core) (o : MemOp) (s t : State) : Prop :=
  WordDone S 1 s t ∧ OnlyCore s t s.cur ∧ o.id = s.nextId ∧ t.nextId = s.nextId + 1 ∧ o.value = none ∧
    OnlyPassed { x with ops := x.ops ++ [o] } (t.core s.cur)

/-! ## FP32 values (R144)

What an FP32 operation gives, by exact numbers: a finite pattern has a rational value, and a result is the pattern of the nearest one. -/

/-- A NaN pattern (R144). -/
def F32Nan (p : Word32) : Prop := p.extractLsb' 23 8 = 0xFF ∧ p.extractLsb' 0 23 ≠ 0

/-- An infinity of either sign (R144). -/
def F32Inf (p : Word32) : Prop := p.extractLsb' 0 31 = 0x7F80_0000

/-- A pattern that is read as a zero of its sign: a subnormal counts among them (R144). -/
def F32Zero (p : Word32) : Prop := p.extractLsb' 23 8 = 0

/-- A pattern as a unit reads it: every NaN the canonical one, a subnormal zero of its sign (R144). -/
def f32Read (p : Word32) : Word32 :=
  if p.extractLsb' 23 8 = 0xFF ∧ p.extractLsb' 0 23 ≠ 0 then 0x7FC0_0000
  else if p.extractLsb' 23 8 = 0 then p &&& 0x8000_0000 else p

/-- The number that a pattern with an exponent below 255 stands for (R144). -/
def f32Value (p : Word32) : Rat :=
  if p.extractLsb' 23 8 = 0 then 0
  else (if p.getLsbD 31 then -1 else 1) * ((2 ^ 23 + (p.extractLsb' 0 23).toNat : Nat) : Rat) *
    2 ^ (((p.extractLsb' 23 8).toNat : Int) - 150)

/-- Where a pattern that is no NaN stands among the numbers and the infinities, -0 and +0 at one place (R267). -/
def f32Rank (p : Word32) : Int :=
  let m := ((f32Read p).extractLsb' 0 31).toNat
  if p.getLsbD 31 then -(m : Int) else m

/-- The same order with -0 below +0 (R266). -/
def f32Order (p : Word32) : Int := 2 * f32Rank p + if p.getLsbD 31 then 0 else 1

/-- q is x rounded to the nearest integer, ties to even (R4). -/
def NearestEven (x : Rat) (q : Int) : Prop := |x - q| ≤ 1 / 2 ∧ (|x - q| = 1 / 2 → q % 2 = 0)

/-- r is ±x, x ≥ 0, rounded once to FP32 (R144): to 24 bits, to infinity beyond the largest finite value; below 2^-126 the multiple of 2^-149
nearest to x, and zero where that is still below (log entry 12, DEDUCED). -/
def F32Rounds (neg : Bool) (x : Rat) (r : Word32) : Prop :=
  r.getLsbD 31 = neg ∧ ∃ q : Int,
    (x < 2 ^ (-126 : Int) → NearestEven (x * 2 ^ 149) q ∧ ((r.extractLsb' 0 31).toNat : Int) = if q < 2 ^ 23 then 0 else 2 ^ 23) ∧
    ∀ e : Int, -126 ≤ e → 2 ^ e ≤ x → x < 2 ^ (e + 1) →
      NearestEven (x * 2 ^ (23 - e)) q ∧ ((r.extractLsb' 0 31).toNat : Int) = min (255 * 2 ^ 23) ((e + 126) * 2 ^ 23 + q)

/-- w is c + x × y rounded once, by IEEE 754 under R144: NaN from a NaN, from zero times infinity and from infinities of two signs; a sum of
zero is -0 only of two negative zeros. -/
def F32Fma (c x y w : Word32) : Prop :=
  let neg : Bool := x.getLsbD 31 != y.getLsbD 31
  let invalid : Prop := F32Nan c ∨ F32Nan x ∨ F32Nan y ∨ (F32Inf x ∧ F32Zero y) ∨ (F32Zero x ∧ F32Inf y)
  let infinite : Prop := F32Inf x ∨ F32Inf y
  let inf (neg : Bool) : Word32 := if neg then 0xFF80_0000 else 0x7F80_0000
  (invalid → w = 0x7FC0_0000) ∧
  (¬ invalid → infinite → w = if c.extractLsb' 0 31 = 0x7F80_0000 ∧ c.getLsbD 31 ≠ neg then 0x7FC0_0000 else inf neg) ∧
  (¬ invalid → ¬ infinite → F32Inf c → w = c) ∧
  (¬ invalid → ¬ infinite → ¬ F32Inf c →
    let v := f32Value c + f32Value x * f32Value y
    F32Rounds (if v = 0 then c.getLsbD 31 && neg else decide (v < 0)) |v| w)

/-- w is x + y rounded once. -/
def F32Sum (x y w : Word32) : Prop := F32Fma x y 0x3F80_0000 w

/-- w is x × y rounded once: -0 is what leaves every product as it is. -/
def F32Product (x y w : Word32) : Prop := F32Fma 0x8000_0000 x y w

/-- h is p rounded to BF16, ties to even: 0x7FC0 of a NaN (R4, R145). -/
def Bf16Rounds (p : Word32) (h : BitVec 16) : Prop :=
  (F32Nan p → h = 0x7FC0) ∧
  (¬ F32Nan p → ∃ n : Int, NearestEven ((((f32Read p).extractLsb' 0 31).toNat : Rat) / 2 ^ 16) n ∧
    h = BitVec.ofInt 16 (n + if p.getLsbD 31 then 2 ^ 15 else 0))

/-- A BF16 value as FP32 (R145). -/
def bf16Read (h : BitVec 16) : Word32 := f32Read (h ++ (0 : BitVec 16))

/-- The code and the elements that R152 gives a block of FP32 values, its members given by `on`. -/
def QuantisedBlock (x : Nat → Word32) (on : Nat → Prop) (code : Nat) (v : Nat → Int) : Prop :=
  let special (i : Nat) : Prop := F32Nan (x i) ∨ F32Inf (x i)
  ((∃ i, on i ∧ special i) → code = 255 ∧ ∀ i, on i → v i = 0) ∧
  ((∀ i, on i → F32Zero (x i)) → code = 0 ∧ ∀ i, on i → v i = 0) ∧
  ((∀ i, on i → ¬ special i) → (∃ i, on i ∧ ¬ F32Zero (x i)) →
    (∃ i, on i ∧ (2 : Rat) ^ ((code : Int) - 127) ≤ |f32Value (x i)|) ∧
    (∀ i, on i → |f32Value (x i)| < (2 : Rat) ^ ((code : Int) - 126)) ∧
    ∀ i, on i → ∃ n : Int, NearestEven (f32Value (x i) * 2 ^ (133 - (code : Int))) n ∧ v i = max (-127) (min 127 n))

/-- The bytes of a sparse chunk of n elements of z bytes (R158, R159): raw exactly where the packed form is no shorter, else the bitmap of
the elements present and their bytes in order. -/
def SparseChunk (z n : Nat) (el : Nat → Nat → Byte) (raw : Bool) (bs : List Byte) : Prop :=
  let present (j : Nat) : Bool := decide (j < n) && (List.range z).any (fun k => el j k != 0)
  let before (j : Nat) : Nat := ((List.range j).filter present).length
  (raw = true ↔ 128 * z ≤ 16 + before 128 * z) ∧
  (raw = true → bs.length = 128 * z ∧ ∀ j k, j < 128 → k < z → bs.getD (z * j + k) 0 = if j < n then el j k else 0) ∧
  (raw = false → bs.length = 16 + before 128 * z ∧ (∀ j, j < 128 → (bs.getD (j / 8) 0).getLsbD (j % 8) = present j) ∧
    ∀ j k, j < 128 → present j = true → k < z → bs.getD (16 + z * before j + k) 0 = el j k)

/-- The compressed buffer of C elements of z bytes, as writes from its header on (R158, R160): header, offset table, and each chunk at the
next multiple of 16 of the payload. -/
def SparseBuffer (z C : Nat) (el : Nat → Nat → Byte) (ws : List (Nat × List Byte)) : Prop :=
  let n := (C + 127) / 128
  let payload := (32 + 4 * (n + 1) + 31) / 32 * 32
  ∃ (raw : Nat → Bool) (off : Nat → Nat), ws.length = n + 2 ∧ off 0 = 0 ∧
    (∀ i, i < n → ∃ bs, ws[i + 2]? = some (payload + off i, bs) ∧
      SparseChunk z (min 128 (C - 128 * i)) (fun j => el (128 * i + j)) (raw i) bs ∧
      off (i + 1) = if i + 1 = n then off i + bs.length else (off i + bs.length + 15) / 16 * 16) ∧
    ws[0]? = some (0, [(z / 2) * 2 ^ 12 + 1, C, off n, 32, payload, C * z, 0, 0].flatMap (leBytes 4)) ∧
    ws[1]? = some (32, ((List.range n).map (fun i => off i + if raw i then 2 ^ 31 else 0) ++ [off n]).flatMap (leBytes 4))

/-! ## Vector words -/

/-- A vector word enters the vector queue on the next cycle with the VL in force, not yet bound; the word has passed, and nothing
else has changed (R207, R263). -/
def Queued (S : Bool) (x : Core) (e : VecEntry) (s t : State) : Prop :=
  WordDone S 1 s t ∧ OnlyCore s t s.cur ∧ e.id = s.nextId ∧ t.nextId = s.nextId + 1 ∧ e.enters = s.now s.cur + 1 ∧
    e.vl = x.vl ∧ e.bound = none ∧ e.result = none ∧ e.data = [] ∧ OnlyPassed { x with vq := x.vq ++ [e] } (t.core s.cur)

/-- Lane group l of quad q is free, and the arbiter gives it to core k, whose vector queue has e at its head (R207, R208). -/
def Binds (s : State) (q l k : Nat) (e : VecEntry) : Prop :=
  q < 512 ∧ l < 4 ∧ (s.quad q).groupEnd.toList.getD l 0 ≤ s.now (.comp (4 * q)) ∧ pickCore s q l = some k ∧
    (s.core (.comp k)).vectorHead = some e

/-- Element i of a queued vector word is active (R263). -/
def Active (e : VecEntry) (i : Nat) : Prop := i < e.vl ∧ ∀ m, e.mask = some m → m.getLsbD i = true

/-- A vector word has bound to lane group l of its quad for occ cycles, its vector results written lat cycles after them, the bytes
that it is to write held; of its core only vector registers and the queue with the arbiter's counters have changed (R208, R264). -/
def BoundWith (s t : State) (q l k : Nat) (e : VecEntry) (occ lat : Nat) (result : Option Word) (data : List (Nat × Byte)) : Prop :=
  let x := s.core (.comp k)
  let y := t.core (.comp k)
  let at0 := s.now (.comp (4 * q))
  t = { s with cores := t.cores, quads := t.quads } ∧ (∀ d, coreKey d ≠ k → t.core d = s.core d) ∧
    t.quad q = { s.quad q with groupEnd := (s.quad q).groupEnd.setIfInBounds l (at0 + occ) } ∧ (∀ p, p ≠ q → t.quad p = s.quad p) ∧
    y = { x with v := y.v, vq := y.vq, vready := y.vready, vwait := 0, vcredit := 0 } ∧
    y.vq = x.vq.map (fun o => if o.id = e.id then
      { e with bound := some (l, at0 + occ + lat), result := result, data := data, performAt := at0 + occ - 1 } else o)

/-- The same of a word that is no store: it holds no byte. -/
def Bound (s t : State) (q l k : Nat) (e : VecEntry) (occ lat : Nat) (result : Option Word) : Prop :=
  BoundWith s t q l k e occ lat result []

/-- Of the vector registers of core k only elements of vd have changed: each to what f says of it, or as it was where f says
nothing of it. -/
def ElementsWritten (s t : State) (k : Nat) (d : BitVec 4) (on : Nat → Prop) (f : Nat → Word32 → Prop) : Prop :=
  let x := s.core (.comp k)
  let y := t.core (.comp k)
  (∀ i, i < 64 → on i → f i (y.velem d.toNat i)) ∧ (∀ i, i < 64 → ¬ on i → y.velem d.toNat i = x.velem d.toNat i) ∧
    ∀ v i, v < 16 → i < 64 → v ≠ d.toNat → y.velem v i = x.velem v i

/-! ## The functions of R266 that are the device's own

Stated by the exact and special results of the rule and by the bounds on the others. -/

/-- `exp2`: 2^x for an integer x from -126 to 127, +∞ from 128 on, +0 below -126, and between two integers a value between their powers,
2 units in the last place apart at most. -/
def F32Exp2 (f : Word32 → Word32) : Prop := ∀ p,
  (F32Nan p → f p = 0x7FC0_0000) ∧ (F32Inf p → f p = if p.getLsbD 31 then 0 else 0x7F80_0000) ∧
  (¬ F32Nan p → ¬ F32Inf p →
    (128 ≤ f32Value p → f p = 0x7F80_0000) ∧ (f32Value p < -126 → f p = 0) ∧
    ∀ n : Int, -126 ≤ n → n ≤ 127 → (f32Value p = n → f p = BitVec.ofInt 32 ((n + 127) * 2 ^ 23)) ∧
      ((n : Rat) < f32Value p → f32Value p < n + 1 → ¬ F32Nan (f p) ∧ ¬ F32Inf (f p) ∧
        (2 : Rat) ^ n - 2 ^ (n - 22) ≤ f32Value (f p) ∧ f32Value (f p) ≤ 2 ^ (n + 1) + 2 ^ (n - 21)))

/-- `log2`: n for 2^n, -∞ for a zero, NaN below, and between 2^n and 2^(n + 1) a value between n and n + 1, 2^-16 apart at most. -/
def F32Log2 (f : Word32 → Word32) : Prop := ∀ p,
  (F32Nan p → f p = 0x7FC0_0000) ∧ (F32Zero p → f p = 0xFF80_0000) ∧
  (¬ F32Nan p → ¬ F32Zero p →
    (p.getLsbD 31 = true → f p = 0x7FC0_0000) ∧ (p.getLsbD 31 = false → F32Inf p → f p = 0x7F80_0000) ∧
    (p.getLsbD 31 = false → ¬ F32Inf p → ∀ n : Int,
      (f32Value p = 2 ^ n → F32Rounds (decide (n < 0)) |(n : Rat)| (f p)) ∧
      ((2 : Rat) ^ n < f32Value p → f32Value p < 2 ^ (n + 1) → ¬ F32Nan (f p) ∧ ¬ F32Inf (f p) ∧
        (n : Rat) - 2 ^ (-16 : Int) ≤ f32Value (f p) ∧ f32Value (f p) ≤ n + 1 + 2 ^ (-16 : Int))))

/-- `recip`: ±∞ for zeros, zeros for infinities and from 2^126 on, else 1 / x to 1 unit in the last place. -/
def F32Recip (f : Word32 → Word32) : Prop := ∀ p,
  (F32Nan p → f p = 0x7FC0_0000) ∧ (F32Zero p → f p = p &&& 0x8000_0000 ||| 0x7F80_0000) ∧ (F32Inf p → f p = p &&& 0x8000_0000) ∧
  (¬ F32Nan p → ¬ F32Zero p → ¬ F32Inf p →
    (2 ^ 126 ≤ |f32Value p| → f p = p &&& 0x8000_0000) ∧
    (|f32Value p| < 2 ^ 126 → ¬ F32Nan (f p) ∧ ¬ F32Inf (f p) ∧
      ∀ k : Int, 2 ^ k ≤ |1 / f32Value p| → |1 / f32Value p| < 2 ^ (k + 1) → |f32Value (f p) - 1 / f32Value p| ≤ 2 ^ (k - 23)))

/-- `rsqrt`: ±∞ for zeros, NaN below, +0 for +∞, else 1 / √x to 1 unit u in the last place: (w - u)² x ≤ 1 ≤ (w + u)² x. -/
def F32Rsqrt (f : Word32 → Word32) : Prop := ∀ p,
  (F32Nan p → f p = 0x7FC0_0000) ∧ (F32Zero p → f p = p &&& 0x8000_0000 ||| 0x7F80_0000) ∧
  (¬ F32Nan p → ¬ F32Zero p →
    (p.getLsbD 31 = true → f p = 0x7FC0_0000) ∧ (p.getLsbD 31 = false → F32Inf p → f p = 0) ∧
    (p.getLsbD 31 = false → ¬ F32Inf p → ¬ F32Nan (f p) ∧ ¬ F32Inf (f p) ∧
      ∀ k : Int, (4 : Rat) ^ k * f32Value p ≤ 1 → 1 < (4 : Rat) ^ (k + 1) * f32Value p →
        let u : Rat := 2 ^ (k - 23)
        u < f32Value (f p) ∧ (f32Value (f p) - u) ^ 2 * f32Value p ≤ 1 ∧ 1 ≤ (f32Value (f p) + u) ^ 2 * f32Value p))

/-! ## Commands -/

/-- The slots of a command in order (R41 step 2) when each register is read as it stands. -/
def checkSlots (s : State) (c : CoreId) (w : BitVec 256) (x : Core) : List SlotSpec → Except (Nat × Int) (List Range)
  | [] => .ok []
  | sp :: l =>
    match checkSlot s c w (x.reg (slotReg w sp.n)) sp with
    | .error e => .error e
    | .ok o =>
      match checkSlots s c w x l with
      | .error e => .error e
      | .ok rs => .ok (o.toList ++ rs)

/-- The slots of the command in k_N for a role of the executing core. -/
def State.slots (s : State) (k : BitVec 3) (role : Role) : BitVec 256 × List SlotSpec :=
  let w := queuedWord (s.core s.cur) ((s.core s.cur).k.toList.getD k.toNat 0)
  (w, slotSpecs w (isMemCore s.cur) role)

/-- The command in k_N passes the checks of R41 for a role of the executing core, and the core may push (R108); its slots hold the
capabilities and name the ranges given, and reading them leaves the state m (R39, R61). -/
def CommandOk (s : State) (k : BitVec 3) (role : Role) (rs : List Range) (held : List (Nat × Reg)) (m : State) : Prop :=
  let x := s.core s.cur
  let raw := x.k.toList.getD k.toNat 0
  let w := queuedWord x raw
  let specs := slotSpecs w (isMemCore s.cur) role
  ¬ (x.isHeld = true ∧ x.system = true ∧ x.eng.saved = false) ∧ cmdEngine raw ≤ 5 ∧
    (cmdEngine raw = 0 → raw.extractLsb' 23 9 = 0) ∧ commandOk s s.cur (setWordAt w 1 (wordAt raw 1)) role = true ∧
    (x.system = true ∨ ∀ sp ∈ specs, ∀ n, x.genOf (slotReg w sp.n) = some n → x.genWrites n = false) ∧
    readSlots w specs s = .ok ((rs, held), m) ∧ timedOk s s.cur w rs = true ∧ pairOk s s.cur w rs = true

/-- Nothing holds the command in k_N back once its slots are read: no acquire load, no access that a range waits for, room in its queue
and in the Sluice table (R41, R190, R204). -/
def CommandFree (m : State) (k : BitVec 3) (rs : List Range) : Prop :=
  let x := m.core m.cur
  let w := x.k.toList.getD k.toNat 0
  x.acquiring = false ∧ rangeBusy x rs = false ∧
    (x.eng.queue (cmdEngine w)).length < queueDepth (cmdEngine w) ∧ x.eng.sluice.length + (sluiceOf rs x.eng.seq).length ≤ 16

/-- The command in k_N has entered its queue from x, its slots read, to y (R110, R190, R204, R219, R315): with the next number and the
capabilities of its slots, for engine 0 with FMT, untimed with W1 all ones; the ring and the Sluice table record it. The number from which
the gang's own count of entries runs moves on where it has fallen behind (log entry 37). -/
def CommandEntered (s : State) (k : BitVec 3) (rs : List Range) (held : List (Nat × Reg)) (joint : Option Bool) (x y : Core) : Prop :=
  let raw := x.k.toList.getD k.toNat 0
  let n := cmdEngine raw
  let q := x.eng.seq
  ∃ e : Cmd, y.eng.queue n = x.eng.queue n ++ [e] ∧ (∀ m, m ≠ n → y.eng.queue m = x.eng.queue m) ∧
    e.seq = q ∧ e.enters = s.now s.cur + 1 ∧ e.system = x.system ∧ e.joint = joint ∧ e.base = 0 ∧
    (∀ i, i < 256 → e.word.getLsbD i = if n = 0 ∧ 23 ≤ i ∧ i < 32 then x.sys.fmt.getLsbD (i - 23)
      else if raw.getLsbD 12 = false ∧ 32 ≤ i ∧ i < 64 then true else raw.getLsbD i) ∧
    (∀ i : Fin 4, e.slots[i] = (mapGet held i.val).getD Reg.zero) ∧
    y.eng.seq = q + 1 ∧ y.eng.sluice = x.eng.sluice ++ sluiceOf rs q ∧
    mapGet y.eng.ring (q.toNat % 64) = some ⟨e.word, if joint.isSome then 1 else 0, 0, q⟩ ∧
    (∀ m, m ≠ q.toNat % 64 → mapGet y.eng.ring m = mapGet x.eng.ring m) ∧
    y.eng.ringBase = (if (q - x.eng.ringBase).toNat ≥ 2 ^ 30 then q - 2 ^ 30 else x.eng.ringBase) ∧
    y.eng = { x.eng with
      queues := y.eng.queues, seq := y.eng.seq, sluice := y.eng.sluice, ring := y.eng.ring, ringBase := y.eng.ringBase
      lastStart := y.eng.lastStart }

/-- The run r of the command k, the head of queue n of core c, stands on the array from now on, for occ cycles; the command has left its
queue (R205, R225). -/
def OnArray (s t : State) (c n : Nat) (k : Cmd) (occ : Nat) (r : ArrayRun) : Prop :=
  (t.core (.comp c)).eng.array = some r ∧ r.cmd = k ∧ r.start = s.now (.comp c) ∧ r.finish = s.now (.comp c) + occ ∧
    r.isBlock = false ∧ (t.core (.comp c)).head n = ((s.core (.comp c)).eng.queue n)[1]?

/-- Of a core only the FMT record of the slice and the engines have changed: no cell and no flag. -/
def SliceBegun (x y : Core) : Prop := y = { x with slice := { x.slice with fmtRecord := y.slice.fmtRecord }, eng := y.eng }

/-- Only the FMT record of the slice and the engines of core c have changed: no cell, no flag and no byte of memory before the command
ends (R225). -/
def OnlySlice (s t : State) (c : Nat) : Prop := OnlyCore s t (.comp c) ∧ SliceBegun (s.core (.comp c)) (t.core (.comp c))


/-- The cell of a bank (R124). -/
def State.cell (s : State) (c bank i : Nat) : BitVec 32 := (mapGet (s.core (.comp c)).slice.basin (512 * bank + i)).getD 0

/-- Trit (k, n) of a packed tile at a home address: five to a byte, least significant first, each column on lines of its own (R153,
R154). -/
def packedTrit (s : State) (h K k n : Nat) : Int :=
  let b := (s.byte (h + n * tileBytes K + k / 5)).toNat
  if b < 243 then ((b / 3 ^ (k % 5) % 3 : Nat) : Int) - 1 else 0

/-! ## Traps -/

/-- The gangs as they stand once core c has withdrawn its arrivals at its gang's Weir (R119, R334). -/
def Withdrawn (s t : State) (c : CoreId) : Prop :=
  t.gangs = s.gangs.map (fun g => if (s.core c).gang = some g.id then
    { g with
      sync := g.sync.filter (fun a => a.1 ≠ c), opens := g.opens.filter (fun a => a.1 ≠ c)
      returned := g.returned.filter (fun a => a ≠ c) } else g)

/-- Core c takes the precise trap `code` now, one that is neither PREEMPT nor fatal (R104, R106): the trap registers, HELD, the
levels, and the pc at TRAPVEC; its other registers, its engines' queues and every other core stand as before. -/
def TrapTaken (s t : State) (c : CoreId) (code : Nat) (val pc : Word) : Prop :=
  let x := s.core c
  t.core c = { x with
    run := if x.run = .retiring then .running else x.run
    pc := alignPc x.sys.trapvec
    sys := { x.sys with
      trappc := pc, trapcause := BitVec.ofNat 64 code, trapval := val, trapseq := 0
      priv := setBits x.sys.priv 0 2 (1 + 2 * (bitAt x.sys.priv 0).toNat), status := setBit x.sys.status 3 true }
    eng := { x.eng with saved := false, refilled := false, chainStop := none }
    issue := { x.issue with
      readyAt := s.now c + 1, loopCopy := none, trapWait := none, settle := false, wait := .none, resumed := false
      stepDue := x.issue.stepDue && code != 0x0F, ending := x.issue.ending || x.run == .retiring } } ∧
  t = { s with cores := t.cores, gangs := t.gangs } ∧ Withdrawn s t c ∧ ∀ d, coreKey d ≠ coreKey c → t.core d = s.core d

/-- Nothing delays a trap of core c that is neither fatal nor deferred: outside a window, no trap waits, the core has settled, its vector
queue is empty, its replay queue holds none but parked entries that have been reported, and no block of a chain runs (R73, R106, R179). -/
def TrapFree (s : State) (c : CoreId) : Prop :=
  (s.core c).tw = false ∧ (s.core c).issue.trapWait = none ∧ (s.core c).settled = true ∧ (s.core c).vq = [] ∧
    (∀ e ∈ (s.core c).replay, e.parked = true ∧ e.told = true) ∧ (s.core c).blockEnded = true

end Sys2Proof.Machine
end

