-- ==== Sys2Proof/Certificates/Slice0/Obligations.lean ====
section
/-! DEFINITION. The statements about the model, for the provers. -/

open Sys2Proof Sys2Proof.Machine

/-! ## Words and their meaning -/

/-- R24-R36: the words of every well-formed instruction decode to it, with every operand at every value its rules admit, whatever
word stands after them. -/
def Obligations.EncodingRoundTrip : Prop :=
  ∀ i : Instr, i.wf = true → ∀ ws, encode i = some ws → ∀ next : BitVec 32, decode (ws.getD 0 0) (ws.getD 1 next) = .ok i

/-- R25, R26: a word that decodes is the encoding of what it decodes to, so that no bit of it is passed over: a field marked 0
holds zero, and two words never stand for one instruction. -/
def Obligations.DecodedWordIsTheEncoding : Prop :=
  ∀ (w w2 : BitVec 32) (i : Instr), decode w w2 = .ok i → encode i = some (if takesStepWord w then [w, w2] else [w])

/-- Words that the spec writes out (R26, R112, R115, R177, R201 and the worked programs) decode to the instructions they stand
for. -/
def Obligations.SpecWordsDecode : Prop :=
  decode 0x0100_0000 0 = .ok (.add false 0 0 0) ∧ decode 0x8100_0000 0 = .ok (.add true 0 0 0) ∧
  decode 0x0139_CC00 0 = .ok (.add false 7 7 6) ∧
  decode 0x1F00_0005 0 = .ok (.trap false 5) ∧ decode 0x6D07_FFFF 0 = .ok (.brk false 0x7FFFF) ∧
  decode 0x5040_0000 0 = .ok (.kclr false 2) ∧ decode 0x7200_0000 0 = .ok (.dfence false) ∧
  decode 0x5505_0000 0 = .ok (.cascade false 20) ∧ decode 0x5800_0009 0 = .ok (.evset false 9) ∧
  decode 0x622D_0000 0 = .ok (.launch false 5 20) ∧ decode 0x6828_0003 0 = .ok (.sysrd false 5 3) ∧
  decode 0x3635_4000 0 = .ok (.ldD false 6 21 0) ∧ decode 0x0000_0000 0 = .error .opcode

/-- R130, R24: the four bytes at the pc, the lowest address first, are the core's next word, and R33: `loop` takes the four
after them as well. -/
def Obligations.NextWordIsTheBytesAtPc : Prop :=
  ∀ (s : State) (c : CoreId) (p q : Place),
    (s.core c).issue.loopCopy = none →
    s.resolve c (s.core c).system (s.core c).pc.toNat 4 .no false = .ok p →
    s.resolve c (s.core c).system ((s.core c).pc.toNat + 4) 4 .no false = .ok q →
    let w : BitVec 32 := s.byte (p.home + 3) ++ s.byte (p.home + 2) ++ s.byte (p.home + 1) ++ s.byte p.home
    let w2 : BitVec 32 := s.byte (q.home + 3) ++ s.byte (q.home + 2) ++ s.byte (q.home + 1) ++ s.byte q.home
    nextWords s c = .ok (w, if w.extractLsb' 24 7 = 0x1D#7 then w2 else 0)

/-- A core that moves next and may issue runs the instruction its next words decode to: the step is `exec` of it at that state,
the core named as the executing one; after an `evwait`, which reads event bits, its die also notes the cycle of the reading. It does so when the agenda names it and nothing with a cycle of its own is due on its die, and
when nothing is named and nothing is due and it is the first that may (log entries 1 and 72: the model's choice of who moves, and the note). -/
def Obligations.StepRunsTheDecodedWord : Prop :=
  let runs (s : State) (c : CoreId) (i : Instr) (o : Host.Outcome State Fault Refusal) : Prop :=
    let u := { s with cur := c }
    if ∃ S e, i = .evwait S e then
      (∀ t, exec i u = .next t → o = .next (t.setDie (dieOf c) { t.die (dieOf c) with sampled := some (t.die (dieOf c)).cycle })) ∧
      ((∀ t, exec i u ≠ .next t) → o = exec i u)
    else o = exec i u
  (∀ (s : State) (c : CoreId) (rest : List Action) (w w2 : BitVec 32) (i : Instr),
    s.agenda = .issue c :: rest → canIssue { s with agenda := rest } c = true → fixedDue { s with agenda := rest } (dieOf c) = none →
    nextWords { s with agenda := rest, cur := c } c = .ok (w, w2) → decode w w2 = .ok i →
    runs { s with agenda := rest } c i (step s)) ∧
  ∀ (s : State) (c : CoreId) (rest : List CoreId) (w w2 : BitVec 32) (i : Instr),
    s.agenda = [] → dueStep s = none → readyCores s = c :: rest →
    nextWords { s with cur := c } c = .ok (w, w2) → decode w w2 = .ok i → runs s c i (step s)

/-- R26, R104: a word that no row of the opcode map has raises ILLEGAL precisely, TRAPVAL the word, TRAPPC its address, and has
no effect of its own. -/
def Obligations.UnassignedWordRaisesIllegal : Prop :=
  ∀ (s : State) (c : CoreId) (rest : List Action) (w w2 : BitVec 32) (e : DecodeError),
    s.agenda = .issue c :: rest → canIssue { s with agenda := rest } c = true → fixedDue { s with agenda := rest } (dieOf c) = none →
    nextWords { s with agenda := rest, cur := c } c = .ok (w, w2) → decode w w2 = .error e → TrapFree s c →
    ∃ t, step s = .next t ∧ TrapTaken { s with agenda := rest, cur := c } t c 0x01 (w.setWidth 64) (s.core c).pc

/-- What reset leaves, of the values the spec gives (R50, R60, R63, R65, R124, R197, R309, R322, R326): every register of a core is zero
but PRIV, 1, and PRIVSZ, by the kind of core: the whole card of R65, GCYC and the generators' STREAM registers in it; SHARE 0x0101_0101
in every quad, CYCLE 0 on every die; memory and tags clear; no bank held; queues, streams and gangs empty. R124 clears the SRAM; that
external memory reads as zero before the boot is the model's choice (log 56). -/
def Obligations.ResetValues : Prop :=
  (∀ c, (State.reset.core c).run = .held ∧ (∀ r, (State.reset.core c).reg r = Reg.zero) ∧
    (∀ k : Fin 8, (State.reset.core c).k[k] = 0) ∧ (∀ (v : Fin 16) (i : Fin 64), (State.reset.core c).v[v][i] = 0) ∧
    (State.reset.core c).sys =
      { status := 0, priv := 1, trappc := 0, trapcause := 0, trapval := 0, trapseq := 0, trapvec := 0, fmt := 0, mstat := 0, progress := 0
        privsz := if isMemCore c then 0x4_0000 else 0x20_0000
        gcycBase := 0, gcycHeld := none, loopstate := 0, stream := Vector.replicate 4 0, dtstat := 0, pair := 0, wdog := 0, xbase := 0
        xlimit := 0 } ∧
    State.reset.gcyc c = 0 ∧ State.reset.now c = 0 ∧
    (State.reset.core c).ctxarea = 0x20_0000 + (if isMemCore c then 0x4_0000 else 0x20_0000) - 0x1_8000 ∧
    (State.reset.core c).gen = Vector.replicate 4 Reg.zero ∧
    (∀ n, (State.reset.core c).eng.queue n = []) ∧ (∀ h : Fin 32, (State.reset.core c).slice.holders[h] = .free)) ∧
  (∀ q, (State.reset.quad q).share = 0x0101_0101) ∧ (∀ q, (State.reset.cluster q).ev = 0) ∧
  (∀ d, (State.reset.die d).cycle = 0) ∧ (∀ a, State.reset.byte a = 0) ∧ (∀ a, State.reset.tagAt a = false) ∧
  State.reset.gangs = [] ∧ State.reset.streams = []

/-- Memory at reset is in its canonical form. -/
def Obligations.ResetMemoryIsCanonical : Prop := State.reset.wf = true

/-- The memory's canonical form is kept by every step: addresses rise strictly, and no zero byte is listed. -/
def Obligations.StepKeepsMemoryCanonical : Prop := ∀ s t : State, s.wf = true → step s = .next t → t.wf = true

/-- R24, R125: bytes written are the bytes read, every other byte is as before, and the tags of the granules touched are
clear while every other tag stands. -/
def Obligations.MemoryReadsWhatWasWritten : Prop :=
  ∀ (s : State) (a : Nat) (bs : List Byte), s.wf = true →
    (∀ i, i < bs.length → (s.write a bs).byte (a + i) = bs.getD i 0) ∧
    (∀ b, b < a ∨ a + bs.length ≤ b → (s.write a bs).byte b = s.byte b) ∧
    (∀ b, bs ≠ [] → a / 16 ≤ b / 16 → b / 16 ≤ (a + bs.length - 1) / 16 → (s.write a bs).tagAt b = false) ∧
    (∀ b, b / 16 < a / 16 ∨ (a + bs.length - 1) / 16 < b / 16 ∨ bs = [] → (s.write a bs).tagAt b = s.tagAt b)

/-! ## Integer instructions -/

/-- R81, R82, R72: the two-operand integer instructions give the value of their table row, untagged, ready after 1 cycle (3 for a
multiply, 34 for a divide or remainder), and change nothing else; a result for g0 is discarded. -/
def Obligations.IntegerBinaryResults : Prop :=
  ∀ p ∈ integerTable,
  ∀ (S : Bool) (d a b : BitVec 5) (s : State), s.unbound d → s.plain a → s.plain b →
    ∃ t, exec (p.1 S d a b) s = .next t ∧ RegisterWord S d (Reg.ofWord (p.2.2 (s.gword a) (s.gword b))) p.2.1 s t

/-- R81: the one-operand integer instructions: `clz` and `ctz` give 64 for zero and otherwise count the zeros above the highest
and below the lowest one, `popc` the ones, `bswap` the eight bytes reversed, and the extensions the low part extended. R83: the
immediate forms combine a with sext(imm14); a shift takes an imm14 of 0 to 63. -/
def Obligations.UnaryAndImmediateResults : Prop :=
  (∀ p ∈ ([(Instr.clz, fun x v => (x = 0 → v = 64) ∧ (x ≠ 0 → v.toNat < 64 ∧ x.getLsbD (63 - v.toNat) = true ∧
        ∀ i, 63 - v.toNat < i → x.getLsbD i = false)),
      (Instr.ctz, fun x v => (x = 0 → v = 64) ∧ (x ≠ 0 → v.toNat < 64 ∧ x.getLsbD v.toNat = true ∧
        ∀ i, i < v.toNat → x.getLsbD i = false)),
      (Instr.popc, fun x v => v.toNat = ((List.range 64).map (fun i => (x.getLsbD i).toNat)).sum),
      (Instr.bswap, fun x v => ∀ i, i < 8 → v.extractLsb' (8 * i) 8 = x.extractLsb' (56 - 8 * i) 8),
      (Instr.sextB, fun x v => v = (x.setWidth 8).signExtend 64), (Instr.sextH, fun x v => v = (x.setWidth 16).signExtend 64),
      (Instr.sextW, fun x v => v = (x.setWidth 32).signExtend 64), (Instr.zextB, fun x v => v = (x.setWidth 8).setWidth 64),
      (Instr.zextH, fun x v => v = (x.setWidth 16).setWidth 64), (Instr.zextW, fun x v => v = (x.setWidth 32).setWidth 64)] :
      List ((Bool → BitVec 5 → BitVec 5 → Instr) × (Word → Word → Prop))),
  ∀ (S : Bool) (d a : BitVec 5) (s : State), s.unbound d → s.plain a →
    ∃ t v, exec (p.1 S d a) s = .next t ∧ RegisterWord S d (Reg.ofWord v) 1 s t ∧ p.2 (s.gword a) v) ∧
  ∀ p ∈ ([(Instr.addi, fun _ => True, fun x i => x + i.signExtend 64), (Instr.andi, fun _ => True, fun x i => x &&& i.signExtend 64),
      (Instr.ori, fun _ => True, fun x i => x ||| i.signExtend 64), (Instr.xori, fun _ => True, fun x i => x ^^^ i.signExtend 64),
      (Instr.slti, fun _ => True, fun x i => if x.toInt < i.toInt then 1 else 0),
      (Instr.sltiu, fun _ => True, fun x i => if x.toNat < (i.signExtend 64).toNat then 1 else 0),
      (Instr.shli, fun i => i.toNat < 64, fun x i => x <<< i.toNat), (Instr.shri, fun i => i.toNat < 64, fun x i => x >>> i.toNat),
      (Instr.srai, fun i => i.toNat < 64, fun x i => x.sshiftRight i.toNat)] :
      List ((Bool → BitVec 5 → BitVec 5 → BitVec 14 → Instr) × (BitVec 14 → Prop) × (Word → BitVec 14 → Word))),
  ∀ (S : Bool) (d a : BitVec 5) (i : BitVec 14) (s : State), p.2.1 i → s.unbound d → s.plain a →
    ∃ t, exec (p.1 S d a i) s = .next t ∧ RegisterWord S d (Reg.ofWord (p.2.2 (s.gword a) i)) 1 s t

/-- R84: `lui` (opcode 0x11, U format) writes sext(imm19) << 14, a multiple of 0x4000 in [-2^32, 2^32 - 2^14]; `addpc` (opcode
0x12) writes the address of its own word plus 4 × sext(imm19), which lies from 1 MiB below it to 1 MiB - 4 above; both results are
untagged. -/
def Obligations.UpperImmediates : Prop :=
  ∀ (S : Bool) (d : BitVec 5) (i : BitVec 19) (s : State), s.unbound d →
    encodeWord (.lui S d i) = some (BitVec.ofBool S ++ (0x11#7 ++ (d ++ i))) ∧
    encodeWord (.addpc S d i) = some (BitVec.ofBool S ++ (0x12#7 ++ (d ++ i))) ∧
    (∃ t, exec (.lui S d i) s = .next t ∧ RegisterWord S d ⟨false, 0, BitVec.ofInt 64 (i.toInt * 2 ^ 14)⟩ 1 s t) ∧
    (i.toInt * 2 ^ 14 % 0x4000 = 0 ∧ -2 ^ 32 ≤ i.toInt * 2 ^ 14 ∧ i.toInt * 2 ^ 14 ≤ 2 ^ 32 - 2 ^ 14) ∧
    (∃ t, exec (.addpc S d i) s = .next t ∧
      RegisterWord S d ⟨false, 0, (s.core s.cur).pc + BitVec.ofInt 64 (4 * i.toInt)⟩ 1 s t) ∧
    -2 ^ 20 ≤ 4 * i.toInt ∧ 4 * i.toInt ≤ 2 ^ 20 - 4

/-- R85, R86: `csel` gives bits [63:0] of a when its condition holds between g_c and zero, else of b; `bfx` and `bfxz` the field of
`width` bits at `lsb`, sign- or zero-extended; `bins` g_d with that field replaced by the low bits of a. -/
def Obligations.SelectAndFieldResults : Prop :=
  (∀ (S : Bool) (d a b c : BitVec 5) (n : BitVec 4) (s : State), n.toNat < 8 → s.unbound d → s.plain a → s.plain b → s.plain c →
    ∃ t v, exec (.csel S d a b c n) s = .next t ∧ RegisterWord S d (Reg.ofWord v) 1 s t ∧
      (Condition n (s.greg c) 0 → v = s.gword a) ∧ (¬ Condition n (s.greg c) 0 → v = s.gword b)) ∧
  ∀ (S : Bool) (d a : BitVec 5) (l : BitVec 6) (w : BitVec 7) (s : State),
    1 ≤ w.toNat → l.toNat + w.toNat ≤ 64 → s.unbound d → s.plain a →
    (∃ t v, exec (.bfx S d a l w) s = .next t ∧ RegisterWord S d (Reg.ofWord v) 1 s t ∧
      ∀ i, i < 64 → v.getLsbD i = (s.gword a).getLsbD (l.toNat + min i (w.toNat - 1))) ∧
    (∃ t v, exec (.bfxz S d a l w) s = .next t ∧ RegisterWord S d (Reg.ofWord v) 1 s t ∧
      ∀ i, i < 64 → v.getLsbD i = (decide (i < w.toNat) && (s.gword a).getLsbD (l.toNat + i))) ∧
    (s.plain d → ∃ t v, exec (.bins S d a l w) s = .next t ∧ RegisterWord S d (Reg.ofWord v) 1 s t ∧
      ∀ i, i < 64 → v.getLsbD i = if l.toNat ≤ i ∧ i < l.toNat + w.toNat then (s.gword a).getLsbD (i - l.toNat)
        else (s.gword d).getLsbD i)

/-- R61, R62, R172: a source register of a two-operand integer instruction that is bound to a generator. At program level a generator that
reads gives the element at its cursor, zero-extended, and moves on by its stride with one element less: here the element
lies where the checks of R165 find nothing and no access of the core is in flight. With no element left the operand is zero and
STREND is set; a generator that writes makes the word ILLEGAL. At system level a bound register reads as the capability its
generator holds. -/
def Obligations.StreamOperands : Prop :=
  ∀ p ∈ integerTable,
  ∀ (S : Bool) (d a b : BitVec 5) (n : Nat) (s : State), s.unbound d → s.plain b → n < 4 →
    (s.core s.cur).genOf a.toNat = some n →
    let x := s.core s.cur
    let cap := x.gen.toList.getD n Reg.zero
    let word := x.sys.stream.toList.getD n 0
    let size : Nat := 2 ^ (x.streamByte n / 16 % 4)
    (x.system = true → (mapGet x.issue.regReady a.toNat).getD 0 ≤ s.now s.cur →
      ∃ t, exec (p.1 S d a b) s = .next t ∧ RegisterWord S d (Reg.ofWord (p.2.2 cap.w0 (s.gword b))) p.2.1 s t) ∧
    (x.system = false → x.genWrites n = true → TrapFree s s.cur →
      ∃ t, exec (p.1 S d a b) s = .next t ∧ TrapTaken s t s.cur 0x01 ((s.issuingWord s.cur).setWidth 64) x.pc) ∧
    (x.system = false → x.genWrites n = false → word.extractLsb' 32 32 = 0 →
      ∃ t, exec (p.1 S d a b) s = .next t ∧ WordDone S 1 s t ∧ OnlyCore s t s.cur ∧
        OnlyRegister { x with sys := { x.sys with status := x.sys.status ||| (8#64 <<< (32 + 8 * n)) } } (t.core s.cur) d ∧
        Wrote s t d (Reg.ofWord (p.2.2 0 (s.gword b))) p.2.1) ∧
    ∀ q : Place, x.system = false → x.genWrites n = false → word.extractLsb' 32 32 ≠ 0 → x.ops = [] → s.module.recovering = [] →
      AccessOk s cap 0 size size Reg.permR false false q →
      ∃ t, exec (p.1 S d a b) s = .next t ∧ WordDone S 1 s t ∧ OnlyCore s t s.cur ∧
        OnlyRegister { x with
          gen := x.gen.setIfInBounds n (cap.shift (word.setWidth 32).toInt)
          sys := { x.sys with stream := x.sys.stream.setIfInBounds n (word - (1#64 <<< 32)) } } (t.core s.cur) d ∧
        Wrote s t d (Reg.ofWord (p.2.2 (BitVec.ofNat 64 (s.num q.home size)) (s.gword b))) p.2.1

/-- R61, R62: the destination of a two-operand integer instruction that is bound to a generator. At program level a generator that
writes appends the value, truncated to its element size, as a store at its cursor, and moves on; one that reads makes the word
ILLEGAL. At system level the value replaces the capability its generator holds. No general register changes. -/
def Obligations.StreamResults : Prop :=
  ∀ p ∈ integerTable,
  ∀ (S : Bool) (d a b : BitVec 5) (n : Nat) (s : State), s.plain a → s.plain b → n < 4 → (s.core s.cur).genOf d.toNat = some n →
    let x := s.core s.cur
    let cap := x.gen.toList.getD n Reg.zero
    let word := x.sys.stream.toList.getD n 0
    let size : Nat := 2 ^ (x.streamByte n / 16 % 4)
    let v := p.2.2 (s.gword a) (s.gword b)
    (x.system = true → ∃ t, exec (p.1 S d a b) s = .next t ∧ WordDone S 1 s t ∧ OnlyCore s t s.cur ∧
      OnlyRegister { x with gen := x.gen.setIfInBounds n (Reg.ofWord v) } (t.core s.cur) d ∧ (t.core s.cur).g = x.g ∧
      mapGet (t.core s.cur).issue.regReady d.toNat = some (s.now s.cur + p.2.1)) ∧
    (x.system = false → x.genWrites n = false → TrapFree s s.cur →
      ∃ t, exec (p.1 S d a b) s = .next t ∧ TrapTaken s t s.cur 0x01 ((s.issuingWord s.cur).setWidth 64) x.pc) ∧
    ∀ q : Place, x.system = false → x.genWrites n = true → word.extractLsb' 32 32 ≠ 0 → x.ops = [] →
      AccessOk s cap 0 size size Reg.permW true false q →
      ∃ t o, exec (p.1 S d a b) s = .next t ∧ WordDone S 1 s t ∧ OnlyCore s t s.cur ∧
        o.kind = .store ∧ o.home = q.home ∧ o.size = size ∧ o.data = v.toNat % 256 ^ size ∧ o.value = none ∧ o.dst = none ∧
        OnlyRegister { x with
          ops := [o], gen := x.gen.setIfInBounds n (cap.shift (word.setWidth 32).toInt)
          sys := { x.sys with stream := x.sys.stream.setIfInBounds n (word - (1#64 <<< 32)) } } (t.core s.cur) 0

/-! ## Control flow -/

/-- R30, R87, R90: `br` goes to its word's address plus 4 × sext(off10) when the condition holds between g_a and bits [63:0] of g_b, and
`skip` passes n words (1 to 8); otherwise execution continues at the following word. Nothing else changes. -/
def Obligations.BranchesAndSkips : Prop :=
  ∀ (S : Bool) (a b : BitVec 5) (c : BitVec 4) (s : State),
    c.toNat < 8 → (6 ≤ c.toNat → b = 0) → s.plain a → s.plain b →
    (∀ o : BitVec 10,
      (Condition c (s.greg a) (s.gword b) → ∃ t, exec (.br S a b c o) s = .next t ∧
        Jumped S ((s.core s.cur).pc + BitVec.ofInt 64 (4 * o.toInt)) 0 Reg.zero s t) ∧
      (¬ Condition c (s.greg a) (s.gword b) → ∃ t, exec (.br S a b c o) s = .next t ∧ Passed S 0 s t)) ∧
    ∀ n : BitVec 3,
      (Condition c (s.greg a) (s.gword b) → ∃ t, exec (.skip S a b c n) s = .next t ∧ Passed S (n.toNat + 1) s t) ∧
      (¬ Condition c (s.greg a) (s.gword b) → ∃ t, exec (.skip S a b c n) s = .next t ∧ Passed S 0 s t)

/-- R88: `j` and `jal` (opcodes 0x19 and 0x1A, J format) transfer to their word's address + 4 × sext(off24); the reach is −32 MiB to +32 MiB −
4; `jal` writes the address of its following word, untagged, to g1; neither faults. -/
def Obligations.JumpsAndCalls : Prop :=
  ∀ (S : Bool) (o : BitVec 24) (s : State),
    encodeWord (.j S o) = some (BitVec.ofBool S ++ (0x19#7 ++ o)) ∧ encodeWord (.jal S o) = some (BitVec.ofBool S ++ (0x1A#7 ++ o)) ∧
    (∃ t, exec (.j S o) s = .next t ∧ Jumped S ((s.core s.cur).pc + BitVec.ofInt 64 (4 * o.toInt)) 0 Reg.zero s t) ∧
    (∃ t, exec (.jal S o) s = .next t ∧
      Jumped S ((s.core s.cur).pc + BitVec.ofInt 64 (4 * o.toInt)) 1 ⟨false, 0, (s.core s.cur).pc + 4⟩ s t) ∧
    -2 ^ 25 ≤ 4 * o.toInt ∧ 4 * o.toInt ≤ 2 ^ 25 - 4

/-- R89: `jr` transfers to bits [63:0] of an untagged g_a, or to the cursor of a tagged one, with the following word's address in
g_d; a target off a word boundary raises ALIGN, and a tagged one needs X, the four bytes within its bounds and, for an aliased
space, the executing core as owner. -/
def Obligations.RegisterJumps : Prop :=
  ∀ (S : Bool) (d a : BitVec 5) (s : State), s.unbound d → s.plain a →
    let r := s.greg a
    let target : Word := if r.tag then r.w0 &&& 0x01FF_FFFF_FFFF_FFFF else r.w0
    let usable : Prop := r.base ≤ r.cursor ∧ (r.cursor : Int) + 4 ≤ r.top
    let fails (code : Nat) : Prop := TrapFree s s.cur → ∃ t, exec (.jr S d a) s = .next t ∧
      TrapTaken s t s.cur code target (s.core s.cur).pc
    (target.toNat % 4 = 0 →
      (r.tag = true → r.permX = true ∧ usable ∧ (r.space < 2 → r.owner = coreIndex s.cur)) →
      ∃ t, exec (.jr S d a) s = .next t ∧ Jumped S target d ⟨false, 0, (s.core s.cur).pc + 4⟩ s t) ∧
    (target.toNat % 4 ≠ 0 → fails 0x07) ∧
    (target.toNat % 4 = 0 → r.tag = true → r.permX = false → fails 0x05) ∧
    (target.toNat % 4 = 0 → r.tag = true → r.permX = true → ¬ usable → fails 0x04) ∧
    (target.toNat % 4 = 0 → r.tag = true → r.permX = true → usable → r.space < 2 → r.owner ≠ coreIndex s.cur → fails 0x06)

/-- R33, R74, R75, R91: `loop` with a count of zero in g_a [23:0] goes past its body; with another count it captures the words of its body as they
stand in memory with the step rules, sets LOOPSTATE to that count, index 0 and the last index, active, and goes on at the first body
word. The body here satisfies the rules of R33 and R74. A body word that no fetch gets raises the fetch's cause at its own address
(R130).
The last word of a captured body that goes on ends an iteration. On the last one LOOPSTATE turns inactive and the pc
passes the body; before it the step rules are applied to the copy, the remaining count falls and the completed count rises by one,
and the pc returns to the body's first word. Words in the middle only move index and pc on. That index and remaining count are both zero
after the last iteration is the model's choice (log 82), as is that a body word's fetch comes before the rules of the body (log 63). -/
def Obligations.LoopsRun : Prop :=
  (∀ (S : Bool) (a n : BitVec 5) (step : BitVec 32) (s : State) (p : Place), s.plain a → stepWordOk n step = true →
    let x := s.core s.cur
    let body := (List.range (n.toNat + 1)).map (fun i => BitVec.ofNat 32 (s.num (p.home + 4 * i) 4))
    s.resolve s.cur x.system ((x.pc.toNat : Int) + 8) (4 * (n.toNat + 1)) .no false = .ok p → bodyOk n.toNat step body = true →
    let count := (s.gword a).toNat % 2 ^ 24
    ∃ t, exec (.loop S a n step) s = .next t ∧ OnlyCore s t s.cur ∧
      OnlyRegister { x with issue := { x.issue with loopRules := if count = 0 then x.issue.loopRules else step } } (t.core s.cur) 0 ∧
      (t.core s.cur).issue.readyAt = s.now s.cur + 1 ∧ (t.core s.cur).issue.settle = S ∧
      (count = 0 → (t.core s.cur).pc = x.pc + BitVec.ofNat 64 (8 + 4 * (n.toNat + 1)) ∧
        (t.core s.cur).sys.loopstate = x.sys.loopstate ∧ (t.core s.cur).issue.loopCopy = x.issue.loopCopy) ∧
      (count ≠ 0 → (t.core s.cur).pc = x.pc + 8 ∧ (t.core s.cur).issue.loopCopy = some body ∧
        (t.core s.cur).loopLeft = count ∧ (t.core s.cur).loopDone = 0 ∧ (t.core s.cur).loopIndex = 0 ∧
        (t.core s.cur).loopLast = n.toNat ∧ (t.core s.cur).loopActive = true)) ∧
  (∀ (S : Bool) (a n : BitVec 5) (step : BitVec 32) (s : State) (e : Nat) (at0 : Word), s.plain a → stepWordOk n step = true →
    fetchWords s s.cur ((s.core s.cur).pc.toNat + 8) (n.toNat + 1) = .error (e, at0) → (s.gword a).toNat % 2 ^ 24 ≠ 0 → TrapFree s s.cur →
    ∃ t, exec (.loop S a n step) s = .next t ∧ TrapTaken s t s.cur e at0 at0) ∧
  ∀ (s : State) (c : CoreId) (body : List (BitVec 32)),
    let x := s.core c
    let y := (advance s c 1).core c
    let first := x.pc - BitVec.ofNat 64 (4 * x.loopIndex)
    x.issue.loopCopy = some body → x.loopIndex ≤ x.loopLast →
    OnlyCore s (advance s c 1) c ∧ OnlyRegister x y 0 ∧ y.loopLast = x.loopLast ∧
    (x.loopIndex < x.loopLast → y.pc = x.pc + 4 ∧ y.loopIndex = x.loopIndex + 1 ∧ y.loopLeft = x.loopLeft ∧
      y.loopDone = x.loopDone ∧ y.loopActive = x.loopActive ∧ y.issue.loopCopy = some body) ∧
    (x.loopIndex = x.loopLast → 1 < x.loopLeft → y.pc = first ∧ y.loopIndex = 0 ∧ y.loopLeft = x.loopLeft - 1 ∧
      y.loopDone = (x.loopDone + 1) % 2 ^ 24 ∧ y.loopActive = true ∧
      y.issue.loopCopy = some (applySteps x.issue.loopRules body)) ∧
    (x.loopIndex = x.loopLast → x.loopLeft ≤ 1 → y.pc = first + BitVec.ofNat 64 (4 * (x.loopLast + 1)) ∧ y.loopIndex = 0 ∧
      y.loopLeft = 0 ∧ y.loopDone = (x.loopDone + 1) % 2 ^ 24 ∧ y.loopActive = false ∧ y.issue.loopCopy = none)

/-- R92, R118: `end` at program level outside a window, with no bank held and an empty replay queue, ends the core's issue; the core stops
once it has settled and its engines, queues and Sluice table are empty, no fault of an engine is left and no trap waits, with its
generators unbound and its messages discarded, and counts among its gang's retired members. Until then the retirement waits. A
pre-emption request that was pending is answered RETIRED. -/
def Obligations.EndAndRetirement : Prop :=
  (∀ (S : Bool) (s : State), (s.core s.cur).system = false → (s.core s.cur).tw = false → (s.core s.cur).replay = [] →
    (isMemCore s.cur = true ∨ ∀ h : Fin 32, (s.core s.cur).slice.holders[h] ≠ .program) →
    ∃ t, exec (.endGroup S) s = .next t ∧ OnlyCore s t s.cur ∧
      t.core s.cur = { s.core s.cur with
        run := .retiring
        issue := { (s.core s.cur).issue with
          preempt := none, answered := (s.core s.cur).issue.answered ++ (s.core s.cur).issue.preempt.toList, settle := true } }) ∧
  ∀ (c : CoreId) (s : State), 
    let x := s.core c
    let ended : Prop := x.run = .retiring ∧ x.settled = true ∧ x.drained = true ∧ x.issue.faults = [] ∧ x.issue.trapWait = none
    (¬ ended → exec (.coreRetire c) s = .next s) ∧
    (ended →
      ∃ t, exec (.coreRetire c) s = .next t ∧
        t.core c = { x with
          run := .stopped, channels := [], gen := Vector.replicate 4 Reg.zero
          sys := { x.sys with status := x.sys.status &&& 0xFFFF_FFFF, stream := Vector.replicate 4 0 } } ∧
        t = { s with cores := t.cores, gangs := t.gangs } ∧ (∀ d, coreKey d ≠ coreKey c → t.core d = s.core d) ∧
        (x.gang = none → t.gangs = s.gangs) ∧
        ∀ n, x.gang = some n → t.gangs = s.gangs.map (fun g => if g.id = n then { g with retired := c :: g.retired } else g))

/-- R115: `trap` (opcode 0x1F, U format, d = 0) raises SYSCALL and `brk` (opcode 0x6D) BREAK, at either level: TRAPVAL receives imm19
zero-extended, TRAPPC the address of the following word; `trap 5` is 0x1F00_0005 and `brk 0x7_FFFF` is 0x6D07_FFFF; a nonzero d field raises
ILLEGAL, as no instruction has such a word. The trap enters at once where nothing delays it, here outside a loop body. -/
def Obligations.TrapAndBreak : Prop :=
  (∀ (S : Bool) (i : BitVec 19) (s : State), TrapFree s s.cur → (s.core s.cur).replay = [] → (s.core s.cur).issue.loopCopy = none →
    let trapped (code : Nat) (t : State) : Prop :=
      TrapTaken s t s.cur code (i.setWidth 64) ((s.core s.cur).pc + 4)
    (∃ t, exec (.trap S i) s = .next t ∧ trapped 0x0D t) ∧ ∃ t, exec (.brk S i) s = .next t ∧ trapped 0x0E t) ∧
  (∀ (S : Bool) (i : BitVec 19), encodeWord (.trap S i) = some (BitVec.ofBool S ++ (0x1F#7 ++ (0#5 ++ i))) ∧
    encodeWord (.brk S i) = some (BitVec.ofBool S ++ (0x6D#7 ++ (0#5 ++ i)))) ∧
  encodeWord (.trap false 5) = some 0x1F00_0005 ∧ encodeWord (.brk false 0x7FFFF) = some 0x6D07_FFFF ∧
  ∀ (S : Bool) (d : BitVec 5) (i : BitVec 19) (w2 : BitVec 32), d ≠ 0 →
    (∃ e, decode (BitVec.ofBool S ++ (0x1F#7 ++ (d ++ i))) w2 = .error e) ∧
    ∃ e, decode (BitVec.ofBool S ++ (0x6D#7 ++ (d ++ i))) w2 = .error e

/-- R83, R85-R87, R90, R104: operand values beyond an instruction's limits raise ILLEGAL, TRAPVAL the word: a shift immediate above 63, a
condition above 7, a tag condition with b ≠ 0, and a field of no bits or beyond bit 63. -/
def Obligations.OperandLimits : Prop :=
  ∀ (S : Bool) (d a b c : BitVec 5) (i : BitVec 14) (n : BitVec 4) (o : BitVec 10) (k : BitVec 3) (l : BitVec 6) (w : BitVec 7) (s : State),
    TrapFree s s.cur →
    let illegal (j : Instr) : Prop := ∃ t, exec j s = .next t ∧
      TrapTaken s t s.cur 0x01 ((s.issuingWord s.cur).setWidth 64) (s.core s.cur).pc
    (64 ≤ i.toNat → illegal (.shli S d a i) ∧ illegal (.shri S d a i) ∧ illegal (.srai S d a i)) ∧
    (8 ≤ n.toNat → illegal (.csel S d a b c n)) ∧
    (8 ≤ n.toNat ∨ 6 ≤ n.toNat ∧ b ≠ 0 → illegal (.br S a b n o) ∧ illegal (.skip S a b n k)) ∧
    (w.toNat = 0 ∨ 64 < l.toNat + w.toNat → illegal (.bfx S d a l w) ∧ illegal (.bfxz S d a l w) ∧ illegal (.bins S d a l w))

/-! ## Capabilities -/

/-- R93: the getters of opcode 0x20: cursor, base, length, permissions, space, owner and tag of a tagged g_a; of an untagged one the
low 57 bits as cursor and otherwise 0; `ccopy` copies the register with its tag, `cstrip` its word 0 untagged. They never fault. -/
def Obligations.CapabilityFields : Prop :=
  ∀ p ∈ ([(Instr.creadCur, fun r v => v = ⟨false, 0, BitVec.ofNat 64 (r.w0.toNat % 2 ^ 57)⟩),
      (Instr.creadBase, fun r v => v = ⟨false, 0, if r.tag then BitVec.ofInt 64 r.base else 0⟩),
      (Instr.creadLen, fun r v => v = ⟨false, 0, if r.tag then BitVec.ofNat 64 (r.LN * 2 ^ r.SH) else 0⟩),
      (Instr.creadPerm, fun r v => v = ⟨false, 0, if r.tag then (r.w0.extractLsb' 59 5).setWidth 64 else 0⟩),
      (Instr.creadSpace, fun r v => v = ⟨false, 0, if r.tag then (r.w0.extractLsb' 57 2).setWidth 64 else 0⟩),
      (Instr.creadOwner, fun r v => v = ⟨false, 0, if r.tag then (r.w1.extractLsb' 52 11).setWidth 64 else 0⟩),
      (Instr.creadTag, fun r v => v = ⟨false, 0, if r.tag then 1 else 0⟩),
      (Instr.ccopy, fun r v => v = r), (Instr.cstrip, fun r v => v = ⟨false, 0, r.w0⟩)] :
      List ((Bool → BitVec 5 → BitVec 5 → Instr) × (Reg → Reg → Prop))),
  ∀ (S : Bool) (d a : BitVec 5) (s : State), s.unbound d → s.plain a →
    ∃ t v, exec (p.1 S d a) s = .next t ∧ RegisterWord S d v 1 s t ∧ p.2 (s.greg a) v

/-- R94: `cshift` (opcode 0x21, R format, fn 0) and `cshifti` (opcode 0x22, I format) move the cursor by inc, g_b [63:0] signed or sext(imm14),
modulo 2^57. A tagged operand whose new cursor is representable (R55) keeps tag, word 1, base and top; any other result is untagged,
with bits [63:57] of word 0 kept. Neither faults. -/
def Obligations.CursorMoves : Prop :=
  ∀ (S : Bool) (d a b : BitVec 5) (i : BitVec 14) (s : State), s.unbound d → s.plain a → s.plain b →
    let v := s.greg a
    let moved (inc : Int) (r : Reg) : Prop :=
      (r.w0.toNat % 2 ^ 57 : Int) = (v.w0.toNat % 2 ^ 57 + inc) % 2 ^ 57 ∧ r.w0.extractLsb' 57 7 = v.w0.extractLsb' 57 7 ∧
      (v.tag = true ∧ v.base ≤ r.cursor ∧ (r.cursor : Int) < v.base + 2 ^ (v.SH + 23) →
        r.tag = true ∧ r.w1 = v.w1 ∧ r.base = v.base ∧ r.top = v.top) ∧
      (¬ (v.tag = true ∧ v.base ≤ r.cursor ∧ (r.cursor : Int) < v.base + 2 ^ (v.SH + 23)) → r.tag = false ∧ r.w1 = 0)
    encodeWord (.cshift S d a b) = some (BitVec.ofBool S ++ (0x21#7 ++ (d ++ (a ++ (b ++ 0#9))))) ∧
    encodeWord (.cshifti S d a i) = some (BitVec.ofBool S ++ (0x22#7 ++ (d ++ (a ++ i)))) ∧
    (∃ t r, exec (.cshift S d a b) s = .next t ∧ RegisterWord S d r 1 s t ∧ moved (s.gword b).toInt r) ∧
    ∃ t r, exec (.cshifti S d a i) s = .next t ∧ RegisterWord S d r 1 s t ∧ moved i.toInt r

/-- R95, R96: `cnarrow` of a tagged g_a to len = g_b [63:0] bytes at its cursor keeps word 0 and owner and takes the region rounded out
to the smallest granule as its bounds, which lie within the source's; where the requested or the rounded region does not, it
raises CAPBOUND, TRAPVAL the cursor. `cmask` keeps of the permissions those of its mask and changes nothing else. Both raise CAPTAG on
an untagged g_a, TRAPVAL its word 0. -/
def Obligations.NarrowingNeverWidens : Prop :=
  ∀ (S : Bool) (d a b m : BitVec 5) (s : State), s.unbound d → s.plain a → s.plain b →
    let v := s.greg a
    let traps (i : Instr) (code : Nat) (val : Word) : Prop := TrapFree s s.cur → ∃ t, exec i s = .next t ∧
      TrapTaken s t s.cur code val (s.core s.cur).pc
    (∀ e, v.tag = true → Granule v.cursor (s.gword b).toNat e →
      let len := (s.gword b).toNat
      let lo := v.cursor / 2 ^ e * 2 ^ e
      let hi := (v.cursor + len + 2 ^ e - 1) / 2 ^ e * 2 ^ e
      let inside : Prop := len ≤ 2 ^ 57 - v.cursor ∧ v.base ≤ v.cursor ∧ (v.cursor : Int) + len ≤ v.top ∧
        v.base ≤ lo ∧ (hi : Int) ≤ v.top
      (inside → ∃ t r, exec (.cnarrow S d a b) s = .next t ∧ RegisterWord S d r 1 s t ∧ r.tag = true ∧ r.w0 = v.w0 ∧
        r.owner = v.owner ∧ r.base = lo ∧ r.top = hi ∧ r.SH = e) ∧
      (¬ inside → traps (.cnarrow S d a b) 0x04 (BitVec.ofNat 64 v.cursor))) ∧
    (v.tag = true → ∃ t r, exec (.cmask S d a m) s = .next t ∧ RegisterWord S d r 1 s t ∧ r.tag = true ∧ r.w1 = v.w1 ∧
      r.w0.extractLsb' 0 59 = v.w0.extractLsb' 0 59 ∧ r.w0.extractLsb' 59 5 = v.w0.extractLsb' 59 5 &&& m) ∧
    (v.tag = false → traps (.cnarrow S d a b) 0x03 v.w0 ∧ traps (.cmask S d a m) 0x03 v.w0)

/-- R97, R98, R99: `cspace` gives the region code of g_a's address, the own-slice and own-cluster bits, the tag, and whether the space
agrees; `ccast` leaves a tagged capability of the target space, moves a scratch or cluster capability to the global window and a
global one within the executing core's own scratch area or cluster memory back, and gives null otherwise (a memory core too keeps a
capability of the space asked for: log 20). -/
def Obligations.ClassesAndCasts : Prop :=
  ∀ (S : Bool) (d a : BitVec 5) (z : BitVec 2) (s : State), s.unbound d → s.plain a →
    let v := s.greg a
    let privsz := (s.core s.cur).sys.privsz.toNat
    let G := 0x100_0000_0000
    let comp : Prop := isMemCore s.cur = false
    let k := coreIndex s.cur
    let q := clusterOf s.cur
    let code : Nat :=
      if 0x20_0000 ≤ v.cursor ∧ v.cursor < 0x20_0000 + privsz then 0
      else if comp ∧ 0x40_0000 + privsz ≤ v.cursor ∧ v.cursor < 0x60_0000 then 1
      else if comp ∧ 0x80_0000 ≤ v.cursor ∧ v.cursor < 0xC0_0000 then 2
      else if G ≤ v.cursor ∧ v.cursor < G + 0x1_2000_0000 then 3
      else if 0x1_0000_0000_0000 ≤ v.cursor ∧ v.cursor < 0x200_0000_0000_0000 then 4 else 15
    let own : Prop := comp ∧ G + k * 0x20_0000 ≤ v.cursor ∧ v.cursor < G + (k + 1) * 0x20_0000 ∧ k < 2048
    let ownCluster : Prop := comp ∧ G + 0x1_0000_0000 + q * 0x40_0000 ≤ v.cursor ∧
      v.cursor < G + 0x1_0000_0000 + (q + 1) * 0x40_0000 ∧ k < 2048
    let moved (delta : Int) (owner : Nat) (r : Reg) : Prop :=
      r.tag = true ∧ r.space = z.toNat ∧ r.owner = owner ∧ r.SH = v.SH ∧ r.LN = v.LN ∧
      (r.w0.extractLsb' 59 5 = v.w0.extractLsb' 59 5) ∧ (r.cursor : Int) = (v.cursor + delta) % 2 ^ 57 ∧
      (r.AN : Int) = (v.base + delta) / 2 ^ v.SH % 2 ^ 23
    (k < 2048 → ∃ t w, exec (.cspace S d a) s = .next t ∧ RegisterWord S d ⟨false, 0, w⟩ 1 s t ∧ w.toNat % 16 = code ∧
      (w.getLsbD 4 = true ↔ own ∧ code = 3) ∧ (w.getLsbD 5 = true ↔ ownCluster ∧ code = 3) ∧ w.getLsbD 6 = v.tag ∧
      (w.getLsbD 7 = true ↔ v.tag = true ∧ code ≠ 15 ∧ v.space = if code = 4 then 3 else code) ∧ w.toNat < 256) ∧
    ∃ t r, exec (.ccast S d a z) s = .next t ∧ RegisterWord S d r 1 s t ∧
      let toGlobal1 : Prop := comp ∧ v.space = 1 ∧ z = 3
      let toGlobal2 : Prop := comp ∧ v.space = 2 ∧ z = 3
      let toScratch : Prop := comp ∧ v.space = 3 ∧ z = 1 ∧ (G + k * 0x20_0000 + privsz : Int) ≤ v.base ∧
        v.top ≤ (G + (k + 1) * 0x20_0000 : Int)
      let toCluster : Prop := comp ∧ v.space = 3 ∧ z = 2 ∧ (G + 0x1_0000_0000 + q * 0x40_0000 : Int) ≤ v.base ∧
        v.top ≤ (G + 0x1_0000_0000 + (q + 1) * 0x40_0000 : Int)
      (v.tag = true → v.space = z.toNat → r = v) ∧
      (v.tag = true → toGlobal1 → moved (G + v.owner * 0x20_0000 - 0x40_0000) v.owner r) ∧
      (v.tag = true → toGlobal2 → moved (G + 0x1_0000_0000 + q * 0x40_0000 - 0x80_0000) v.owner r) ∧
      (v.tag = true → toScratch → moved (-(G + k * 0x20_0000 - 0x40_0000)) (k % 2048) r) ∧
      (v.tag = true → toCluster → moved (-(G + 0x1_0000_0000 + q * 0x40_0000 - 0x80_0000)) (k % 2048) r) ∧
      (v.tag = false ∨ v.space ≠ z.toNat ∧ ¬ toGlobal1 ∧ ¬ toGlobal2 ∧ ¬ toScratch ∧ ¬ toCluster → r = Reg.zero)

/-- R100: `cderive` at system level makes a tagged capability from an image of word 0 and an owner and length, its base the cursor
rounded out with the length to the smallest granule, where that region lies within the windows of the space, and else raises CAPBOUND,
TRAPVAL the cursor; at program level it raises PRIV, TRAPVAL the word. -/
def Obligations.CapabilityDerivation : Prop :=
  ∀ (S : Bool) (d a b : BitVec 5) (s : State), s.unbound d → s.plain a → s.plain b →
    let x := s.gword a
    let cursor := x.toNat % 2 ^ 57
    let len := (s.gword b).toNat % 2 ^ 53
    let traps (code : Nat) (val : Word) : Prop := TrapFree s s.cur → ∃ t, exec (.cderive S d a b) s = .next t ∧
      TrapTaken s t s.cur code val (s.core s.cur).pc
    ((s.core s.cur).system = false → traps 0x02 ((s.issuingWord s.cur).setWidth 64)) ∧
    ∀ e, (s.core s.cur).system = true → Granule cursor len e →
      let lo := cursor / 2 ^ e * 2 ^ e
      let hi := (cursor + len + 2 ^ e - 1) / 2 ^ e * 2 ^ e
      let inside : Prop := match x.toNat / 2 ^ 57 % 4 with
        | 0 => 0x20_0000 ≤ lo ∧ hi ≤ 0x40_0000
        | 1 => 0x40_0000 ≤ lo ∧ hi ≤ 0x60_0000
        | 2 => 0x80_0000 ≤ lo ∧ hi ≤ 0xC0_0000
        | _ => 0x100_0000_0000 ≤ lo ∧ hi ≤ 0x101_2000_0000 ∨ 0x1_0000_0000_0000 ≤ lo ∧ hi ≤ 0x200_0000_0000_0000
      (inside → ∃ t r, exec (.cderive S d a b) s = .next t ∧ RegisterWord S d r 1 s t ∧ r.tag = true ∧ r.w0 = x ∧
        r.owner = (s.gword b).toNat / 2 ^ 53 ∧ r.base = lo ∧ r.top = hi ∧ r.SH = e ∧ r.w1.getLsbD 63 = false) ∧
      (¬ inside → traps 0x04 (BitVec.ofNat 64 cursor))

/-! ## Memory -/

/-- R72, R165-R167: a load that passes its checks. From the executing core's own slice or scratchpad, with no other access in flight, it
gives the bytes at its home, extended, after 4 cycles. From elsewhere it joins the core's accesses, its result still to return to
g_d (that `ld.c` keeps the tag only of a capability whose base is not negative is the model's: log 67). -/
def Obligations.LoadResults : Prop :=
  ∀ p ∈ loadForms, ∀ (S : Bool) (d b : BitVec 5) (o : BitVec 14) (s : State) (q : Place), s.unbound d → s.plain b →
    let x := s.core s.cur
    AccessOk s (s.greg b) (o.toInt * p.2.1) p.2.1 p.2.1 p.2.2.1 false false q →
    (q.own = true → x.ops = [] → s.module.recovering = [] →
      ∃ t, exec (p.1 S d b o) s = .next t ∧ RegisterWord S d (p.2.2.2.2 (s.tagAt q.home) (s.num q.home p.2.1)) 4 s t) ∧
    (q.own = false → x.ungated →
      ∃ t op, exec (p.1 S d b o) s = .next t ∧ Issued S x op s t ∧ op.kind = p.2.2.2.1 ∧ op.home = q.home ∧
        op.size = p.2.1 ∧ op.dst = (if d = 0 then none else some d.toNat) ∧ op.near = q.near ∧ op.due = some (s.now s.cur + 2))

/-- R166, R167, R171, R182: a store that passes its checks, with fewer than 16 stores in the buffer, enters it with the data of g_d at
the home of its address (that the append of a `launch` has a place in the buffer from its issue on is the model's choice: log 92); a store to the own slice performs 4 cycles later. A fence that no replay entry or beat delays stands in the list
of accesses until those before it have performed, and in a timed window it only takes its cycle (R195); memory changes in neither. -/
def Obligations.StoresAndFencesIssue : Prop :=
  (∀ p ∈ storeForms, ∀ (S : Bool) (d b : BitVec 5) (o : BitVec 14) (s : State) (q : Place), s.plain d → s.plain b →
    let x := s.core s.cur
    AccessOk s (s.greg b) (o.toInt * p.2.1) p.2.1 p.2.1 p.2.2.1 true false q → x.ungated →
    (x.ops.filter MemOp.inBuffer).length < 16 →
    ∃ t op, exec (p.1 S d b o) s = .next t ∧ Issued S x op s t ∧ op.kind = p.2.2.2.1 (s.greg d).tag ∧ op.home = q.home ∧
      op.size = p.2.1 ∧ op.data = p.2.2.2.2 (s.greg d) ∧ op.dst = none ∧ op.near = q.near ∧
      op.due = some (if q.own then s.now s.cur + 4 else s.now s.cur)) ∧
  ∀ (S : Bool) (p : BitVec 4) (s : State), 1 ≤ p.toNat → p.toNat ≤ 6 → (s.core s.cur).replay = [] → (s.core s.cur).beatsPlaced = true →
    let x := s.core s.cur
    let fenced (i : Instr) (kind scope : Nat) : Prop := (x.tw = true → ∃ t, exec i s = .next t ∧ Passed S 0 s t) ∧
      (x.tw = false → ∃ t op, exec i s = .next t ∧ WordDone S 1 s t ∧ OnlyCore s t s.cur ∧
        op.kind = .fence kind scope ∧ op.value = none ∧
        OnlyPassed { x with ops := pruneFences s.cur [] (x.ops ++ [op]) } (t.core s.cur))
    fenced (.fenceSl S) 0 0 ∧ fenced (.fenceAcq S p) 1 p.toNat ∧ fenced (.fenceRel S p) 2 p.toNat ∧ fenced (.fenceFull S p) 3 p.toNat

/-- R169, R170: an operation of the atomic group that passes its checks, at an address of SRAM or, on a memory core, one that its TLB
translates, joins the core's accesses at the home of that address, with the data of g_b and, for `cas`, the expected value of g_d;
its result is still to return. A release enters the store buffer (of 16, the appends of launches among them: log 92, the model's choice). In a timed window an acquire is complete in one cycle, with what the own
slice holds, and a release is a store to it (R195). -/
def Obligations.AtomicsIssue : Prop :=
  ∀ (S : Bool) (d a b : BitVec 5) (z : BitVec 1) (c : BitVec 4) (home : Nat) (s : State), s.plain d → s.plain a → s.plain b →
    let x := s.core s.cur
    let n : Nat := if z = 0 then 4 else 8
    let reaches (perm : Reg → Bool) (isStore : Bool) (need : Need) (near own : Bool) (y : Core) : Prop := ∃ q : Place,
      AccessOk s (s.greg a) 0 n n perm isStore (isMemCore s.cur) q ∧ q.near = near ∧ q.own = own ∧
      (q.external = false ∧ home = q.home ∧ y = x ∨ q.external = true ∧ (∀ v, x.issue.wait ≠ .walkFailed v) ∧
        (∀ e ∈ x.replay, ¬ (e.va < q.resolved + n ∧ q.resolved < e.va + 8)) ∧ x.translated.length < 512 ∧
        ∃ e, tlbHit x.tlb x.context q.resolved need = some e ∧ s.mappable (e.pa q.resolved) n = true ∧
          home = s.physHome (e.pa q.resolved) ∧ y = x.uses s.nextId q.resolved e)
    let result : Option Nat := if d = 0 then none else some d.toNat
    x.ungated → 
    (∀ p ∈ ([(Instr.amoAdd, 0), (Instr.amoAnd, 1), (Instr.amoOr, 2), (Instr.amoXor, 3), (Instr.amoSwap, 4), (Instr.amoSmax, 5),
        (Instr.amoSmin, 6), (Instr.amoCas, 7)] : List ((Bool → BitVec 5 → BitVec 5 → BitVec 5 → BitVec 1 → Instr) × Nat)),
      ∀ near own y, reaches (fun r => r.permR && r.permW) true .update near own y →
      ∃ t op, exec (p.1 S d a b z) s = .next t ∧ Issued S y op s t ∧
        op.kind = .amo p.2 ((s.gword d).toNat % 256 ^ n) ∧ op.home = home ∧ op.size = n ∧ op.data = (s.gword b).toNat % 256 ^ n ∧
        op.dst = result ∧ op.near = near ∧ op.due = some (s.now s.cur + 2)) ∧
    (1 ≤ c.toNat → c.toNat ≤ 6 → x.tw = false → ∀ near own y, reaches Reg.permR false .read near own y →
      ∃ t op, exec (.ldAcq S d a z c) s = .next t ∧ Issued S y op s t ∧ op.kind = .loadAcq c.toNat ∧
        op.home = home ∧ op.size = n ∧ op.dst = result ∧ op.near = near ∧ op.due = some (s.now s.cur + 2)) ∧
    (1 ≤ c.toNat → c.toNat ≤ 6 → x.tw = true → x.ops = [] → s.module.recovering = [] → ∀ near, reaches Reg.permR false .read near true x →
      ∃ t, exec (.ldAcq S d a z c) s = .next t ∧ RegisterWord S d ⟨false, 0, if z = 0 then (BitVec.ofNat 32 (s.num home 4)).signExtend 64
        else BitVec.ofNat 64 (s.num home 8)⟩ 1 s t) ∧
    (1 ≤ c.toNat → c.toNat ≤ 6 → (x.ops.filter MemOp.inBuffer).length < 16 → (x.tw = false → x.replay = [] ∧ x.beatsPlaced = true) →
      ∀ near own y, reaches Reg.permW true .write near own y →
      ∃ t op, exec (.stRel S a b z c) s = .next t ∧ Issued S y op s t ∧ op.kind = (if x.tw then .store else .storeRel c.toNat) ∧ op.home = home ∧ op.size = n ∧
        op.data = (s.gword b).toNat % 256 ^ n ∧ op.dst = none ∧ op.near = near ∧
        op.due = some (if own then s.now s.cur + 4 else s.now s.cur))

/-- R166-R169, R180, R183: an access of a core that is due and that nothing before it holds back performs at its home. A store writes
its bytes, and a capability's tag with `st.c`; an atomic operation reads the old bytes and writes the new value of its row
(`cas` only where old is the expected value), with nothing in between, and keeps old, extended, for its register; no other byte or
tag changes. A store to the own slice behind a near one goes no sooner than the cycle after it (R182), and the slice notes what its own
port has written (R126). The result returns to its register, later than which it has not been written, or at system level to the
capability of the generator that the register is bound to (R62). -/
def Obligations.AccessesPerform : Prop :=
  ∀ (c : CoreId) (o : MemOp) (s : State), c.wf = true → s.wf = true → (s.core c).ops.find? (fun p => p.id = o.id) = some o → 0 < o.size →
    (∀ t, o.due = some t → t ≤ s.now c) → s.recovers o.home o.size = false → s.ownWrote c o = false →
    (∀ k, c = .comp k → s.partner k = none) →
    let x := s.core c
    let later (p : MemOp) : MemOp := if o.kind.buffered = true ∧ o.near = true ∧ p.kind.buffered = true ∧ o.id < p.id ∧ ownHome c p.home = true then
      { p with due := p.due.map (fun t => max t (s.now c + 1)) } else p
    let left (l : List MemOp) (t : State) : Prop :=
      t.core c = { x with ops := pruneFences c [] (l.map later), slice := { x.slice with written := (t.core c).slice.written } } ∧
      (ownHome c o.home = true → (∃ k, c = .comp k) → (t.core c).slice.written.1 = s.now c ∧
        ∃ w ∈ (t.core c).slice.written.2, w.home = o.home ∧ w.data = t.bytes o.home o.size) ∧
      t = { s with cores := t.cores, mem := t.mem, tags := t.tags } ∧ ∀ d, coreKey d ≠ coreKey c → t.core d = s.core d
    let gone := x.ops.filter (fun p => p.id ≠ o.id)
    let kept (v : Reg) := x.ops.map (fun p => if p.id = o.id then { p with value := some v } else p)
    let old := s.num o.home o.size
    let sold := (BitVec.ofNat (8 * o.size) old).toInt
    let sdata := (BitVec.ofNat (8 * o.size) o.data).toInt
    (o.value = none → mayPerform c (opsBefore x.ops o.id) o = true →
      (o.kind = .store ∨ o.kind = .direct ∨ (∃ p, o.kind = .storeRel p) → ∃ t, exec (.storePerform c o.id) s = .next t ∧ left gone t ∧
        BytesWritten s t o.home (leBytes o.size o.data) false) ∧
      (∀ g, o.kind = .storeCap g → o.size = 16 → o.home % 16 = 0 → ∃ t, exec (.storePerform c o.id) s = .next t ∧ left gone t ∧
        BytesWritten s t o.home (leBytes 16 o.data) g) ∧
      ∀ op ex, o.kind = .amo op ex → op < 8 → o.size = 4 ∨ o.size = 8 → o.data < 256 ^ o.size →
        ∃ t, exec (.storePerform c o.id) s = .next t ∧
          left (kept ⟨false, 0, if o.size = 4 then (BitVec.ofNat 32 old).signExtend 64 else BitVec.ofNat 64 old⟩) t ∧
          (op = 7 ∧ old ≠ ex → t.mem = s.mem ∧ t.tags = s.tags) ∧
          (op ≠ 7 ∨ old = ex → BytesWritten s t o.home (leBytes o.size (match op with
            | 0 => old + o.data
            | 1 => old &&& o.data
            | 2 => old ||| o.data
            | 3 => old ^^^ o.data
            | 5 => if sdata ≤ sold then old else o.data
            | 6 => if sold ≤ sdata then old else o.data
            | _ => o.data)) false)) ∧
    ∀ v d, o.value = some v → o.kind ≠ .deposit → o.dst = some d → d < 32 →
      ∃ t, exec (.loadReturn c o.id) s = .next t ∧ OnlyCore s t c ∧ (d ≠ 0 → x.viewOf d = none → (t.core c).reg d = v) ∧
        (∀ r, r ≠ d ∨ x.viewOf d ≠ none → (t.core c).reg r = x.reg r) ∧
        (t.core c).gen = (match x.viewOf d with | some n => x.gen.setIfInBounds n v | none => x.gen) ∧
        t.core c = { x with
          g := (t.core c).g, gen := (t.core c).gen, ops := (t.core c).ops, vq := (t.core c).vq
          issue := { x.issue with regReady := if d = 0 then x.issue.regReady else mapErase x.issue.regReady d } }

/-- R165, R104: the first check that a load or a store fails raises its cause precisely, TRAPVAL the address formed, with no effect: no tag,
no permission, bytes outside the bounds, another core's aliased space, a window rule of R129, an address off its size. -/
def Obligations.AccessChecksTrap : Prop :=
  ∀ p ∈ loadForms.map (fun p => (p.1, p.2.1, p.2.2.1, false)) ++ storeForms.map (fun p => (p.1, p.2.1, p.2.2.1, true)),
  ∀ (S : Bool) (d b : BitVec 5) (o : BitVec 14) (s : State), s.plain d → s.plain b → TrapFree s s.cur → (s.core s.cur).acquiring = false →
    let r := s.greg b
    let a : Int := (r.cursor : Int) + o.toInt * p.2.1
    let traps (code : Nat) : Prop := ∃ t, exec (p.1 S d b o) s = .next t ∧
      TrapTaken s t s.cur code (BitVec.ofInt 64 a) (s.core s.cur).pc
    let inside : Prop := r.base ≤ a ∧ a + p.2.1 ≤ r.top
    let mine : Prop := r.space < 2 → r.owner = coreIndex s.cur
    let window := s.resolve s.cur (s.core s.cur).system a p.2.1 (if p.2.2.2 then .plain else .no) false
    (r.tag = false → traps 0x03) ∧
    (r.tag = true → p.2.2.1 r = false → traps 0x05) ∧
    (r.tag = true → p.2.2.1 r = true → ¬ inside → traps 0x04) ∧
    (r.tag = true → p.2.2.1 r = true → inside → ¬ mine → traps 0x06) ∧
    (∀ e, r.tag = true → p.2.2.1 r = true → inside → mine → window = .error e → traps e) ∧
    (∀ q, r.tag = true → p.2.2.1 r = true → inside → mine → window = .ok q → a.toNat % p.2.1 ≠ 0 → traps 0x07)

/-- R172, R173: `sbind` at program level binds generator n to g_d (24 to 31): the capability of g_a, the descriptor g_b, and a STATUS byte of
bound, direction, size and register, STREND clear. `sunbind` gives the generator's capability back to its register and clears byte and
descriptor. Both stall while an append of the generator that a `launch` will make has not entered the store buffer (that this append
is one from the issue of its `launch` on is the model's choice: log 92). -/
def Obligations.StreamBinding : Prop :=
  ∀ (S : Bool) (d a b : BitVec 5) (n : BitVec 2) (r : BitVec 1) (z : BitVec 2) (s : State), 24 ≤ d.toNat →
    (s.core s.cur).system = false →
    let x := s.core s.cur
    let bytes (v : Nat) (t : State) : Prop := ∀ m, m < 4 → (t.core s.cur).streamByte m = if m = n.toNat then v else x.streamByte m
    let pending (r : Nat) : Prop := ∃ o ∈ x.ops, o.isAppend = true ∧ o.dst = some r
    let bound : Prop := x.streamByte n.toNat / 128 = 1
    let boundTo : Nat := x.streamByte n.toNat % 8 + 24
    let stalls (i : Instr) : Prop := ∃ t, exec i s = .next t ∧ OnlyCore s t s.cur ∧
      t.core s.cur = { x with issue := { x.issue with readyAt := s.now s.cur + 1 } }
    (s.plain a → s.plain b → (∀ m, x.genOf d.toNat = some m → m = n.toNat) → (s.greg a).tag = true →
      (if r = 0 then (s.greg a).permR else (s.greg a).permW) = true → (s.greg a).cursor % 2 ^ z.toNat = 0 →
      (s.gword b).toNat % 2 ^ 32 % 2 ^ z.toNat = 0 →
      (bound → pending boundTo → stalls (.sbind S d a b n r z)) ∧
      (¬ (bound ∧ pending boundTo) → ∃ t, exec (.sbind S d a b n r z) s = .next t ∧ WordDone S 1 s t ∧ OnlyCore s t s.cur ∧
        bytes (128 + 64 * r.toNat + 16 * z.toNat + (d.toNat - 24)) t ∧
        (t.core s.cur).sys.status.extractLsb' 0 32 = x.sys.status.extractLsb' 0 32 ∧
        OnlyPassed { x with
          gen := x.gen.setIfInBounds n.toNat (s.greg a)
          sys := { x.sys with
            stream := x.sys.stream.setIfInBounds n.toNat (s.gword b), status := (t.core s.cur).sys.status } } (t.core s.cur))) ∧
    (bound → boundTo = d.toNat → pending boundTo → stalls (.sunbind S d n)) ∧
    (bound → boundTo = d.toNat → ¬ pending boundTo →
      ∃ t, exec (.sunbind S d n) s = .next t ∧ WordDone S 1 s t ∧ OnlyCore s t s.cur ∧ bytes 0 t ∧
        (t.core s.cur).sys.status.extractLsb' 0 32 = x.sys.status.extractLsb' 0 32 ∧
        OnlyRegister { x with sys := { x.sys with
          stream := x.sys.stream.setIfInBounds n.toNat 0, status := (t.core s.cur).sys.status } } (t.core s.cur) d ∧
        Wrote s t d (x.gen.toList.getD n.toNat Reg.zero) 1)

/-- R109, R174, R175: `balloc` gives the lowest handle that no context holds, marks it held by the current level, clears its OVF bit and
its cells, which count as zeroed from 16 cycles later; with all held it gives all ones and changes nothing. `bfree` frees a handle
that the level holds once no command names it; any other handle is ILLEGAL. BANK_ZEROING_END ends the zeroing when its time has come. -/
def Obligations.BasinBanks : Prop :=
  ∀ (S : Bool) (d : BitVec 5) (s : State) (k : Nat), s.cur = .comp k →
    let x := s.core s.cur
    let holder (h : Nat) := x.slice.holders.toList.getD h .free
    let mine : Holder := if x.system then .system else .program
    (s.unbound d → (∀ h, h < 32 → holder h ≠ .free) →
      ∃ t, exec (.balloc S d) s = .next t ∧ RegisterWord S d ⟨false, 0, BitVec.allOnes 64⟩ 1 s t) ∧
    (∀ h, s.unbound d → h < 32 → holder h = .free → (∀ g, g < h → holder g ≠ .free) →
      ∃ t, exec (.balloc S d) s = .next t ∧ WordDone S 1 s t ∧ OnlyCore s t s.cur ∧ Wrote s t d ⟨false, 0, BitVec.ofNat 64 h⟩ 1 ∧
        OnlyRegister { x with
          sys := { x.sys with mstat := x.sys.mstat &&& ~~~(1#64 <<< (8 + h)) }
          slice := { x.slice with
            holders := x.slice.holders.setIfInBounds h mine
            zeroed := x.slice.zeroed.setIfInBounds h (s.now s.cur + 16)
            basin := x.slice.basin.filter (fun p => p.1 / 512 ≠ h) } } (t.core s.cur) d) ∧
    (s.plain d → (s.gword d).toNat < 32 → holder (s.gword d).toNat = mine → x.bankBusy k (s.gword d).toNat = false →
      ∃ t, exec (.bfree S d) s = .next t ∧ WordDone S 1 s t ∧ OnlyCore s t s.cur ∧
        OnlyPassed { x with slice := { x.slice with holders := x.slice.holders.setIfInBounds (s.gword d).toNat .free } }
          (t.core s.cur)) ∧
    (s.plain d → ¬ ((s.gword d).toNat < 32 ∧ holder (s.gword d).toNat = mine) → TrapFree s s.cur →
      ∃ t, exec (.bfree S d) s = .next t ∧ TrapTaken s t s.cur 0x01 ((s.issuingWord s.cur).setWidth 64) x.pc) ∧
    ∀ h, k < 2048 → h < 32 → ∃ t, exec (.bankZeroingEnd k h) s = .next t ∧ OnlyCore s t s.cur ∧
      let ends := if x.slice.zeroed.toList.getD h 0 ≤ s.now s.cur then x.slice.zeroed.setIfInBounds h 0 else x.slice.zeroed
      t.core s.cur = { x with slice := { x.slice with zeroed := ends } }

/-- R135, R138, R176-R179: on a memory core, `dld` from an external address that its TLB translates joins the accesses at the physical
address; `dst` with D set in the TLB and no entry for its page in the replay queue likewise, and else enters the replay queue of 16; `dfence` passes when
neither is outstanding. A waiting `dst` behind none of its page writes its eight bytes once the TLB translates its page; the walk of the
oldest, when the TLB translates none, enters the translation, or on a failure parks the entries of its
page, and the oldest parked one that has not been reported is an XLATE of the core. A walk for a word enters the translation and lets the waiting word go on; a walk serves those that wait on its page (the
cycles of the walks are the model's: log 14). -/
def Obligations.ExternalMemory : Prop :=
  ∀ (S : Bool) (d b : BitVec 5) (o : BitVec 14) (s : State) (m : Nat) (q : Place), s.cur = .mem m →
    let x := s.core s.cur
    let ready (isStore : Bool) : Prop := AccessOk s (s.greg b) (o.toInt * 8) 8 1 (if isStore then Reg.permW else Reg.permR) isStore true q ∧
      q.external = true ∧ q.resolved % 8 = 0 ∧ x.ungated ∧ x.translated.length < 512
    let behind : Prop := ∃ e ∈ x.replay, e.va / 4096 = q.resolved / 4096
    let hit (need : Need) (e : TlbEntry) : Prop := tlbHit x.tlb x.context q.resolved need = some e ∧ s.mappable (e.pa q.resolved) 8 = true
    (∀ e, s.unbound d → s.plain b → ready false → ¬ behind → (∀ v, x.issue.wait ≠ .walkFailed v) → hit .read e →
      ∃ t op, exec (.dld S d b o) s = .next t ∧ Issued S (x.uses s.nextId q.resolved e) op s t ∧ op.kind = .load false ∧
        op.home = s.physHome (e.pa q.resolved) ∧ op.size = 8 ∧ op.dst = (if d = 0 then none else some d.toNat) ∧ op.due = some (s.now s.cur + 2)) ∧
    (∀ e, s.plain d → s.plain b → ready true → ¬ behind → hit .write e →
      ∃ t op, exec (.dst S d b o) s = .next t ∧ Issued S (x.uses s.nextId q.resolved e) op s t ∧ op.kind = .direct ∧ op.home = s.physHome (e.pa q.resolved) ∧ op.size = 8 ∧
        op.data = (s.gword d).toNat) ∧
    (s.plain d → s.plain b → ready true → x.replay.length < 16 → (behind ∨ tlbHit x.tlb x.context q.resolved .write = none) →
      ∃ t, exec (.dst S d b o) s = .next t ∧ WordDone S 1 s t ∧ OnlyCore s t s.cur ∧
        OnlyPassed { x with replay := x.replay ++ [⟨q.resolved, s.gword d, false, false⟩] } (t.core s.cur)) ∧
    (x.replay = [] → (∀ o ∈ x.ops, o.kind ≠ .direct ∧ (o.kind = .load false → homeDie o.home ≠ 16)) →
      ∃ t, exec (.dfence S) s = .next t ∧ Passed S 0 s t) ∧
    (∀ (e : ReplayEntry) (l rest : List ReplayEntry), m < 128 → s.wf = true → x.replay = l ++ e :: rest → e.parked = false →
      (∀ f ∈ l, f.va / 4096 ≠ e.va / 4096) →
      let translated (f : ReplayEntry) := tlbHit x.tlb x.context f.va .write
      let first : Prop := (∀ f ∈ l, f.parked = true) ∧ ∀ f ∈ e :: rest, translated f = none
      (∀ r, translated e = some r → (∀ f ∈ l, f.parked = true ∨ translated f = none) → s.mappable (r.pa e.va) 8 = true → x.ops = [] → s.recovers (s.physHome (r.pa e.va)) 8 = false →
        ∃ t, exec (.replayWalkDone m) s = .next t ∧ BytesWritten s t (s.physHome (r.pa e.va)) (leBytes 8 e.data.toNat) false ∧
          t = { s with cores := t.cores, mem := t.mem, tags := t.tags } ∧ (∀ c, coreKey c ≠ coreKey s.cur → t.core c = s.core c) ∧
          t.core s.cur = { x with replay := l ++ rest }) ∧
      (∀ r u, first → s.fill (.memCore m) x.context e.va .write = some (r, u) →
        ∃ t, exec (.replayWalkDone m) s = .next t ∧ t.mem = u.mem ∧ (t.core s.cur).replay = x.replay ∧ r ∈ (t.core s.cur).tlb) ∧
      (first → s.fill (.memCore m) x.context e.va .write = none →
        let parked := x.replay.map (fun f => if f.va / 4096 = e.va / 4096 then { f with parked := true } else f)
        ∃ t, exec (.replayWalkDone m) s = .next t ∧ OnlyCore s t s.cur ∧
          t.core s.cur = { x with replay := parked, issue := { x.issue with faults := (t.core s.cur).issue.faults } } ∧
          ∀ f, parked.find? (fun f => f.parked && !f.told) = some f →
            ⟨0x09, BitVec.ofNat 64 f.va, none, 3, false, s.now s.cur⟩ ∈ (t.core s.cur).issue.faults)) ∧
    ∀ va need, m < 128 → x.issue.wait = .walk va need →
      (∀ r s', s.walk (m / 8) x.context va need = some (r, s') →
        ∃ t, exec (.translationWalk (.memCore m) va need) s = .next t ∧ t.mem = s'.mem ∧ (t.core s.cur).issue.wait = .none ∧
          r ∈ (t.core s.cur).tlb) ∧
      (s.walk (m / 8) x.context va need = none →
        ∃ t, exec (.translationWalk (.memCore m) va need) s = .next t ∧ t.mem = s.mem ∧ (t.core s.cur).tlb = x.tlb ∧
          (t.core s.cur).issue.wait = .walkFailed va)

/-! ## Vector words -/

/-- R207, R263, R274, R275: on a compute core with fewer than 32 vector words queued, every vector word takes its operands (mask, index, VL)
and enters the vector queue; a `vld` or `vst` whose whole extent passes its checks leaves a mark among the core's accesses;
`vsetvl` sets VL to g_a held between 1 and 64 at once. -/
def Obligations.VectorWordsIssue : Prop :=
  ∀ (S : Bool) (d a b : BitVec 4) (m g h : BitVec 5) (t : BitVec 2) (n : BitVec 5) (u : BitVec 1) (f : BitVec 4) (s : State),
    isMemCore s.cur = false → (s.core s.cur).vq.length < 32 → s.plain m → s.plain g → s.plain h →
    let x := s.core s.cur
    let mask : Option Word := if m = 0 then none else some (s.gword m)
    let queued (i : Instr) (mask : Option Word) (p r : Word) : Prop := ∃ t e, exec i s = .next t ∧ Queued S x e s t ∧ e.instr = i ∧
      e.mask = mask ∧ e.x = p ∧ e.y = r ∧ e.dst = none
    let answers (i : Instr) (p : Word) : Prop := ∃ t e, exec i s = .next t ∧ Queued S x e s t ∧ e.instr = i ∧
      e.mask = none ∧ e.x = p ∧ e.dst = if g = 0 then none else some g.toNat
    (t.toNat < 3 → ∀ i ∈ [Instr.vintAdd S d a b m t, .vintSub S d a b m t, .vintAdds S d a b m t, .vintSubs S d a b m t,
      .vintMul S d a b m t, .vintMulh S d a b m t, .vintMin S d a b m t, .vintMax S d a b m t, .vintMinu S d a b m t,
      .vintMaxu S d a b m t, .vintAnd S d a b m t, .vintOr S d a b m t, .vintXor S d a b m t, .vintShl S d a b m t,
      .vintShr S d a b m t, .vintSra S d a b m t, .vintAbs S d a m t, .vintNeg S d a m t], queued i mask 0 0) ∧
    (∀ i ∈ [Instr.vfpAdd S d a b m, .vfpSub S d a b m, .vfpMul S d a b m, .vfpFma S d a b m, .vfpMin S d a b m, .vfpMax S d a b m,
      .vfpAbs S d a m, .vfpNeg S d a m, .vfpExp2 S d a m, .vfpLog2 S d a m, .vfpRecip S d a m, .vfpRsqrt S d a m, .vsel S d a b m,
      .vperm S d a b m, .vredSumI32 S d a m, .vredMinI32 S d a m, .vredMaxI32 S d a m, .vredSumF32 S d a m, .vredMinF32 S d a m,
      .vredMaxF32 S d a m, .vcvtTobf S d a m, .vcvtFrombf S d a m, .vcvtItof S d a m, .vcvtFtoi S d a m, .vcvtSat8 S d a m,
      .vcvtSat16 S d a m, .vcvtTdec S d a m, .vcvtTenc S d a m], queued i mask 0 0) ∧
    (b ≠ d → queued (.vcvtMxq S d a b) none 0 0 ∧ queued (.vcvtMxd S d a b) none 0 0) ∧
    queued (.vbcast S d g) none (s.gword g) 0 ∧ queued (.vslide S d a g u) none (s.gword g) 0 ∧
    queued (.vmovgToV S d g h) none (s.gword g) (s.gword h) ∧ answers (.vmovgToG S g a h) (s.gword h) ∧
    (t.toNat < 2 → n.toNat < 8 → (t = 0 ∨ n.toNat < 6) → answers (.vcmp S a b g t n) 0) ∧
    (d.toNat % 2 = 0 → d.toNat ≠ 14 → f.toNat < 2 → 1 ≤ (s.gword g).toNat → (s.gword g).toNat ≤ 64 →
      answers (.vtopk S d a g u f) (s.gword g)) ∧
    (∀ isStore q, t.toNat < 3 → x.ungated →
      AccessOk s (s.greg g) 0 (x.vl * 2 ^ t.toNat) (2 ^ t.toNat) (if isStore then Reg.permW else Reg.permR) isStore false q →
      let i := if isStore then Instr.vst S d g m t else .vld S d g m t
      ∃ r e o, exec i s = .next r ∧ Queued S { x with ops := x.ops ++ [o] } e s r ∧ e.instr = i ∧ e.mask = mask ∧ e.home = q.home ∧
        o.id = e.id ∧ o.kind = .vector isStore ∧ o.home = q.home ∧ o.size = x.vl * 2 ^ t.toNat ∧ o.near = q.near ∧ o.value = none) ∧
    let vl := min 64 (max 1 (s.gword g).toNat)
    ∃ r, exec (.vsetvl S h g) s = .next r ∧ WordDone S 1 s r ∧ OnlyCore s r s.cur ∧ Wrote s r h ⟨false, 0, BitVec.ofNat 64 vl⟩ 1 ∧
      (r.core s.cur).vl = vl ∧
      OnlyRegister { x with sys := { x.sys with status := (r.core s.cur).sys.status } } (r.core s.cur) h ∧
      ∀ i, i < 64 → i < 24 ∨ 30 ≤ i → (r.core s.cur).sys.status.getLsbD i = x.sys.status.getLsbD i

/-- R264, R265: a `vint` word that binds writes for each active element of vd the w-bit result of its row, sign-extended, w = 8, 16 or 32,
from the w-bit elements of va and vb; every other element stands. It holds its group ceil(VL/16) cycles and writes after 2,
a multiply after 4. -/
def Obligations.VectorIntegerResults : Prop :=
  ∀ (s : State) (q l k : Nat) (e : VecEntry), Binds s q l k e →
  ∀ p ∈ ([(Instr.vintAdd, 2, fun _ x y _ _ => x + y), (Instr.vintSub, 2, fun _ x y _ _ => x - y),
      (Instr.vintAdds, 2, fun w x y _ _ => max (-2 ^ (w - 1)) (min (2 ^ (w - 1) - 1) (x + y))),
      (Instr.vintSubs, 2, fun w x y _ _ => max (-2 ^ (w - 1)) (min (2 ^ (w - 1) - 1) (x - y))),
      (Instr.vintMul, 4, fun _ x y _ _ => x * y), (Instr.vintMulh, 4, fun w x y _ _ => x * y / 2 ^ w),
      (Instr.vintMin, 2, fun _ x y _ _ => min x y), (Instr.vintMax, 2, fun _ x y _ _ => max x y),
      (Instr.vintMinu, 2, fun _ _ _ x y => (min x y : Nat)), (Instr.vintMaxu, 2, fun _ _ _ x y => (max x y : Nat)),
      (Instr.vintAnd, 2, fun _ _ _ x y => (x &&& y : Nat)), (Instr.vintOr, 2, fun _ _ _ x y => (x ||| y : Nat)),
      (Instr.vintXor, 2, fun _ _ _ x y => (x ^^^ y : Nat)), (Instr.vintShl, 2, fun w x _ _ y => x * 2 ^ (y % w)),
      (Instr.vintShr, 2, fun w _ _ x y => (x / 2 ^ (y % w) : Nat)), (Instr.vintSra, 2, fun w x _ _ y => x / 2 ^ (y % w)),
      ((fun S d a _ m t => Instr.vintAbs S d a m t), 2, fun _ x _ _ _ => (x.natAbs : Int)),
      ((fun S d a _ m t => Instr.vintNeg S d a m t), 2, fun _ x _ _ _ => -x)] :
      List ((Bool → BitVec 4 → BitVec 4 → BitVec 4 → BitVec 5 → BitVec 2 → Instr) × Nat × (Nat → Int → Int → Nat → Nat → Int))),
  ∀ (S : Bool) (d a b : BitVec 4) (m : BitVec 5) (t : BitVec 2), t.toNat < 3 → e.instr = p.1 S d a b m t →
    let w := 8 * 2 ^ t.toNat
    let x := s.core (.comp k)
    let el (r : BitVec 4) (i : Nat) : BitVec w := (x.velem r.toNat i).setWidth w
    ∃ r, exec (.vectorBind q l) s = .next r ∧ Bound s r q l k e ((e.vl + 15) / 16) p.2.1 none ∧
      (∀ i, i < 64 → Active e i → (r.core (.comp k)).velem d.toNat i =
        (BitVec.ofInt w (p.2.2 w (el a i).toInt (el b i).toInt (el a i).toNat (el b i).toNat)).signExtend 32) ∧
      (∀ i, i < 64 → ¬ Active e i → (r.core (.comp k)).velem d.toNat i = x.velem d.toNat i) ∧
      ∀ v i, v < 16 → i < 64 → v ≠ d.toNat → (r.core (.comp k)).velem v i = x.velem v i

/-- R264, R267, R268, R269, R270, R274, R275: what `vcmp`, `vsel`, `vperm`, `vbcast`, `vslide`, the reductions, `vtopk` and `vmovg` give when they
bind, the FP32 forms by the value of each pattern (R144): of reductions `min` and `max` the extreme that is no NaN, a NaN where every
element is one (log entry 21, DEDUCED), and as ranked values those that R144 gives a result. A `vld` holds its group for its occupancy; its
pieces of 64 bytes are read one a cycle from its own slice, each into the elements it names, and from elsewhere all at once, at a
time that is not fixed. A `vst` holds the bytes of its active elements, which land in one piece and clear the tags they touch (log
entry 8, DESIGN CHOICE, for the moments). -/
def Obligations.VectorMovesAndCompares : Prop :=
  (∀ (s : State) (k : Nat) (e : VecEntry) (o : MemOp), s.wf = true → k < 2048 → (s.core (.comp k)).vq.find? (fun x => x.id = e.id) = some e →
    (s.core (.comp k)).ops.find? (fun x => x.id = e.id) = some o → e.bound.isSome = true → s.recovers o.home o.size = false →
    ∀ (S : Bool) (d : BitVec 4) (g m : BitVec 5) (t : BitVec 2), t.toNat < 3 →
    let x := s.core (.comp k)
    let z := 2 ^ t.toNat
    let held := max 1 ((e.vl * z + 63) / 64)
    let left := pruneFences (.comp k) [] (x.ops.filter (fun p => p.id ≠ e.id))
    let extended (i : Nat) : Word32 := (BitVec.ofNat (8 * z) (s.num (e.home + i * z) z)).signExtend 32
    (o.kind = .vector true → e.performAt ≤ s.now (.comp k) → s.partner k = none → (e.data.map (fun p => p.1)).Nodup →
      ∃ r, exec (.storePerform (.comp k) e.id) s = .next r ∧ (∀ p ∈ e.data, r.byte p.1 = p.2 ∧ r.tagAt p.1 = false) ∧
        (∀ a, a ∉ e.data.map (fun p => p.1) → r.byte a = s.byte a) ∧ (∀ a, (∀ p ∈ e.data, p.1 / 16 ≠ a / 16) → r.tagAt a = s.tagAt a) ∧
        r = { s with cores := r.cores, mem := r.mem, tags := r.tags } ∧ (∀ c, coreKey c ≠ k → r.core c = s.core c) ∧
        r.core (.comp k) = { x with ops := left, slice := { x.slice with written := (r.core (.comp k)).slice.written } }) ∧
    (o.kind = .vector false → e.instr = .vld S d g m t →
      (leavesSlice k e.home = false → e.performAt + 1 + e.pieces ≤ s.now (.comp k) + held →
        ∃ r, exec (.storePerform (.comp k) e.id) s = .next r ∧ OnlyCore s r (.comp k) ∧
          ElementsWritten s r k d (fun i => Active e i ∧ i * z / 64 = e.pieces) (fun i w => w = extended i) ∧
          r.core (.comp k) = { x with
            v := (r.core (.comp k)).v, ops := if held ≤ e.pieces + 1 then left else x.ops
            vq := x.vq.map (fun p => if p.id = e.id then { p with pieces := p.pieces + 1 } else p) }) ∧
      (leavesSlice k e.home = true → ∃ r, exec (.storePerform (.comp k) e.id) s = .next r ∧ OnlyCore s r (.comp k) ∧
        ElementsWritten s r k d (Active e) (fun i w => w = extended i) ∧
        r.core (.comp k) = { x with v := (r.core (.comp k)).v, vready := (r.core (.comp k)).vready, ops := left } ∧
        s.now (.comp k) ≤ (mapGet (r.core (.comp k)).vready d.toNat).getD 0))) ∧
  ∀ (s : State) (q l k : Nat) (e : VecEntry), Binds s q l k e → e.vl ≤ 64 →
  ∀ (S : Bool) (d a b : BitVec 4) (m g h : BitVec 5) (n : BitVec 5) (u : BitVec 1),
    let x := s.core (.comp k)
    let el (r : BitVec 4) (i : Nat) : Word32 := x.velem r.toNat i
    let writes (occ lat : Nat) (f : Nat → Option Word32) : Prop := ∃ r, exec (.vectorBind q l) s = .next r ∧
      Bound s r q l k e occ lat none ∧
      ∀ v i, v < 16 → i < 64 → (r.core (.comp k)).velem v i = if v = d.toNat then (f i).getD (x.velem v i) else x.velem v i
    let gives (occ : Nat) (f : Word → Prop) : Prop := ∃ r w, exec (.vectorBind q l) s = .next r ∧ f w ∧
      Bound s r q l k e occ 2 (some w) ∧ (r.core (.comp k)).v = x.v
    let occ := (e.vl + 15) / 16
    let on (i : Nat) : Bool := decide (i < e.vl) && (match e.mask with | some m => m.getLsbD i | none => true)
    let holds (p r : Word32) : Prop := match n.toNat with
      | 0 => p = r
      | 1 => p ≠ r
      | 2 => p.toInt < r.toInt
      | 3 => p.toInt ≤ r.toInt
      | 4 => p.toInt > r.toInt
      | 5 => p.toInt ≥ r.toInt
      | 6 => p.toNat < r.toNat
      | _ => p.toNat ≥ r.toNat
    let elements := ((List.range 64).filter on).map (el a)
    let numbers (p r : Word32) : Prop := match n.toNat with
      | 0 => f32Rank p = f32Rank r
      | 1 => f32Rank p ≠ f32Rank r
      | 2 => f32Rank p < f32Rank r
      | 3 => f32Rank p ≤ f32Rank r
      | 4 => f32Rank p > f32Rank r
      | _ => f32Rank p ≥ f32Rank r
    let nan (p r : Word32) : Prop := F32Nan p ∨ F32Nan r
    (e.instr = .vcmp S a b g 1 n → n.toNat < 6 → gives occ (fun w => ∀ i, i < 64 →
      (w.getLsbD i = true ↔ i < e.vl ∧ ((nan (el a i) (el b i) ∧ n = 1) ∨ (¬ nan (el a i) (el b i) ∧ numbers (el a i) (el b i)))))) ∧
    (e.instr = .vcmp S a b g 0 n → gives occ (fun w => ∀ i, i < 64 → (w.getLsbD i = true ↔ i < e.vl ∧ holds (el a i) (el b i)))) ∧
    (e.instr = .vsel S d a b m → writes occ 2 (fun i =>
      if i < e.vl then some (if on i then el a i else el b i) else none)) ∧
    (e.instr = .vperm S d a b m → writes occ 2 (fun i =>
      if on i then some (if (el b i).toNat < 64 then el a (el b i).toNat else 0) else none)) ∧
    (e.instr = .vbcast S d g → writes occ 2 (fun i => if on i then some (e.x.setWidth 32) else none)) ∧
    (e.instr = .vslide S d a g u → writes occ 2 (fun i => if on i then some (
      if u = 0 then (if e.x.toNat ≤ i then el a (i - e.x.toNat) else 0)
      else if i + e.x.toNat < e.vl then el a (i + e.x.toNat) else 0) else none)) ∧
    (e.instr = .vredSumI32 S d a m → writes (occ + 2) 4 (fun i => if i = 0 then some elements.sum else none)) ∧
    (e.instr = .vredMinI32 S d a m → ∃ r : Word32, writes (occ + 2) 4 (fun i => if i = 0 then some r else none) ∧
      (∀ v ∈ elements, r.toInt ≤ v.toInt) ∧ (r ∈ elements ∨ r = 0x7FFF_FFFF)) ∧
    (e.instr = .vredMaxI32 S d a m → ∃ r : Word32, writes (occ + 2) 4 (fun i => if i = 0 then some r else none) ∧
      (∀ v ∈ elements, v.toInt ≤ r.toInt) ∧ (r ∈ elements ∨ r = 0x8000_0000)) ∧
    (e.instr = .vredSumF32 S d a m → ∃ f : Nat → Word32, f 0 = 0 ∧ (∀ j, j < elements.length → F32Sum (f j) (elements.getD j 0) (f (j + 1))) ∧
      writes (occ + 2) 4 (fun i => if i = 0 then some (f elements.length) else none)) ∧
    (∀ sign ∈ [(1 : Int), -1], e.instr = (if sign = 1 then .vredMinF32 S d a m else .vredMaxF32 S d a m) → ∃ r : Word32,
      writes (occ + 2) 4 (fun i => if i = 0 then some r else none) ∧
      (elements = [] → r = if sign = 1 then 0x7F80_0000 else 0xFF80_0000) ∧
      (elements ≠ [] → (∀ v ∈ elements, F32Nan v) → r = 0x7FC0_0000) ∧
      ((∃ v ∈ elements, ¬ F32Nan v) → ∃ v ∈ elements, ¬ F32Nan v ∧ r = f32Read v) ∧
      ∀ v ∈ elements, ¬ F32Nan v → sign * f32Order r ≤ sign * f32Order v) ∧
    (∀ f : BitVec 4, e.instr = .vtopk S d a g u f → f.toNat < 2 → d.toNat % 2 = 0 → d.toNat ≠ 14 → 1 ≤ e.x.toNat → e.x.toNat ≤ 64 →
      let number (i j : Nat) : Prop := if f = 1 then
        (¬ F32Nan (el a i) ∧ F32Nan (el a j)) ∨ (F32Nan (el a i) ∧ F32Nan (el a j) ∧ i < j) ∨ (¬ F32Nan (el a i) ∧ ¬ F32Nan (el a j) ∧
          ((if u = 0 then f32Rank (el a j) < f32Rank (el a i) else f32Rank (el a i) < f32Rank (el a j)) ∨
            (f32Rank (el a i) = f32Rank (el a j) ∧ i < j)))
        else (if u = 0 then (el a j).toInt < (el a i).toInt else (el a i).toInt < (el a j).toInt) ∨ (el a i = el a j ∧ i < j)
      ∃ r w, ∃ rank : Nat → Nat, exec (.vectorBind q l) s = .next r ∧ Bound s r q l k e 16 4 (some w) ∧
        (∀ i, i < e.vl → rank i < e.vl) ∧ (∀ i j, i < j → j < e.vl → number (rank i) (rank j)) ∧
        (∀ i, i < 64 → (w.getLsbD i = true ↔ ∃ j, j < e.x.toNat ∧ j < e.vl ∧ rank j = i)) ∧
        ∀ v j, v < 16 → j < 64 → (r.core (.comp k)).velem v j =
          if e.x.toNat ≤ j ∨ (v ≠ d.toNat ∧ v ≠ d.toNat + 1) then x.velem v j
          else if v = d.toNat + 1 then (if j < e.vl then BitVec.ofNat 32 (rank j) else 0xFFFF_FFFF)
          else if j < e.vl then (if f = 1 then f32Read (el a (rank j)) else el a (rank j))
          else if f = 1 then (if u = 0 then 0xFF80_0000 else 0x7F80_0000) else (if u = 0 then 0x8000_0000 else 0x7FFF_FFFF)) ∧
    (∀ t : BitVec 2, t.toNat < 3 →
      let z := 2 ^ t.toNat
      let held := max 1 ((e.vl * z + 63) / 64)
      (e.instr = .vld S d g m t → ∃ r, exec (.vectorBind q l) s = .next r ∧ Bound s r q l k e held 4 none ∧ (r.core (.comp k)).v = x.v) ∧
      (e.instr = .vst S d g m t → ∃ r data, exec (.vectorBind q l) s = .next r ∧ BoundWith s r q l k e held 0 none data ∧
        (r.core (.comp k)).v = x.v ∧ (∀ i j, i < 64 → Active e i → j < z →
          (e.home + i * z + j, (el d i).extractLsb' (8 * j) 8) ∈ data) ∧
        ∀ p ∈ data, ∃ i j, i < 64 ∧ Active e i ∧ j < z ∧ p = (e.home + i * z + j, (el d i).extractLsb' (8 * j) 8))) ∧
    (e.instr = .vmovgToG S g a h → gives 1 (fun w => w = if e.x.toNat < 64 then (el a e.x.toNat).setWidth 64 else 0)) ∧
    (e.instr = .vmovgToV S d g h → writes 1 2 (fun i => if i = e.y.toNat then some (e.x.setWidth 32) else none))

/-- R144, R145, R146, R147, R152, R266, R271, R272, R273: the elements that `vfp` and `vcvt` write when they bind, every operand. `add`, `sub`,
`mul` and `fma` are rounded once; `min` and `max` return the other operand of a NaN; `exp2`, `log2`, `recip` and `rsqrt` are four fixed
functions of a pattern with the exact results and the bounds of the rule (log entry 9: of `exp2` and `log2` the bound is that of the two
results around an operand). `tobf`, `frombf`, `itof`, `ftoi`, `sat8` and `sat16` round and saturate, `mxq` and `mxd` go by the blocks of 32
below VL, `tdec` and `tenc` by the decode table; with ENC-VALID clear `tenc` gives code 0 and sets ENCERR. An inactive element
and every other register stand. What is below 2^-126 once rounded is zero by log entry 12 (DEDUCED). -/
def Obligations.VectorFloatSpecials : Prop :=
  ∃ exp2 log2 recip rsqrt : Word32 → Word32, F32Exp2 exp2 ∧ F32Log2 log2 ∧ F32Recip recip ∧ F32Rsqrt rsqrt ∧
  ∀ (s : State) (q l k : Nat) (e : VecEntry), Binds s q l k e → e.vl ≤ 64 →
  ∀ (S : Bool) (d a b : BitVec 4) (m : BitVec 5),
    let x := s.core (.comp k)
    let el (r : BitVec 4) (i : Nat) : Word32 := x.velem r.toNat i
    let occ := (e.vl + 15) / 16
    let writes (occ lat : Nat) (f : Nat → Word32 → Prop) : Prop := ∃ r, exec (.vectorBind q l) s = .next r ∧
      Bound s r q l k e occ lat none ∧ ElementsWritten s r k d (Active e) f
    let rounded (v : Rat) (w : Word32) : Prop := F32Rounds (decide (v < 0)) |v| w
    let chosen (sign : Int) (p r w : Word32) : Prop :=
      (F32Nan p → w = f32Read r) ∧ (¬ F32Nan p → F32Nan r → w = f32Read p) ∧
      (¬ F32Nan p → ¬ F32Nan r → w = if sign * f32Order p ≤ sign * f32Order r then f32Read p else f32Read r)
    let clamped (n : Nat) (v : Int) : Word32 := BitVec.ofInt 32 (max (-2 ^ (n - 1)) (min (2 ^ (n - 1) - 1) v))
    let special (p : Word32) : Prop := F32Nan p ∨ F32Inf p
    (e.instr = .vfpAdd S d a b m → writes occ 4 (fun i w => F32Sum (el a i) (el b i) w)) ∧
    (e.instr = .vfpSub S d a b m → writes occ 4 (fun i w => F32Sum (el a i) (el b i ^^^ 0x8000_0000) w)) ∧
    (e.instr = .vfpMul S d a b m → writes occ 4 (fun i w => F32Product (el a i) (el b i) w)) ∧
    (e.instr = .vfpFma S d a b m → writes occ 4 (fun i w => F32Fma (el d i) (el a i) (el b i) w)) ∧
    (e.instr = .vfpMin S d a b m → writes occ 4 (fun i w => chosen 1 (el a i) (el b i) w)) ∧
    (e.instr = .vfpMax S d a b m → writes occ 4 (fun i w => chosen (-1) (el a i) (el b i) w)) ∧
    (e.instr = .vfpAbs S d a m → writes occ 4 (fun i w => w = f32Read (el a i) &&& 0x7FFF_FFFF)) ∧
    (e.instr = .vfpNeg S d a m → writes occ 4 (fun i w =>
      (F32Nan (el a i) → w = 0x7FC0_0000) ∧ (¬ F32Nan (el a i) → w = f32Read (el a i) ^^^ 0x8000_0000))) ∧
    (e.instr = .vfpExp2 S d a m → writes (2 * occ) 6 (fun i w => w = exp2 (el a i))) ∧
    (e.instr = .vfpLog2 S d a m → writes (2 * occ) 6 (fun i w => w = log2 (el a i))) ∧
    (e.instr = .vfpRecip S d a m → writes (2 * occ) 6 (fun i w => w = recip (el a i))) ∧
    (e.instr = .vfpRsqrt S d a m → writes (2 * occ) 6 (fun i w => w = rsqrt (el a i))) ∧
    (e.instr = .vcvtTobf S d a m → writes occ 2 (fun i w =>
      ∃ h, Bf16Rounds (el a i) h ∧ w = h.setWidth 32)) ∧
    (e.instr = .vcvtFrombf S d a m → writes occ 2 (fun i w => w = bf16Read ((el a i).extractLsb' 0 16))) ∧
    (e.instr = .vcvtItof S d a m → writes occ 2 (fun i w => rounded ((el a i).toInt : Rat) w)) ∧
    (e.instr = .vcvtFtoi S d a m → writes occ 2 (fun i w =>
      (F32Nan (el a i) → w = 0) ∧ (F32Inf (el a i) → w = if (el a i).getLsbD 31 then 0x8000_0000 else 0x7FFF_FFFF) ∧
      (¬ special (el a i) → ∃ n : Int, NearestEven (f32Value (el a i)) n ∧ w = clamped 32 n))) ∧
    (e.instr = .vcvtSat8 S d a m → writes occ 2 (fun i w => w = clamped 8 (el a i).toInt)) ∧
    (e.instr = .vcvtSat16 S d a m → writes occ 2 (fun i w => w = clamped 16 (el a i).toInt)) ∧
    (b ≠ d → e.instr = .vcvtMxq S d a b → ∃ r, exec (.vectorBind q l) s = .next r ∧ Bound s r q l k e (occ + 1) 4 none ∧
      ∃ (code : Nat → Nat) (v : Nat → Int), (∀ j, 32 * j < e.vl → QuantisedBlock (el a) (fun i => i / 32 = j ∧ i < e.vl) (code j) v) ∧
        (∀ j, e.vl ≤ 32 * j → code j = 0) ∧
        (∀ i, i < e.vl → (r.core (.comp k)).velem d.toNat i = BitVec.ofInt 32 (v i)) ∧
        (r.core (.comp k)).velem b.toNat 0 = BitVec.ofNat 32 (code 0) ∧
        (r.core (.comp k)).velem b.toNat 1 = BitVec.ofNat 32 (code 1) ∧
        (r.core (.comp k)).velem b.toNat 2 = BitVec.ofNat 32 (max (code 0) (code 1)) ∧
        ∀ n i, n < 16 → i < 64 → (n ≠ d.toNat ∨ e.vl ≤ i) → (n ≠ b.toNat ∨ 3 ≤ i) → (r.core (.comp k)).velem n i = x.velem n i) ∧
    (b ≠ d → e.instr = .vcvtMxd S d a b → writes (occ + 1) 4 (fun i w =>
      let code := (el b (i / 32)).extractLsb' 0 8
      (code = 255 → w = 0x7FC0_0000) ∧
      (code ≠ 255 → rounded ((((el a i).extractLsb' 0 8).toInt : Rat) * 2 ^ ((code.toNat : Int) - 133)) w))) ∧
    let entry (i : Nat) : BitVec 19 := (mapGet x.slice.dtab i).getD 0
    let value (i : Nat) : Word32 := f32Read (((entry i).extractLsb' 18 1 ++ (entry i).extractLsb' 0 18 ++ (0 : BitVec 13)))
    (e.instr = .vcvtTdec S d a m → writes occ 2 (fun i w => w = value ((el a i).extractLsb' 0 8).toNat)) ∧
    (e.instr = .vcvtTenc S d a m → x.sys.dtstat.getLsbD 0 = false →
      let flagged := { x with sys := { x.sys with dtstat := x.sys.dtstat ||| 2 } }
      ∃ r, exec (.vectorBind q l) s = .next r ∧ Bound (s.setCore (.comp k) flagged) r q l k e (2 * occ) 4 none ∧
        ElementsWritten s r k d (Active e) (fun _ w => w = 0)) ∧
    (e.instr = .vcvtTenc S d a m → x.sys.dtstat.getLsbD 0 = true → writes (2 * occ) 4 (fun i w =>
      let p := el a i
      let first (is : Nat → Prop) : Prop := (∀ n, n < 256 → is n → is w.toNat ∧ w.toNat ≤ n) ∧ ((∀ n, n < 256 → ¬ is n) → w = 0)
      let same (n : Nat) : Prop := value n = p
      let far (n : Nat) : Rat := |f32Value p - f32Value (value n)|
      let finite (n : Nat) : Prop := n < 256 ∧ ¬ special (value n)
      let prefers (n c : Nat) : Prop :=                                      -- entry n is no worse than entry c at one distance
        let z (c : Nat) : Bool := decide (value c &&& 0x7FFF_FFFF = 0)
        let signed (c : Nat) : Bool := (value c).getLsbD 31 == p.getLsbD 31
        let size (c : Nat) : Nat := ((value c).extractLsb' 0 31).toNat
        if p.extractLsb' 23 8 = 0 ∧ z n ∧ z c ∧ signed n ≠ signed c then signed n
        else if n % 2 ≠ c % 2 then n % 2 = 0
        else if size n ≠ size c then size n < size c
        else n ≤ c
      (F32Nan p → first (fun n => F32Nan (value n))) ∧
      (F32Inf p → (∃ n, n < 256 ∧ same n) → first same) ∧
      (F32Inf p → (∀ n, n < 256 → ¬ same n) → ∀ n, finite n → finite w.toNat ∧
        if p.getLsbD 31 then f32Value (value w.toNat) ≤ f32Value (value n) else f32Value (value n) ≤ f32Value (value w.toNat)) ∧
      (¬ special p → ∀ n, finite n → finite w.toNat ∧ far w.toNat ≤ far n ∧ (far w.toNat = far n → prefers w.toNat n))))

/-! ## Commands -/

/-- R42, R201-R203: `kclr` clears k_N; `kset` writes g_a + sext(imm10), modulo 2^width, into the part that the field code names and leaves
every other bit; `kcap` writes word W_M, register number and 64 × sext(imm10) modulo 2^27. The other command registers stand. -/
def Obligations.CommandsCompose : Prop :=
  ∀ (S : Bool) (k : BitVec 3) (a : BitVec 5) (f : BitVec 6) (w : BitVec 3) (i : BitVec 10) (s : State),
    let x := s.core s.cur
    let old : BitVec 256 := x.k.toList.getD k.toNat 0
    let sets (j : Instr) (p : BitVec 256 → Prop) : Prop := ∃ t v, exec j s = .next t ∧ WordDone S 1 s t ∧ OnlyCore s t s.cur ∧ p v ∧
      OnlyPassed { x with k := x.k.setIfInBounds k.toNat v } (t.core s.cur)
    let part : Nat × Nat := match f.toNat / 8, f.toNat % 8 with
      | 0, 1 => (0, 4)
      | 0, 2 => (4, 8)
      | 0, 3 => (12, 1)
      | 0, 4 => (13, 1)
      | 0, 5 => (14, 8)
      | 0, 6 => (22, 10)
      | n, 0 => (32 * n, 32)
      | n, 1 => (32 * n, 16)
      | n, 2 => (32 * n + 16, 16)
      | n, 3 => (32 * n, 8)
      | n, 4 => (32 * n + 8, 8)
      | n, 5 => (32 * n + 16, 8)
      | n, _ => (32 * n + 24, 8)
    sets (.kclr S k) (fun v => v = 0) ∧
    (s.plain a → f.toNat % 8 ≠ 7 → sets (.kset S k a f i) (fun v => ∀ j, j < 256 → v.getLsbD j =
      if part.1 ≤ j ∧ j < part.1 + part.2 then (s.gword a + i.signExtend 64).getLsbD (j - part.1) else old.getLsbD j)) ∧
    (2 ≤ w.toNat → sets (.kcap S k a w i) (fun v =>
      (∀ n, n < 8 → n ≠ w.toNat → v.extractLsb' (32 * n) 32 = old.extractLsb' (32 * n) 32) ∧
      v.extractLsb' (32 * w.toNat + 27) 5 = a ∧ (v.extractLsb' (32 * w.toNat) 27).toInt = 64 * i.toInt))

/-- R39, R41, R61, R190, R204, R219, R234, R237: a command that passes its checks and that nothing holds back enters its queue behind what
stands there, with what its slot registers held; `push` gives its number in g_a, and `gissue` enters an MM.T or MM.S as one part of its
quad's joint operation when no slice of the quad has a fenced quarter. Slot registers that no stream is bound to are read as they stand.
At system level a HELD core raises QHELD: at `push` until it has saved its queues, at `gissue` always (R237). -/
def Obligations.CommandsEnterTheirQueues : Prop :=
  ∀ (S : Bool) (k : BitVec 3) (a : BitVec 5) (rs : List Range) (held : List (Nat × Reg)) (s m : State),
    let x := s.core s.cur
    let y := m.core s.cur
    let raw := x.k.toList.getD k.toNat 0
    (s.unbound a → CommandOk s k none rs held m → CommandFree m k rs →
      ∃ t, exec (.push S k a) s = .next t ∧ WordDone S 1 s t ∧ OnlyCore s t s.cur ∧
        CommandEntered s k rs held none y (t.core s.cur) ∧ OnlyRegister { y with eng := (t.core s.cur).eng } (t.core s.cur) a ∧
        Wrote s t a ⟨false, 0, x.eng.seq.setWidth 64⟩ 1) ∧
    (∀ n wide, s.cur = .comp n → cmdEngine raw = 0 → (cmdOp raw = 1 ∨ cmdOp raw = 2) →
      (∀ j, j < 4 → (s.core (.comp (n / 4 * 4 + j))).sys.mstat.extractLsb' 40 4 = 0) →
      ¬ (x.isHeld = true ∧ x.system = true) → CommandOk s k (some (wide, n % 4 == 0)) rs held m → CommandFree m k rs →
      ∃ t, exec (if wide then .gissueWide S k else .gissueDeep S k) s = .next t ∧ WordDone S 1 s t ∧ OnlyCore s t s.cur ∧
        CommandEntered s k rs held (some wide) y (t.core s.cur) ∧ OnlyPassed { y with eng := (t.core s.cur).eng } (t.core s.cur)) ∧
    (∀ role, (∀ sp ∈ (s.slots k role).2, x.genOf (slotReg (s.slots k role).1 sp.n) = none ∧
        (mapGet x.issue.regReady (slotReg (s.slots k role).1 sp.n)).getD 0 ≤ s.now s.cur) →
      checkSlots s s.cur (s.slots k role).1 x (s.slots k role).2 = .ok rs →
      ∃ vs, readSlots (s.slots k role).1 (s.slots k role).2 s = .ok ((rs, vs), s) ∧
        ∀ sp ∈ (s.slots k role).2, mapGet vs (slotIndex sp.n) = some (x.reg (slotReg (s.slots k role).1 sp.n))) ∧
    (s.unbound a → x.isHeld = true → x.system = true → x.eng.saved = false → TrapFree s s.cur →
      ∃ t, exec (.push S k a) s = .next t ∧ TrapTaken s t s.cur 0x0B 0 x.pc) ∧
    (∀ (n : Nat) (wide : Bool), s.cur = .comp n → x.isHeld = true → x.system = true → TrapFree s s.cur →
      ∃ t, exec (if wide then .gissueWide S k else .gissueDeep S k) s = .next t ∧ TrapTaken s t s.cur 0x0B 0 x.pc)

/-- R153-R157, R225, R228, R229, R238: a slice that accepts MM.T of INT8 rows begins a run that leaves in cell (m, n), on its completion
cycle, the sum of the activations with the packed trits, from the cell's value when ACC is set, modulo 2^32; MM.S the same with the
coefficients and generated trits of its descriptor's terms; in the wide join every core multiplies the leading core's rows. The other
cells of the span are as they stood at the start, and every other bank stands (that the operands are read at acceptance is the model's
choice: log 7). -/
def Obligations.MatrixProducts : Prop :=
  ∀ (c : Nat) (k : Cmd) (s : State), c < 2048 → 1 ≤ cmdK k.word →
    let M := cmdM k.word
    let K := cmdK k.word
    let act (core : Nat) (o : Cmd) (m i : Nat) : Int := (s.byte (o.home (.comp core) 2 + rowBytes K * m + i)).toInt
    let from0 (core : Nat) (o : Cmd) (m n : Nat) : Int := if cmdAcc o.word then (s.cell core (cmdBank o.word) (m * cmdN o.word + n)).toInt else 0
    let sum (f : Nat → Int) : Int := ((List.range K).map f).sum
    let runs (o : Cmd) : Prop := s.lanes c ≠ 0 ∧ fmtA (cmdFmt o.word) = 0 ∧
      (bitsAt (s.core (.comp c)).sys.progress 2 3 ≠ 1 ∨ BitVec.ofNat 32 (bitsAt (s.core (.comp c)).sys.progress 32 32) ≠ o.seq)
    let leaves (core : Nat) (o : Cmd) (r : ArrayRun) (v : Nat → Nat → Int) : Prop := r.ending = .done ∧ r.bad = 0 ∧ ∀ (u : State) (b i : Nat), i < 512 →
      (landRun u core r).cell core b i =
        if cmdBank o.word * 512 ≤ b * 512 + i ∧ b * 512 + i < cmdBank o.word * 512 + cmdM o.word * cmdN o.word then
          BitVec.ofInt 32 (v ((b * 512 + i - cmdBank o.word * 512) / cmdN o.word) ((b * 512 + i - cmdBank o.word * 512) % cmdN o.word))
        else if cmdBank o.word ≤ b ∧ b < cmdBank o.word + spanBanks (cmdM o.word) (cmdN o.word) then s.cell core b i
        else u.cell core b i
    (acceptable s c 0 1 = some k → runs k → ∃ t r occ, exec (.mmT c) s = .next t ∧ OnlySlice s t c ∧ OnArray s t c 0 k occ r ∧
      leaves c k r (fun m n => from0 c k m n + sum (fun i => act c k m i * packedTrit s (k.home (.comp c) 3) K i n))) ∧
    (∀ d : Seeded, acceptable s c 0 2 = some k → runs k → commandSeeded s c k = some d →
      ∃ t r, exec (.mmS c) s = .next t ∧ OnlySlice s t c ∧
        OnArray s t c 0 k (if M = 0 then 1 else M * (d.terms.length * ((K + s.lanes c - 1) / s.lanes c))) r ∧
        leaves c k r (fun m n => from0 c k m n + (d.terms.map (fun p =>
          p.2 * sum (fun i => act c k m i * generatorTrit p.1 (d.k0 + i) (d.n0 + n)))).sum)) ∧
    ∀ (q : Nat) (ks : Fin 4 → Cmd), q < 512 → (∀ i : Fin 4, (s.core (.comp (4 * q + i))).head 0 = some (ks i)) →
      (∀ i : Fin 4, (ks i).joint = some true ∧ cmdOp (ks i).word = 1 ∧ fmtA (cmdFmt (ks i).word) = 0 ∧
        arrayAccepts s (4 * q + i) (ks i) = true ∧ s.lanes (4 * q + i) ≠ 0) →
      jointAgrees [ks 0, ks 1, ks 2, ks 3] = true → (ks 0).word = k.word →
      bitsAt (s.core (.comp (4 * q))).sys.progress 2 3 ≠ 3 →
      ∃ t occ, exec (.jointOperation q) s = .next t ∧ OnlyCores s t ∧ (∀ d, (∀ i : Fin 4, coreKey d ≠ 4 * q + i) → t.core d = s.core d) ∧
        ∀ i : Fin 4, SliceBegun (s.core (.comp (4 * q + i))) (t.core (.comp (4 * q + i))) ∧ ∃ r, OnArray s t (4 * q + i) 0 (ks i) occ r ∧
          leaves (4 * q + i) (ks i) r (fun m n => from0 (4 * q + i) (ks i) m n + sum (fun j => act (4 * q) (ks 0) m j *
            packedTrit s ((ks i).home (.comp (4 * q + i)) 3) K j n))

/-- R225, R227, R230-R233, R235: a slice that accepts DRAIN to memory, without scales, of INT8 or FP32 values begins a run that writes each
cell as it stands at the start, saturated or wrapped or as FP32, row by row from a 64-byte line, on its completion cycle; STEST leaves its
bank zero and, as an injection does, takes 16 cycles; SRCH writes the best seed of its candidates with its correlation and count, ties
to the lowest; RESID subtracts f × G from each element, saturated to INT16. Nothing else changes (that memory is read at acceptance is
the model's choice: log 7). -/
def Obligations.DrainTestAndSeeds : Prop :=
  ∀ (c : Nat) (k : Cmd) (bad : BitVec 4) (s : State), c < 2048 → s.wf = true →
    let M := cmdM k.word
    let K := cmdK k.word
    let N := cmdN k.word
    let here : CoreId := .comp c
    let free : Prop := s.lanes c ≠ 0
    let begins (n : Nat) (i : Instr) (occ : Nat) (p : State → ArrayRun → State → State → Prop) : Prop := ∃ t r, exec i s = .next t ∧
      OnlySlice s t c ∧ OnArray s t c n k occ r ∧ r.ending = .done ∧ ∀ u : State, u.wf = true → p t r u (landRun u c r)
    (acceptable s c 0 3 = some k → free → fmtA (cmdFmt k.word) = 0 → fmtD (cmdFmt k.word) = 0 → fmtO (cmdFmt k.word) < 4 →
      k.has 2 = false → k.has 3 = false → begins 0 (.drain c) (max 1 ((M * N + 31) / 32)) (fun t r u v =>
        r.bad = 0 ∧ (t.core here).slice.fmtRecord = cmdFmt k.word ∧ (∀ b i, v.cell c b i = u.cell c b i) ∧
        (fmtO (cmdFmt k.word) = 0 → ∀ m n, m < M → n < N →
          v.byte (k.home here 4 + m * (64 * ((N + 63) / 64)) + n) =
            let x := (s.cell c (cmdBank k.word) (m * N + n)).toInt
            if fmtWrap (cmdFmt k.word) then BitVec.ofInt 8 (fpRne (fpOf (fpOfInt x))) else BitVec.ofInt 8 (max (-128) (min 127 x))) ∧
        (fmtO (cmdFmt k.word) = 3 → ∀ m n, m < M → n < N →
          v.num (k.home here 4 + m * (64 * ((4 * N + 63) / 64)) + 4 * n) 4 =
            (fpOfInt (s.cell c (cmdBank k.word) (m * N + n)).toInt).toNat) ∧
        ∀ a, a < k.home here 4 ∨ k.home here 4 + M * outRow N (outSize (fmtO (cmdFmt k.word))) + M * scaleRow N ≤ a → v.byte a = u.byte a)) ∧
    (acceptable s c 0 4 = some k → free → begins 0 (.stest c bad) 16 (fun _ r u v => r.bad = bad ∧ v.mem = u.mem ∧ v.tags = u.tags ∧
      (∀ i, i < 512 → v.cell c (cmdBank k.word) i = 0) ∧ ∀ b i, i < 512 → b ≠ cmdBank k.word → v.cell c b i = u.cell c b i)) ∧
    ((s.core here).eng.array = none → (s.core here).eng.freeAt ≤ s.now here →
      (s.core here).eng.freeAt = (s.core here).eng.cmdEnd → (s.core here).tw = false → (s.core here).opensWindow = false →
      (s.core here).cascade = none →
      ∃ t r, exec (.selfTestInjection c bad) s = .next t ∧ OnlyCore s t here ∧ r.start = s.now here ∧ r.finish = s.now here + 16 ∧
        r.bad = bad ∧ t.core here = { s.core here with eng := { (s.core here).eng with array := some r } }) ∧
    (acceptable s c 1 1 = some k → free → 1 ≤ N → 1 ≤ K → N * K ≤ 2 ^ 19 →
      let first := BitVec.ofNat 32 (cmdW7 k.word)
      let count := cmdW6 k.word / 2 ^ 12
      let el (i n : Nat) : Int := (BitVec.ofNat 16 (s.num (k.home here 2 + 2 * (n * seedRow K + i)) 2)).toInt
      let grid (f : Nat → Nat → Int) : Int := ((List.range N).map (fun n => ((List.range K).map (fun i => f i n)).sum)).sum
      let corr (seed : BitVec 32) : Int := grid (fun i n => el i n * generatorTrit seed i n)
      let nnz (seed : BitVec 32) : Int := grid (fun i n => if generatorTrit seed i n = 0 then 0 else 1)
      ∃ j, j ≤ count ∧
        let best := first + BitVec.ofNat 32 j
        (∀ i, i ≤ count → let other := first + BitVec.ofNat 32 i
          (corr other).natAbs < (corr best).natAbs ∨ (corr other).natAbs = (corr best).natAbs ∧ best.toNat ≤ other.toNat) ∧
        begins 1 (.srch c) ((count + 1) * ((K + 63) / 64) * ((N + 127) / 128) + 8) (fun _ _ u v =>
          v.num (k.home here 4) 4 = best.toNat ∧ (BitVec.ofNat 64 (v.num (k.home here 4 + 4) 8)).toInt = corr best ∧
          (v.num (k.home here 4 + 12) 3 : Int) = nnz best ∧
          ∀ a, a < k.home here 4 ∨ k.home here 4 + 16 ≤ a → v.byte a = u.byte a)) ∧
    (acceptable s c 1 2 = some k → free →
      let h := k.home here 2
      let seed := BitVec.ofNat 32 (cmdW7 k.word)
      let f : Int := (if k.word.getLsbD 215 then -1 else 1) * 2 ^ bitsAt k.word 208 4
      let el (s : State) (i n : Nat) : Int := (BitVec.ofNat 16 (s.num (h + 2 * (n * seedRow K + i)) 2)).toInt
      begins 1 (.resid c) ((K + 63) / 64 * ((N + 127) / 128)) (fun _ _ u v =>
        (∀ i n, i < K → n < N → el v i n = max (-32768) (min 32767 (el s i n - f * generatorTrit seed i n))) ∧
        ∀ a, a < h ∨ h + 2 * (N * seedRow K) ≤ a → v.byte a = u.byte a))

/-! ## Copy engines -/

/-- R10, R125, R276-R279, R331: a copy engine that accepts an untimed COPY or FILL between SRAM ranges moves its first 4 KiB piece: the destination bytes
are the source's, or the bytes of W6 by address modulo 4; every other byte stands, and a capability's tag goes along with a
whole granule only where both capabilities have C and the addresses agree modulo 16. The piece takes a cycle a line; at its end it
is counted at the command's barrier. A timed command reads its lines as it starts and changes no memory then; they land by the end of its
occupancy, plus 4 + 2 × hops for another slice (when each line lands on the way is the model's choice: log entry 76; that the lines are read at the start, and a piece moved at once,
is too: log entries 7 and 8). -/
def Obligations.CopyAndFill : Prop :=
  ∀ (c : CoreId) (k : Cmd) (s : State), c.wf = true → s.wf = true →
    let x := s.core c
    let accepts : Prop := x.eng.copyRun = none ∧ x.head 2 = some k ∧ copyAccepts s c k = true ∧ 1 ≤ cmdW5 k.word
    let near (n : Nat) : Prop := isExternal (k.addr n).toNat = false
    let src := k.home c 2
    let dst := k.home c 4
    let moved (u t : State) (n : Nat) (byte : Nat → Byte) (tag : Nat → Bool) : Prop :=
      (∀ i, i < n → t.byte (dst + i) = byte i) ∧ (∀ b, b < dst ∨ dst + n ≤ b → t.byte b = u.byte b) ∧
      (∀ b, dst / 16 ≤ b / 16 → b / 16 ≤ (dst + n - 1) / 16 → t.tagAt b = tag (b / 16 * 16)) ∧
      (∀ b, b / 16 < dst / 16 ∨ (dst + n - 1) / 16 < b / 16 → t.tagAt b = u.tagAt b) ∧
      t = { u with cores := t.cores, mem := t.mem, tags := t.tags } ∧ (∀ d, coreKey d ≠ coreKey c → t.core d = u.core d)
    let carried (n : Nat) (g : Nat) : Bool := (k.slot 2).permC && (k.slot 4).permC && decide (src % 16 = dst % 16) &&
      decide (dst ≤ g ∧ g + 16 ≤ dst + n) && s.tagAt (src + (g - dst))
    let first := min 4096 (cmdW5 k.word)
    let noted (t : State) (y : Core) : Prop := (t.core c).unnoted = y.unnoted
    let running (t : State) : Prop := ∃ r, (t.core c).eng.copyRun = some r ∧ r.cmd = k ∧ r.done = 0 ∧ r.moved = true ∧
      r.finish = some (s.now c + (first + 63) / 64) ∧ noted t { x with eng := (t.core c).eng }
    let travel : Nat := match c, sliceOf dst with
      | .comp a, some b => if a = b then 0 else 4 + 2 * ((max (coreX a) (coreX b) - min (coreX a) (coreX b)) +
          (max (coreY a) (coreY b) - min (coreY a) (coreY b)))
      | _, _ => 0
    let lands (i : Instr) (occ : Nat) (byte : Nat → Byte) (tag : Nat → Bool) : Prop := ∃ t r, exec i s = .next t ∧ OnlyCore s t c ∧
      (t.core c).eng.landing = x.eng.landing ++ [r] ∧ r.cmd = k ∧
      r.finish = some (s.now c + occ + travel) ∧ (t.core c).eng.copyFree = s.now c + occ ∧ t.core c = { x with eng := (t.core c).eng } ∧
      ∀ u : State, u.wf = true → (u.core c).eng.landing = [r] → (u.core c).eng.copyRun = none → (u.core c).eng.stopAt = none →
        s.now c + occ + travel ≤ u.now c → ∃ v, exec (.copyChunk c) u = .next v ∧ moved u v (cmdW5 k.word) byte tag ∧
          v.core c = { u.core c with
            eng := { (u.core c).eng with landing := [{ r with flight := [] }] }
            slice := { (u.core c).slice with written := (v.core c).slice.written } }
    let timed : Prop := cmdT k.word = true ∧ cmdW5 k.word % 64 = 0 ∧ dst % 64 = 0
    let fill (i : Nat) : Byte := (k.word.extractLsb' (192 + 8 * (((k.addr 4).toNat + i) % 4)) 8)
    (accepts → cmdOp k.word = 1 → cmdT k.word = false → near 2 → near 4 →
      ∃ t, exec (.copy c) s = .next t ∧ moved s t first (fun i => s.byte (src + i)) (carried first) ∧ running t) ∧
    (accepts → cmdOp k.word = 4 → cmdT k.word = false → 0 ≤ k.addr 4 → near 4 →
      ∃ t, exec (.fill c) s = .next t ∧ moved s t first fill (fun _ => false) ∧ running t) ∧
    (accepts → cmdOp k.word = 1 → timed → near 2 → near 4 →
      lands (.copy c) ((cmdW5 k.word + 63) / 64 + 2) (fun i => s.byte (src + i)) (carried (cmdW5 k.word))) ∧
    (accepts → cmdOp k.word = 4 → timed → 0 ≤ k.addr 4 → near 4 →
      lands (.fill c) ((cmdW5 k.word + 63) / 64 + 1) fill (fun _ => false)) ∧
    ∀ r : CopyRun, x.eng.copyRun = some r → x.eng.landing = [] → r.moved = true → (∀ f, r.finish = some f → f ≤ s.now c) → cmdOp r.cmd.word = 1 ∨ cmdOp r.cmd.word = 4 →
      (∀ f, x.eng.stopAt = some f → f < r.start) →
      let done := r.done + min 4096 (cmdW5 r.cmd.word - r.done)
      ∃ t, exec (.copyChunk c) s = .next t ∧
        noted t { x with eng := { x.eng with
          copyRun := some { r with done := done, moved := false, finish := none, ended := decide (cmdW5 r.cmd.word ≤ done) } } } ∧
        (∀ d, coreKey d ≠ coreKey c → (t.core d).unnoted = (s.core d).unnoted) ∧
        t = { s with cores := t.cores, mem := t.mem, tags := t.tags } ∧ (r.cmd.has 7 = false → t.mem = s.mem ∧ t.tags = s.tags) ∧
        (r.cmd.has 7 = true → BytesWritten s t (r.cmd.home c 7) (leBytes 8 (s.num (r.cmd.home c 7) 8 + 1)) false)

/-- R149-R164, R279, R281, R283: the next row of a running XFORM or TERN between SRAM ranges, of a sparse transform whose extents pass too
(what belongs to a row of its buffer is the model's choice: log entry 77). Pack-trits packs five signs to a byte, zero trits filling
the last one (log entry 49, DEDUCED); unpack gives the trits as bytes; swizzle exchanges 16-byte chunks by the row; transpose writes the
row of a column; widen gives FP32; quantise gives the elements of R152 and a scale row with the largest code first; sparse-encode
writes the buffer of R158-R160 and sparse-decode what a buffer of that form holds, or the buffer itself where a later level is to expand it
(bytes beyond those it reads count as zero: log entry 71, DEDUCED; that the result is the same whatever word B5 holds is the model's
choice: log entry 90, DEDUCED); TERN writes for each group the trits above and below its threshold and its
mean magnitude. What a row reads it reads at one moment (log entry 7, DESIGN CHOICE). The command then waits for the end of the row. -/
def Obligations.Transforms : Prop :=
  ∀ (c : CoreId) (r : CopyRun) (s : State), c.wf = true → s.wf = true → (s.core c).eng.copyRun = some r → r.moved = false → r.ended = false →
    heldByRecovery s c r.cmd = false →
    let x := s.core c
    let k := r.cmd
    let l := r.layout
    let L (n : Nat) : Nat := (l.getD n 0).toNat
    let code := cmdW6 k.word
    let n := L 2
    let near (slot off : Nat) : Prop := isExternal (k.at slot off).toNat = false
    let src (off i : Nat) : Byte := s.byte (rawHome c (k.at 3 off).toNat + i)
    let row := r.done * L 3
    let out := r.done * L 4
    let moves (i : Instr) (ws : List (Nat × List Byte)) : Prop := ∃ t f, exec i s = .next t ∧
      t.mem = (ws.foldl (fun s p => s.write (rawHome c (k.at 4 p.1).toNat) p.2) s).mem ∧
      t.tags = (ws.foldl (fun s p => s.write (rawHome c (k.at 4 p.1).toNat) p.2) s).tags ∧
      t = { s with cores := t.cores, mem := t.mem, tags := t.tags } ∧ (∀ d, coreKey d ≠ coreKey c → t.core d = s.core d) ∧
      t.core c = { x with
        eng := { x.eng with copyRun := some { r with moved := true, finish := some f } }
        sys := { x.sys with mstat := (t.core c).sys.mstat }
        slice := { x.slice with flagged := (t.core c).slice.flagged, written := (t.core c).slice.written } }
    let rows (i : Instr) (bs : List Byte → Prop) : Prop := near 3 row → near 4 out → ∃ b, bs b ∧ moves i [(out, b)]
    (cmdOp k.word = 2 → code = 0 → rows (.xformPackTrits c) (fun bs => bs.length = (n + 4) / 5 ∧ ∀ i, i < (n + 4) / 5 →
      (bs.getD i 0).toNat = ((List.range 5).map (fun j =>
        (if 5 * i + j < n then ((src row (5 * i + j)).toInt.sign + 1).toNat else 1) * 3 ^ j)).sum)) ∧
    (cmdOp k.word = 2 → code = 1 → rows (.xformUnpack c) (fun bs => bs.length = n ∧ ∀ i, i < n →
      bs.getD i 0 = (let b := (src row (i / 5)).toNat
        if b < 243 then BitVec.ofInt 8 (((b / 3 ^ (i % 5) % 3 : Nat) : Int) - 1) else 0))) ∧
    (cmdOp k.word = 2 → code = 2 → rows (.xformSwizzle c) (fun bs => n * formatSize (L 0 % 16) % 256 = 0 →
      bs.length = n * formatSize (L 0 % 16) ∧ ∀ i, i < bs.length →
        bs.getD i 0 = src row (16 * ((i / 16) ^^^ (r.done % 16)) + i % 16))) ∧
    (cmdOp k.word = 2 → code = 3 → let z := formatSize (L 0 % 16)
      (∀ i, i < L 1 → near 3 (i * L 3 + r.done * z)) → near 4 out → ∃ b, moves (.xformTranspose c) [(out, b)] ∧ b.length = L 1 * z ∧
        ∀ i, i < b.length → b.getD i 0 = src (i / z * L 3 + r.done * z) (i % z)) ∧
    (cmdOp k.word = 2 → code = 7 → rows (.xformBf16Widen c) (fun bs => bs.length = 4 * n ∧ ∀ i, i < n →
      BitVec.ofNat 32 (leNat ((bs.drop (4 * i)).take 4)) = bf16Read (src row (2 * i + 1) ++ src row (2 * i)))) ∧
    (cmdOp k.word = 2 → code = 6 → near 3 row → near 4 out → near 4 (L 6 + r.done * (4 * ((1 + (n + 31) / 32 + 3) / 4))) →
      let value (i : Nat) : Word32 := src row (4 * i + 3) ++ src row (4 * i + 2) ++ src row (4 * i + 1) ++ src row (4 * i)
      let blocks := (n + 31) / 32
      ∃ els codes, moves (.xformMxint8Quantise c) [(out, els), (L 6 + r.done * (4 * ((1 + blocks + 3) / 4)), codes)] ∧
        els.length = n ∧ codes.length = 1 + blocks ∧ ∃ (code : Nat → Nat) (v : Nat → Int),
          (∀ j, j < blocks → QuantisedBlock value (fun i => i / 32 = j ∧ i < n) (code j) v ∧ codes.getD (j + 1) 0 = BitVec.ofNat 8 (code j)) ∧
          (∀ i, i < n → els.getD i 0 = BitVec.ofInt 8 (v i)) ∧
          (∀ j, j < blocks → (codes.getD (j + 1) 0).toNat ≤ (codes.getD 0 0).toNat) ∧
          (codes.getD 0 0 = 0 ∨ ∃ j, j < blocks ∧ codes.getD 0 0 = codes.getD (j + 1) 0)) ∧
    (cmdOp k.word = 2 → code = 4 → let z := formatSize (L 0 % 16)
      let len := n * z
      ∀ ws, SparseBuffer z (L 1 * n) (fun e j => src (e / n * L 3) (e % n * z + j)) ws →
      let top := ws.foldl (fun m p => max m (p.1 + p.2.length)) 0
      (∀ i, i < L 1 → near 3 (i * L 3)) → (∀ p ∈ ws, near 4 p.1) →
      spanOk s c k false (3, 0, if L 1 = 0 ∨ len = 0 then 0 else (L 1 - 1) * L 3 + len, false) = true →
      spanOk s c k false (4, 0, top, true) = true → L 7 = 0 →
      let upto (m : Nat) : Nat := m * n / 128
      moves (.xformSparseEncode c) (if L 1 ≤ r.done + 1 then ws.take 2 ++ (ws.drop 2).drop (upto r.done)
        else ((ws.drop 2).take (upto (r.done + 1))).drop (upto r.done))) ∧
    (cmdOp k.word = 2 → code = 5 → near 3 0 → spanOk s c k false (3, 0, 32, false) = true → L 7 = 0 →
      let level := if isMemCore c then 0 else 2
      let head (i : Nat) : Nat := leNat ((List.range 4).map (fun j => src 0 (4 * i + j)))
      let passes : Prop := level < head 0 / 256 % 4
      let sound : Prop := head 0 / 2 ^ 14 = 0 ∧ head 0 / 2 ^ 11 % 2 = 0 ∧ head 0 / 2 ^ 12 % 4 ≠ 3 ∧ head 6 = 0 ∧ head 7 = 0
      let plain : Prop := head 0 % 256 = 0 ∨ (head 0 % 256 = 1 ∧ head 0 / 2 ^ 10 % 2 = 1)
      let chunked : Prop := head 0 % 256 = 1 ∧ head 0 / 2 ^ 10 % 2 = 0
      let C := head 1
      let len : Nat := max (max 32 (head 2 + head 4)) (if ¬ passes ∧ chunked then head 3 + 4 * ((C + 127) / 128 + 1) else 0)
      let get (i : Nat) : Byte := if i < len then src 0 i else 0
      spanOk s c k false (3, 0, len, false) = true →
      let moved (bs : List Byte) : Prop :=
        let size := n * formatSize (L 0 / 16 % 16)
        let rows := if passes ∨ size = 0 then [(0, bs)]
          else (List.range ((bs.length + size - 1) / size)).map (fun i => (i * L 4, (bs.drop (size * i)).take size))
        (∀ p ∈ rows, near 4 p.1 ∧ spanOk s c k false (4, p.1, p.2.length, true) = true) →
        moves (.xformSparseDecode c) (if L 1 ≤ r.done + 1 then rows.drop r.done else (rows.drop r.done).take 1)
      (passes → moved ((List.range (head 2 + head 4)).map get)) ∧
      (¬ passes → sound → plain → moved ((List.range (head 2)).map (fun i => get (head 4 + i)))) ∧
      (¬ passes → sound → chunked →
        let z := 2 ^ (head 0 / 2 ^ 12 % 4)
        let offset (i : Nat) : Nat := leNat ((List.range 4).map (fun j => get (head 3 + (4 * i + j))))
        let raw (i : Nat) : Prop := 2 ^ 31 ≤ offset i
        let base (i : Nat) : Nat := offset i % 2 ^ 31
        let bit (i j : Nat) : Bool := (get (head 4 + (base i + j / 8))).getLsbD (j % 8)
        let before (i j : Nat) : Nat := ((List.range j).filter (bit i)).length
        (∀ i, i < (C + 127) / 128 → base i < base (i + 1) ∧ (¬ raw i → before i 128 * z + 16 ≤ base (i + 1) - base i ∧
          ∀ j, j < 128 → bit i j = true → 128 * i + j < C)) →
        ∀ bs : List Byte, bs.length = C * z → (∀ e j, e < C → j < z →
          (raw (e / 128) → bs.getD (e * z + j) 0 = get (head 4 + (base (e / 128) + (e % 128 * z + j)))) ∧
          (¬ raw (e / 128) → bs.getD (e * z + j) 0 = if bit (e / 128) (e % 128) then
            get (head 4 + (base (e / 128) + (16 + before (e / 128) (e % 128) * z + j))) else 0)) → moved bs)) ∧
    (cmdOp k.word = 3 → layoutOk l none = true → near 3 row →
      let G := L 0 / 2 ^ 16
      let latent (i : Nat) : Word32 := bf16Read (src row (2 * i + 1) ++ src row (2 * i))
      let theta : Word32 := if L 5 % 2 ^ 16 = 0 then 0x3F00_0000 else bf16Read (BitVec.ofNat 16 (L 5))
      (∀ g, g < n / G → near 4 (out + g * G / 5) ∧ near 4 (L 6 + 2 * (g * L 1 + r.done))) →
      ¬ F32Nan theta → ¬ F32Inf theta → (∀ i, i < n → ¬ F32Nan (latent i) ∧ ¬ F32Inf (latent i)) →
      ∀ sum : Nat → Nat → Word32, (∀ g, sum g 0 = 0) →
      (∀ g j, j < G → F32Sum (sum g j) (latent (g * G + j) &&& 0x7FFF_FFFF) (sum g (j + 1))) → (∀ g, g < n / G → ¬ F32Inf (sum g G)) →
      ∃ ws, moves (.tern c) ws ∧ ws.length = 2 * (n / G) ∧ ∀ g, g < n / G → ∃ mean tau bs scale,
        F32Rounds false (f32Value (sum g G) / G) mean ∧ F32Product theta mean tau ∧ Bf16Rounds mean scale ∧
        ws[2 * g]? = some (out + g * G / 5, bs) ∧ ws[2 * g + 1]? = some (L 6 + 2 * (g * L 1 + r.done), leBytes 2 scale.toNat) ∧
        bs.length = G / 5 ∧ ∀ i, i < G / 5 → (bs.getD i 0).toNat = ((List.range 5).map (fun j =>
          let w := f32Rank (latent (g * G + (5 * i + j)))
          (if f32Rank mean = 0 then 1 else if f32Rank tau < w then 2 else if w < -f32Rank tau then 0 else 1) * 3 ^ j)).sum)

/-! ## The Dipper, reduction and ring engines -/

/-- R284-R288, R323, R331: the Dipper of a cluster runs the next batch of the core whose turn it is, between SRAM ranges and after every address
of the batch: a GATHER writes a destination row per row named, the table's or copies of the fill byte; a SCATTER writes each row of
its source to the table row named, in list order, and a SCADD adds it there; PAGES writes each page to its slot. At the batch's end
its counts go to WDOG and its barrier is counted. While a batch of its cluster is open a command is accepted and waits (that a batch reads
memory at one moment, and that the Dipper begins no other batch before a command that has had its last batch completes, are the model's
choices: logs 7 and 91). The walks of a batch may serve memory cores of the die that wait on the same page (R138). -/
def Obligations.DipperBatches : Prop :=
  ∀ (c : Nat) (r : DipperRun) (s : State), c < 2048 →
    let here : CoreId := .comp c
    let x := s.core here
    let k := r.cmd
    let RB := cmdW5 k.word / 2 ^ 16
    let rows := cmdW6 k.word % 2 ^ 24
    let csr := k.word.getLsbD 23
    let near (slot off : Nat) : Prop := isExternal (k.at slot off).toNat = false
    let byte (slot off i : Nat) : Byte := s.byte (rawHome here (k.at slot off).toNat + i)
    let n := min 8 ((if cmdOp k.word = 4 then cmdW5 k.word else cmdW5 k.word % 2 ^ 16) - r.done)
    let index (size i : Nat) : Nat := leNat ((List.range 4).map (fun b => byte 2 (size * r.done) (4 * i + b)))
    let runs (op : Nat) : Prop := x.eng.dipperRun = some r ∧ dipperTurn s (c / 16) = some c ∧ cmdOp k.word = op ∧
      heldByRecovery s here k = false
    let opened (m t : State) (stride rows oob neglen : Nat) : Prop :=
      t.core here = { x with eng := { x.eng with
        dipperRun := some { r with stride := stride, batch := some (n, rows), oob := oob, neglen := neglen } } } ∧
      ∀ d, coreKey d ≠ c → t.core d = m.core d
    let frame (t : State) : Prop := t = { s with cores := t.cores, mem := t.mem, tags := t.tags }
    let one : List Nat := (List.range n).map (index 4)
    let pairs : List (Nat × Nat) := (List.range n).map (fun i => (index 8 (2 * i), index 8 (2 * i + 1)))
    let named : List Nat := if csr then pairs.flatMap (fun p => (List.range (p.2 - p.1)).map (fun i => p.1 + i)) else one
    let home := k.home here 4 + r.rows * RB
    (runs 1 → 1 ≤ RB → near 2 ((if csr then 8 else 4) * r.done) → (∀ y ∈ named, y < rows → near 3 (y * RB)) →
      (k.word.getLsbD 22 = true → RB % 256 = 0) → (csr = true → named.length + r.rows ≤ ((k.slot 4).top - k.addr 4).toNat / RB) →
      ∃ t, exec (.gather c) s = .next t ∧ frame t ∧
        opened s t r.stride named.length (named.countP (fun y => rows ≤ y)) (if csr then pairs.countP (fun p => p.2 < p.1) else 0) ∧
        (∀ i b, i < named.length → b < RB → t.byte (home + i * RB + b) =
          let y := named.getD i 0
          let b := if k.word.getLsbD 22 then 16 * ((b / 16) ^^^ ((k.base + r.rows + i) % 16)) + b % 16 else b
          if y < rows then byte 3 (y * RB) b else k.word.extractLsb' 216 8) ∧
        ∀ a, a < home ∨ home + named.length * RB ≤ a → t.byte a = s.byte a) ∧
    (∀ add : Bool, runs (if add then 3 else 2) → 1 ≤ RB → (add = true → RB % 4 = 0) → near 2 (4 * r.done) → near 3 (r.done * RB) →
      (∀ y ∈ one, y < rows → near 4 (y * RB)) →
      let kept := (List.range n).filter (fun i => index 4 i < rows)
      let table (i : Nat) : Nat := rawHome here (k.at 4 (index 4 i * RB)).toNat
      let row (i : Nat) : List Byte := (List.range RB).map (fun b => byte 3 (r.done * RB) (i * RB + b))
      let target (i : Nat) : Nat := k.home here 4 + index 4 i * RB
      let sum (m : State) (i e : Nat) : BitVec 32 :=
        let old := BitVec.ofNat 32 (m.num (target i + 4 * e) 4)
        let new := BitVec.ofNat 32 (leNat (((row i).drop (4 * e)).take 4))
        if k.word.getLsbD 24 then fpAdd old new else old + new
      let after := if add then kept.foldl (fun m i => m.write (target i) ((List.range (RB / 4)).flatMap (fun e => leBytes 4 (sum m i e).toNat))) s
        else kept.foldl (fun m i => m.write (table i) (row i)) s
      ∃ t, exec (if add then .scadd c else .scatter c) s = .next t ∧ frame t ∧ opened s t r.stride n (n - kept.length) 0 ∧
        t.mem = after.mem ∧ t.tags = after.tags) ∧
    (let E := leNat ((List.range 4).map (byte 3 0))
     let D := leNat ((List.range 4).map (fun i => byte 3 0 (4 + i)))
     let field (y lo len : Nat) : Nat := leNat ((List.range len).map (fun i => byte 3 (16 + 16 * y) (lo + i)))
     let inside := one.filter (fun y => y < E)
     let wanted := one.map (fun y => if y < E then some (field y 0 8, field y 8 4, field y 12 4 == 1) else none)
     ∀ (s' : State) (ps : List (List Byte)), runs 4 → near 2 (4 * r.done) → near 3 0 → (∀ y ∈ inside, near 3 (16 + 16 * y)) →
      D % 64 = 0 → (∀ i, i < 8 → byte 3 0 (8 + i) = 0) →
      (∀ y ∈ inside, 1 ≤ field y 8 4 ∧ field y 8 4 ≤ D ∧ field y 12 4 ≤ 1 ∧ 0x1_0000_0000_0000 ≤ field y 0 8 ∧
        field y 0 8 + field y 8 4 ≤ 0x200_0000_0000_0000) →
      readPages s c D wanted = .ok (ps.map .ok, s') →
      let after := (List.range n).foldl (fun m i => m.write (k.home here 4 + (r.rows + i) * D) (ps.getD i [])) s'
      ∃ t, exec (.pages c) s = .next t ∧ t = { s' with cores := t.cores, mem := t.mem, tags := t.tags } ∧ t.mem = after.mem ∧ t.tags = after.tags ∧ opened s' t D n (one.countP (fun y => E ≤ y)) 0 ∧
        (∀ i, i < n → E ≤ one.getD i 0 → ps.getD i [] = List.replicate D 0)) ∧
    (∀ m rows, r.batch = some (m, rows) → x.eng.dipperRun = some r →
      (∀ d, d / 16 = c / 16 → d < c → ∀ o, (s.core (.comp d)).eng.dipperRun = some o → o.batch = none) →
      ∃ t, exec (.dipperBatch (c / 16)) s = .next t ∧
        (∀ d, coreKey d ≠ c → (t.core d).unnoted = (s.core d).unnoted) ∧ (∀ q, q ≠ c / 16 → t.cluster q = s.cluster q) ∧
        t.cluster (c / 16) = { s.cluster (c / 16) with lastServed := some c } ∧
        t = { s with cores := t.cores, clusters := t.clusters, mem := t.mem, tags := t.tags } ∧
        (t.core here).unnoted = { x with
          sys := { x.sys with wdog := (t.core here).sys.wdog }
          eng := { x.eng with
            dipperRun := some { r with
              done := r.done + m, rows := r.rows + rows, batch := none, oob := 0, neglen := 0
              ended := if dipperCount k ≤ r.done + m then some (s.now here) else none } } }.unnoted ∧
        (t.core here).sys.wdog.extractLsb' 0 32 = x.sys.wdog.extractLsb' 0 32 ∧
        ((t.core here).sys.wdog.extractLsb' 48 16).toNat = min 0xFFFF ((x.sys.wdog.extractLsb' 48 16).toNat + r.oob) ∧
        ((t.core here).sys.wdog.extractLsb' 32 16).toNat = min 0xFFFF ((x.sys.wdog.extractLsb' 32 16).toNat + r.neglen) ∧
        (k.has 7 = false → t.mem = s.mem ∧ t.tags = s.tags) ∧
        (k.has 7 = true → BytesWritten s t (k.home here 7) (leBytes 8 (s.num (k.home here 7) 8 + 1)) false)) ∧
    ∀ (o : Cmd) (e : DipperRun) (d : Nat), x.eng.dipperRun = none → x.head 3 = some o → dipperAccepts s c o = true →
      d / 16 = c / 16 → d ≠ c → (s.core (.comp d)).eng.dipperRun = some e → e.batch.isSome = true →
      (cmdOp o.word = 1 ∨ cmdOp o.word = 2 ∨ cmdOp o.word = 3) →
      ∃ t, exec (if cmdOp o.word = 1 then .gather c else if cmdOp o.word = 2 then .scatter c else .scadd c) s = .next t ∧
        OnlyCores s t ∧ (∀ d, coreKey d ≠ c → t.core d = s.core d) ∧
        t.core here = (let y := x.take 3 o; { y with eng := { y.eng with dipperRun := some ⟨o, 0, 0, none, 0, 0, 0, none⟩ } })

/-- R289, R304, R331: the reduction engine sums the copies of a MERGE element by element in ascending order, modulo 2^32 or in FP32, and counts its
barrier. An RSEND places its bytes on the stream in beats of 64, which leave while there is credit; an RRECV writes what has
arrived; a beat joins the receiver's buffer within the credit, and a unit of credit that returns lets the next beat leave (that memory is
read and written at acceptance, and the order of the beats of two commands, are the model's: logs 7 and 51). -/
def Obligations.MergeAndRing : Prop :=
  ∀ (c sn : Nat) (k : Cmd) (b : Stream) (beat : List Byte) (s : State), c < 2048 →
    let here : CoreId := .comp c
    let x := s.core here
    let W5 := cmdW5 k.word
    let copies := cmdW6 k.word % 32
    let others (t : State) : Prop := ∀ d, coreKey d ≠ c → t.core d = s.core d
    let copy (j e : Nat) : BitVec 32 := BitVec.ofNat 32 (s.num (k.home here 2 + j * (64 * ((4 * W5 + 63) / 64)) + 4 * e) 4)
    let total (e : Nat) : BitVec 32 := ((List.range copies).drop 1).foldl (fun a j =>
      if k.word.getLsbD 22 then fpAdd a (copy j e) else a + copy j e) (copy 0 e)
    let summed := s.write (k.home here 4) ((List.range W5).flatMap (fun e => leBytes 4 (total e).toNat))
    let after := if k.has 7 then
      summed.write (k.home here 7) (leBytes 8 ((summed.num (k.home here 7) 8 + 1) % 2 ^ 64)) else summed
    let alone (op : Nat) : Prop := x.eng.ringRuns = [] ∧ x.head 5 = some k ∧ cmdOp k.word = op ∧ onTime s here k = true ∧
      mapGet s.streams (cmdW6 k.word % 2 ^ 16) = some b
    let taken (t : State) (done : Nat) : Prop := others t ∧
      t.core here = (let y := x.take 5 k; { y with eng := { y.eng with ringRuns := [⟨k, done⟩] } })
    let leaves (u v : Stream) : Prop :=
      let m := min u.credit u.pending.length
      v = { u with pending := u.pending.drop m, flying := u.flying ++ (u.pending.take m).map (fun p => p.2), credit := u.credit - m }
    let stream (t : State) (n : Nat) (v : Stream) : Prop := mapGet t.streams n = some v ∧ ∀ m, m ≠ n → mapGet t.streams m = mapGet s.streams m
    (x.eng.reduction = none → x.head 4 = some k → onTime s here k = true → 1 ≤ copies →
      ∃ t, exec (.merge c) s = .next t ∧ t.mem = after.mem ∧ t.tags = after.tags ∧
        (∀ d, coreKey d ≠ c → (t.core d).unnoted = (s.core d).unnoted) ∧
        t = { s with cores := t.cores, clusters := t.clusters, mem := t.mem, tags := t.tags } ∧
        (t.core here).unnoted = (let y := x.take 4 k; { y with eng := { y.eng with reduction := some k } }).unnoted ∧
        (∀ q, q ≠ c / 16 → t.cluster q = s.cluster q) ∧
        t.cluster (c / 16) = { s.cluster (c / 16) with merges := (s.cluster (c / 16)).merges ++ [c] }) ∧
    (alone 1 → (∀ o ∈ x.eng.queue 5, seqBefore o.seq k.seq = false) →
      let bytes := s.bytes (k.home here 2) W5
      ∃ t v, exec (.rsend c) s = .next t ∧ taken t W5 ∧ t = { s with cores := t.cores, streams := t.streams } ∧
        stream t (cmdW6 k.word % 2 ^ 16) v ∧ leaves { b with
          pending := b.pending ++ (List.range ((W5 + 63) / 64)).map (fun i => (k.seq, (bytes.drop (64 * i)).take 64)) } v) ∧
    (alone 2 → ringEnded s c = false → 1 ≤ W5 → (∀ l ∈ b.buffer, 1 ≤ l.length) → (∀ l, b.buffer.head? = some l → b.taken < l.length) →
      let bs := (b.buffer.flatten.drop b.taken).take W5
      ∃ t v, exec (.rrecv c) s = .next t ∧ taken t bs.length ∧
        t = { s with cores := t.cores, streams := t.streams, mem := t.mem, tags := t.tags } ∧
        BytesWritten s t (k.home here 4) bs false ∧ stream t (cmdW6 k.word % 2 ^ 16) v ∧
        v = { b with buffer := v.buffer, taken := v.taken, owed := v.owed } ∧
        v.buffer.flatten.drop v.taken = (b.buffer.flatten.drop b.taken).drop W5 ∧ v.owed + v.buffer.length = b.owed + b.buffer.length) ∧
    (mapGet s.streams sn = some b → ∃ t v, exec (.rillBeatArrival sn beat) s = .next t ∧ t = { s with streams := t.streams } ∧ stream t sn v ∧
      v = { b with flying := v.flying, buffer := v.buffer } ∧
      v.flying = (if b.entry.senderModule = s.module.number then b.flying.erase beat else b.flying) ∧
      v.buffer = (if b.entry.receiverModule = s.module.number ∧ b.buffer.length + b.owed < b.entry.credit ∧ 1 ≤ beat.length ∧
        beat.length ≤ 64 then b.buffer ++ [beat] else b.buffer)) ∧
    (mapGet s.streams sn = some b → ∃ t v, exec (.rillCreditReturn sn) s = .next t ∧ t = { s with streams := t.streams } ∧ stream t sn v ∧
      let u := { b with owed := if b.entry.receiverModule = s.module.number then b.owed - 1 else b.owed }
      if b.entry.senderModule = s.module.number ∧ b.credit + b.flying.length < b.entry.credit then
        leaves { u with credit := b.credit + 1 } v
      else v = u)

/-! ## Completion and timing -/

/-- R192, R225, R278, R285, R289, R304, R313, R315: an engine whose command has come to its end completes it: its Sluice entries clear, its ring entry
reads completed, its event bit is set on this cycle with E, and the engine is free. A command on the array leaves on that cycle what
its run holds. Nothing else changes but PROGRESS, 0 after a matrix command that is no DRAIN (R241), and the barrier of a timed copy,
which counts its pieces. -/
def Obligations.EnginesComplete : Prop :=
  ∀ (c : Nat) (h : CoreId) (k : Cmd) (s : State), c < 2048 → h.wf = true →
    let here : CoreId := .comp c
    let x := s.core here
    let engines (at0 : CoreId) (e : Engines) (t : State) : Prop :=
      let y := (t.core at0).eng
      y = { e with sluice := e.sluice.filter (fun o => o.seq ≠ k.seq), ring := y.ring } ∧
      ∀ n, mapGet y.ring n = if n = k.seq.toNat % 64
        then (mapGet e.ring n).map (fun o => if o.seq = k.seq then { o with status := 2 } else o) else mapGet e.ring n
    let others (at0 : CoreId) (t : State) : Prop := ∀ d, coreKey d ≠ coreKey at0 → t.core d = s.core d
    let event (at0 : CoreId) (q : Cluster) (t : State) : Prop := t.cluster (clusterOf at0) =
      (if k.word.getLsbD 13 then
        { q with landing := q.landing ++ [⟨some (s.now at0), true, BitVec.ofNat 256 (2 ^ (k.word.extractLsb' 14 8).toNat), none⟩] } else q) ∧
      ∀ n, n ≠ clusterOf at0 → t.cluster n = s.cluster n
    let done (i : Instr) (u : State) (at0 : CoreId) (e : Engines) (p : Word) : Prop := ∃ t, exec i s = .next t ∧ engines at0 e t ∧ others at0 t ∧
      event at0 (s.cluster (clusterOf at0)) t ∧ t = { u with cores := t.cores, clusters := t.clusters } ∧
      t.core at0 = { u.core at0 with eng := (t.core at0).eng, sys := { (u.core at0).sys with progress := p } }
    (∀ r e, x.eng.array = some r → r.cmd = k → r.isBlock = false → r.ending = .done → r.bad = 0 → k.joint = none →
      x.eng.stopAt = none → r.finish ≤ s.now here → drainStream k = none → k.word ≠ BitVec.allOnes 256 → e = .matrix ∨ e = .seed →
      done (.engineCompletion here e k.seq) (landRun s c r) here { x.eng with array := none, freeAt := r.finish, cmdEnd := r.finish }
        (if cmdEngine k.word = 0 ∧ cmdOp k.word ≠ 3 then 0 else x.sys.progress)) ∧
    (∀ r, let y := s.core h
      y.eng.copyRun = some r → r.cmd = k → r.ended = true → (∀ l ∈ y.eng.landing, l.cmd.seq ≠ k.seq) →
      cmdEngine k.word = 2 → done (.engineCompletion h .copy k.seq) s h { y.eng with copyRun := none, copyFree := s.now h } y.sys.progress) ∧
    (∀ r a b, let y := s.core h
      let n := (cmdW5 k.word + 4095) / 4096
      y.eng.landing = a ++ r :: b → r.flight = [] → r.cmd = k → (∀ l ∈ a ++ b, l.cmd.seq ≠ k.seq) → y.eng.stopAt = none →
      (∀ f, r.finish = some f → f ≤ s.now h) → 1 ≤ n →
      ∃ t, exec (.engineCompletion h .copy k.seq) s = .next t ∧ engines h { y.eng with landing := a ++ b } t ∧
        (∀ d, coreKey d ≠ coreKey h → (t.core d).unnoted = (s.core d).unnoted) ∧
        event h (s.cluster (clusterOf h)) t ∧ (t.core h).unnoted = { y with eng := (t.core h).eng }.unnoted ∧
        t = { s with cores := t.cores, clusters := t.clusters, mem := t.mem, tags := t.tags } ∧
        (k.has 7 = false → t.mem = s.mem ∧ t.tags = s.tags) ∧
        (k.has 7 = true → BytesWritten s t (k.home h 7) (leBytes 8 (s.num (k.home h 7) 8 + n)) false)) ∧
    (∀ r, x.eng.dipperRun = some r → r.cmd = k → r.batch = none → dipperCount k ≤ r.done →
      done (.engineCompletion here .dipper k.seq) s here { x.eng with dipperRun := none } x.sys.progress) ∧
    (∀ l, x.eng.reduction = some k → (s.cluster (c / 16)).merges = c :: l →
      ∃ t, exec (.engineCompletion here .reduction k.seq) s = .next t ∧ engines here { x.eng with reduction := none } t ∧ others here t ∧
        event here { s.cluster (c / 16) with merges := l } t ∧ t.core here = { x with eng := (t.core here).eng } ∧
        t = { s with cores := t.cores, clusters := t.clusters }) ∧
    ∀ r a b, x.eng.ringRuns = a ++ r :: b → r.cmd = k → (∀ l ∈ a ++ b, l.cmd.seq ≠ k.seq) → cmdW5 k.word ≤ r.done →
      (cmdOp k.word ≠ 1 → ringEnded s c = false) → (cmdOp k.word = 1 → ∀ o, mapGet s.streams (cmdW6 k.word % 2 ^ 16) = some o → ∀ p ∈ o.pending, p.1 ≠ k.seq) →
      done (.engineCompletion here .ring k.seq) s here { x.eng with ringRuns := a ++ b } x.sys.progress

/-- R101, R141, R206, R209, R322: a timed command at the head of its queue whose W1 has passed raises TIMING, imprecise and fatal, and leaves its
queue, or ECC when it touches a block under recovery (the cause's fields are the model's: log 39);
GCYC raises TIMING, with no command, when it reaches 0xFFFF_FFFF in a window. -/
def Obligations.MissedTimesRaiseTiming : Prop :=
  ∀ (c : Nat) (s : State), c < 2048 →
    let here : CoreId := .comp c
    let x := s.core here
    let raised (code : Nat) (t : State) (e : Engines) (f : PendingFault) : Prop := OnlyCore s t here ∧
      t.core here = { x with eng := e, issue := { x.issue with faults := x.issue.faults ++ [f] } } ∧
      f.code = code ∧ f.fatal = true ∧ f.cycle = s.now here
    (∀ (k : Cmd) (l : List Cmd) (p : Engine × Nat × Nat), p ∈ [(.matrix, 0, 1), (.seed, 1, 2), (.copy, 2, 3)] →
      x.eng.queue p.2.1 = k :: l → k.word.getLsbD 12 = true → k.enters ≤ s.now here → x.dispatches = true → x.sys.gcycHeld = none →
      (k.word.extractLsb' 32 32).toNat < (s.gcyc here).toNat → (p.2.1 = 0 ∨ k.joint = none) →
      ∃ t f, exec (.timingFault c p.1) s = .next t ∧ raised (if heldBlock s here k = none then 0x11 else 0x13) t (t.core here).eng f ∧
        (heldBlock s here k = none → f.val = (s.gcyc here).setWidth 64 ∧ f.seq = some k.seq ∧ f.source = p.2.2) ∧
        (∀ b, heldBlock s here k = some b → f.val = BitVec.ofNat 64 (homeAddress (4096 * b)) ∧ f.seq = none ∧ f.source = 9) ∧ (t.core here).eng.queue p.2.1 = l.filter (fun o => o.seq ≠ k.seq) ∧
        (t.core here).eng = { x.eng with queues := (t.core here).eng.queues, ring := (t.core here).eng.ring } ∧
        ∀ n, n ≠ p.2.1 → (t.core here).eng.queue n = x.eng.queue n) ∧
    (x.tw = true → x.sys.gcycHeld = none → s.gcyc here = 0xFFFF_FFFF →
      (∀ f ∈ x.issue.faults, f.code = 0x11 → f.seq = none → f.val ≠ 0xFFFF_FFFF) → (∀ t, x.issue.trapWait = some t → t.fatal = false) →
      (∀ g, s.gangOf here = some g → ∀ p ∈ g.fatalAt, p.1 ≠ here) →
      ∃ t f, exec (.gcycLimit c) s = .next t ∧ raised 0x11 t x.eng f ∧ f.val = 0xFFFF_FFFF ∧ f.seq = none ∧ f.source = 0)

/-! ## Cascade mode -/

/-- R246, R250, R251, R253-R258: `cascade` enters Cascade mode at the block of its capability once the core is idle; the fetcher loads a block that
passes its checks; each kind of block has its effect on the slice, the event bits, the banks or the link, and a completed block
leads to the block of its link, or out of the mode with g4 at the block (what a block reads when it starts is log 7, the words of its ring entry log 30, the number from which
the ring's own count runs log 37; that a slot register is read as it stands even where a stream is bound to it is the model's choice, log 83,
as is that a single step of a last block falls due at the word after the `cascade`, log 85). -/
def Obligations.CascadesRun : Prop :=
  ∀ (c : Nat) (k : Cascade) (h : BitVec 256) (s : State), c < 2048 →
    let here : CoreId := .comp c
    let x := s.core here
    let now := s.now here
    let H (n : Nat) : BitVec 32 := h.extractLsb' (32 * n) 32
    let chainByte (base i : Nat) : Byte := s.byte (rawHome here ((base + i) / 4096 * 4096) + (base + i) % 4096)
    let origin (chain : Reg) (block : Nat) : Word :=
      BitVec.ofNat 64 ((((block : Int) - chain.base) / 32).toNat % 2 ^ 32 * 2 ^ 32 + 8)
    let alone (t : State) : Prop := OnlyCore s t here
    let aim (a : Int) : Reg := k.chain.shift (a - k.chain.cursor)
    let target (l : BitVec 32) : Int := (k.block : Int) + 32 * l.toInt
    let after (l : BitVec 32) (y : Core) : Core :=
      if l = 0 then y else { y with
        sys := { y.sys with progress := origin k.chain (target l).toNat }
        cascade := some { k with block := (target l).toNat, header := none, cmd := none, link := none, start := now }
        issue := { y.issue with stepDue := y.issue.stepDue || (y.stepOn && !y.system && !y.tw) } }
    let picks (i : Instr) (l : BitVec 32) : Prop := ∃ t, exec i s = .next t ∧ alone t ∧
      t.core here = { x with cascade := some { k with link := some l, start := now, resumeAt := none } }
    let ends (op : Nat) (l : BitVec 32) : Prop := x.cascade = some k ∧ k.header = some h ∧ k.link = some l ∧ blockOp h = op ∧
      k.start + 1 ≤ now ∧ x.casc = true ∧ x.run = .running ∧ x.issue.loopCopy = none ∧ x.ops = [] ∧ x.vq = []
    let onArray (t : State) (q : BitVec 32) (occ : Nat) (r : ArrayRun) : Prop := (t.core here).eng.array = some r ∧ r.cmd.seq = q ∧
      r.isBlock = true ∧ r.start = now ∧ r.finish = now + occ ∧ r.ending = .done
    let starts (op : Nat) (cmd : Cmd) : Prop := blockMayStart s c op = some (k, h) ∧ k.cmd = some cmd ∧
      banksReady s c (runningCmd h cmd) = true ∧ s.lanes c ≠ 0 ∧ cmd.base + 2 ^ 21 ≤ 0x1_0000_0000_0000 ∧
      s.module.recovering = []
    let sliced (t : State) : Prop := SliceBegun { x with cascade := some { k with resumeAt := none } } (t.core here)
    let act (cmd : Cmd) (m i : Nat) : Int := (s.byte (cmd.home here 2 + rowBytes (cmdK cmd.word) * m + i)).toInt
    let from0 (cmd : Cmd) (i : Nat) : Int := if cmdAcc cmd.word then (s.cell c (cmdBank cmd.word) i).toInt else 0
    let sum (n : Nat) (f : Nat → Int) : Int := ((List.range n).map f).sum
    let leaves (r : ArrayRun) (bank M N : Nat) (v : Nat → Nat → Int) : Prop := ∀ (u : State) (b i : Nat), i < 512 →
      (landRun u c r).cell c b i =
        if bank * 512 ≤ b * 512 + i ∧ b * 512 + i < bank * 512 + M * N then
          BitVec.ofInt 32 (v ((b * 512 + i - bank * 512) / N) ((b * 512 + i - bank * 512) % N))
        else if bank ≤ b ∧ b < bank + spanBanks M N then s.cell c b i else u.cell c b i
    -- entry
    (∀ (S : Bool) (a : BitVec 5) (p : Place), s.cur = here → x.system = false → s.plain a →
      let r := s.greg a
      r.tag = true → r.permX = true → r.base ≤ r.cursor → (r.cursor : Int) + 32 ≤ r.top → (r.space < 2 → r.owner = c) →
      s.resolve here false r.cursor 32 .no true = .ok p → r.cursor % 32 = 0 → r.base % 32 = 0 → (x.tw = true → p.own = true) →
      x.ops = [] → x.vq = [] → x.eng.queue 0 = [] → x.eng.queue 1 = [] → x.eng.array = none →
      (x.eng.freeAt = 0 ∨ x.eng.freeAt + 6 ≤ now) →
      ∃ t, exec (.cascade S a) s = .next t ∧ alone t ∧ t.core here = { x with
        sys := { x.sys with status := x.sys.status ||| 2, progress := origin r r.cursor }
        cascade := some ⟨r, r.cursor, none, none, now + 2, none, none⟩ }) ∧
    -- loading
    (let n := 32 + 32 * blockLength h
     x.cascade = some k → k.header = none → x.eng.array = none → x.chainRuns = true → s.module.recovering = [] → k.block % 32 = 0 → k.block + n ≤ 0x1_0000_0000_0000 →
      k.chain.base ≤ k.block → (k.block + n : Int) ≤ k.chain.top → (∀ i, i < 32 → h.extractLsb' (8 * i) 8 = chainByte k.block i) →
      headerOk h = true → blockPlaceOk s c k.block n = true → linksOk k.chain k.block h = true →
      (4 ≤ blockOp h → (blockOp h = 6 → x.tw = false) → ∃ t, exec (.cascadeBlockLoad c) s = .next t ∧ alone t ∧
        t.core here = { x with cascade := some { k with header := some h, cmd := none } }) ∧
      (∀ r, blockOp h = 1 ∨ blockOp h = 3 →
        let w := blockCommand x.sys.fmt h
        let sp := blockSlot w
        checkSlot s here w (x.reg (slotReg w sp.n)) sp = .ok r → blockRulesOk s c h w r.toList = true →
        ∃ t cmd, exec (.cascadeBlockLoad c) s = .next t ∧ alone t ∧ cmd.word = w ∧ cmd.seq = x.eng.seq ∧ cmd.base = k.block + 32 ∧
          cmd.slot sp.n = (if slotReg w sp.n = 0 then Reg.zero else x.reg (slotReg w sp.n)) ∧
          t.core here = { x with
            cascade := some { k with header := some h, cmd := some cmd }
            eng := { x.eng with seq := x.eng.seq + 1, ring := (t.core here).eng.ring, ringBase := (t.core here).eng.ringBase } } ∧
          (t.core here).eng.ringBase = (if (x.eng.seq - x.eng.ringBase).toNat ≥ 2 ^ 30 then x.eng.seq - 2 ^ 30 else x.eng.ringBase) ∧
          ∀ m, mapGet (t.core here).eng.ring m =
            if m = x.eng.seq.toNat % 64 then some ⟨w, 2, 0, x.eng.seq⟩ else mapGet x.eng.ring m)) ∧
    -- the blocks without a command
    (let landing := (s.cluster (c / 16)).landing.filter (fun p => p.due.isSome && s.lands (c / 16) p)
     let e := (h.extractLsb' 96 8).toNat
     let bit := ((s.cluster (c / 16)).ev.getLsbD e && !landing.any (fun p => !p.isSet && p.mask.getLsbD e)) ||
       landing.any (fun p => p.isSet && p.mask.getLsbD e) || (s.freshBits (c / 16)).getLsbD e
     (blockMayStart s c 4 = some (k, h) → k.link = none → picks (.blockBranch c) (if bit = h.getLsbD 104 then H 2 else H 1)) ∧
     (blockMayStart s c 5 = some (k, h) → k.link = none → picks (.blockYield c) 0) ∧
     (blockMayStart s c 6 = some (k, h) → k.link = none → picks (.blockEnd c) 0) ∧
     (blockMayStart s c 7 = some (k, h) → k.link = none → picks (.blockPad c) (H 1)) ∧
     (blockMayStart s c 8 = some (k, h) → k.link = none → picks (.blockEvset c) (H 1))) ∧
    (∀ l, l ≠ 0 → (ends 4 l → ∃ t, exec (.blockBranch c) s = .next t ∧ alone t ∧ t.core here = after l x) ∧
      (ends 7 l → ∃ t, exec (.blockPad c) s = .next t ∧ alone t ∧ t.core here = after l x) ∧
      (ends 8 l → ∃ t, exec (.blockEvset c) s = .next t ∧ t.core here = after l x ∧
        t = { s with cores := t.cores, clusters := t.clusters } ∧ (∀ q, q ≠ c / 16 → t.cluster q = s.cluster q) ∧
        (∀ d, coreKey d ≠ c → t.core d = s.core d) ∧ t.cluster (c / 16) = { s.cluster (c / 16) with
          landing := (s.cluster (c / 16)).landing ++ [⟨some now, true, BitVec.ofNat 256 (2 ^ (h.extractLsb' 160 8).toNat), none⟩] })) ∧
    (ends 5 0 → ∃ t, exec (.blockYield c) s = .next t ∧ alone t ∧
      (t.core here).reg 4 = aim k.block ∧ (t.core here).reg 5 = (if H 1 = 0 then Reg.zero else aim (target (H 1))) ∧
      (∀ r, r ≠ 4 → r ≠ 5 → (t.core here).reg r = x.reg r) ∧ (t.core here).casc = false ∧ (t.core here).sys.progress = 0 ∧
      (t.core here).pc = x.pc + 4 ∧ (t.core here).issue.readyAt = now ∧
      t.core here = { x with
        pc := x.pc + 4, g := (t.core here).g, cascade := none
        sys := { x.sys with status := (t.core here).sys.status, progress := 0 }
        issue := { x.issue with
          readyAt := now, regReady := (t.core here).issue.regReady, trapWait := x.issue.trapWait.map (fun t => { t with pc := x.pc + 4 })
          stepDue := x.issue.stepDue || (x.stepOn && !x.system && !x.tw) } }) ∧
    (ends 6 0 → ∃ t, exec (.blockEnd c) s = .next t ∧ alone t ∧ (t.core here).run = .retiring ∧ (t.core here).casc = false ∧
      (t.core here).cascade = none ∧ (t.core here).sys.progress = 0 ∧ (t.core here).issue.preempt = none ∧
      (x.issue.trapWait = none → (t.core here).issue.answered = x.issue.answered ++ x.issue.preempt.toList) ∧
      (∀ i : Fin 32, (t.core here).slice.holders[i] = if x.slice.holders[i] = .program then .free else x.slice.holders[i])) ∧
    -- the blocks with a command
    (∀ cmd, starts 1 cmd → cmdOp cmd.word = 1 → fmtA (cmdFmt cmd.word) = 0 → 1 ≤ matK h → cmdK cmd.word = matK h → cmdN cmd.word = matN h →
      matN h ≤ 128 → x.sys.progress.extractLsb' 5 27 = 0 →
      let M := if matCM h && !conditionMet s c h then 0 else matM h
      let trit (i n : Nat) : Int :=
        let b := (chainByte cmd.base (n * tileBytes (matK h) + i / 5)).toNat
        if b < 243 then ((b / 3 ^ (i % 5) % 3 : Nat) : Int) - 1 else 0
      ∃ t r occ, exec (.blockMmT c) s = .next t ∧ alone t ∧ sliced t ∧ onArray t cmd.seq occ r ∧ (M = 0 → occ = 1) ∧
        leaves r (cmdBank cmd.word) M (matN h) (fun m n => from0 cmd (m * matN h + n) + sum (matK h) (fun i => act cmd m i * trit i n))) ∧
    (∀ cmd d, starts 2 cmd → cmdOp cmd.word = 2 → fmtA (cmdFmt cmd.word) = 0 → 1 ≤ matK h → cmdK cmd.word = matK h → cmdN cmd.word = matN h →
      x.sys.progress.extractLsb' 5 27 = 0 →
      readSeeded (payloadByte s cmd.base (payloadPages s c cmd.base (blockBytes s c cmd)).1) 144 (matK h) (matN h) = some d →
      let M := if matCM h && !conditionMet s c h then 0 else matM h
      ∃ t r occ, exec (.blockMmS c) s = .next t ∧ alone t ∧ sliced t ∧ onArray t cmd.seq occ r ∧
        leaves r (cmdBank cmd.word) M (matN h) (fun m n => from0 cmd (m * matN h + n) + (d.terms.map (fun p =>
          p.2 * sum (matK h) (fun i => act cmd m i * generatorTrit p.1 (d.k0 + i) (d.n0 + n)))).sum)) ∧
    (∀ cmd, starts 3 cmd → blockKind h = 1 → blockLength h = 0 → fmtA (cmdFmt cmd.word) = 0 → fmtO (cmdFmt cmd.word) = 3 →
      cmd.has 3 = false →
      let M := cmdM cmd.word
      let N := cmdN cmd.word
      let home := 0x4_0000_0000_0000 + 0x20_0000 * (H 4).toNat + 64 * (h.extractLsb' 240 15).toNat
      ∃ t r, exec (.blockDrain c) s = .next t ∧ alone t ∧ onArray t cmd.seq (max 1 ((M * N + 31) / 32)) r ∧ sliced t ∧
        ∀ u : State, u.wf = true → (∀ b i, (landRun u c r).cell c b i = u.cell c b i) ∧
          (∀ m n, m < M → n < N → (landRun u c r).num (home + m * (64 * ((4 * N + 63) / 64)) + 4 * n) 4 =
            (fpOfInt (s.cell c (cmdBank cmd.word) (m * N + n)).toInt).toNat) ∧
          ∀ a, a < home ∨ home + M * (64 * ((4 * N + 63) / 64)) ≤ a → (landRun u c r).byte a = u.byte a) ∧
    -- the end of a block with a command
    ∀ r, x.eng.array = some r → r.isBlock = true → r.ending = .done → r.cmd.joint = none → x.eng.chainStop = none → r.finish ≤ now →
      drainStream r.cmd = none → x.cascade = some k → k.header = some h → H 1 ≠ 0 →
      let u := landRun s c r
      ∃ t, exec (.engineCompletion here .cascade r.cmd.seq) s = .next t ∧
        t = { u with cores := t.cores, clusters := t.clusters } ∧ (∀ d, coreKey d ≠ c → t.core d = s.core d) ∧
        t.core here = after (H 1) { u.core here with eng := { x.eng with
          array := none, freeAt := r.finish, cmdEnd := r.finish, sluice := x.eng.sluice.filter (fun o => o.seq ≠ r.cmd.seq), ring := (t.core here).eng.ring } }

/-! ## System registers -/

/-- R62, R65-R71, R101, R103, R116, R131, R311, R322: `sysrd` gives the value of each system register, the hidden ones to system level alone; `syswr` writes those
with a valid value, MSTAT but for its fenced quarters and the flags that hardware sets on this cycle (R325), STATUS but for its read-only bits with the capabilities of the generators it
binds, SHARE for the quad, GCYC from the next cycle on; PRIVSZ, XBASE and XLIMIT of the own die at once, and the word waits for the
copies of the others. Numbers and levels that R65 forbids raise ILLEGAL and PRIV. The cycle from which
GCYC counts on (log 32), two bound bytes that name one register (log 46), reserved bits that a write drops (log 54) and the level checked
before the direction of a bound operand (log 64) are the model's reading. -/
def Obligations.SystemRegisters : Prop :=
  ∀ (S : Bool) (d a : BitVec 5) (n : BitVec 14) (s : State),
    let x := s.core s.cur
    let v := s.gword a
    let mem := isMemCore s.cur
    let known : Prop := n.toNat ∈ ((List.range 7) ++ [0x10, 0x11, 0x12, 0x13, 0x14, 0x15, 0x20, 0x21, 0x22, 0x24, 0x25, 0x26, 0x27,
      0x30, 0x31, 0x32, 0x40, 0x41] : List Nat)
    let compute : Prop := n.toNat ∈ ([0x10, 0x11, 0x12, 0x15, 0x21, 0x30, 0x31, 0x40, 0x41] : List Nat)
    let hidden : Prop := 2 ≤ n.toNat ∧ n.toNat ≤ 6
    let readOnly : Prop := n.toNat ∈ ([0x14, 0x20, 0x30, 0x31, 0x32] : List Nat)
    let value : Word := match n.toNat with
      | 0x00 => x.sys.status
      | 0x01 => x.sys.priv
      | 0x02 => x.sys.trappc
      | 0x03 => x.sys.trapcause
      | 0x04 => x.sys.trapval
      | 0x05 => x.sys.trapseq
      | 0x06 => x.sys.trapvec
      | 0x10 => x.sys.fmt
      | 0x11 => if x.eng.array.isNone then x.sys.mstat else (matrixView s (coreIndex s.cur)).1
      | 0x12 => if x.eng.array.isNone then x.sys.progress else (matrixView s (coreIndex s.cur)).2
      | 0x13 => x.sys.privsz
      | 0x14 => BitVec.ofNat 64 (0x20_0000 + x.sys.privsz.toNat - 0x1_8000)
      | 0x15 => (s.quad (coreIndex s.cur / 4)).share
      | 0x20 => BitVec.ofNat 64 (s.now s.cur)
      | 0x21 => (s.gcyc s.cur).setWidth 64
      | 0x22 => x.sys.loopstate
      | 0x24 => x.sys.stream[0]
      | 0x25 => x.sys.stream[1]
      | 0x26 => x.sys.stream[2]
      | 0x27 => x.sys.stream[3]
      | 0x30 => x.sys.dtstat
      | 0x31 => x.sys.pair
      | 0x32 => x.sys.wdog
      | 0x40 => x.sys.xbase
      | _ => x.sys.xlimit
    let traps (i : Instr) (code : Nat) : Prop := TrapFree s s.cur → ∃ t, exec i s = .next t ∧
      TrapTaken s t s.cur code ((s.issuingWord s.cur).setWidth 64) x.pc
    let passes (i : Instr) (y : Core) : Prop := ∃ t, exec i s = .next t ∧ WordDone S 1 s t ∧ OnlyCore s t s.cur ∧
      OnlyPassed y (t.core s.cur)
    let write : Instr := .syswr S a n
    let writes (r : Nat) (y : SysRegs) : Prop := n.toNat = r → passes write { x with sys := y }
    let zero (lo len : Nat) : Prop := v.extractLsb' lo len = 0
    -- reading
    (known → ¬ (mem = true ∧ compute) → (x.system = true ∨ ¬ hidden) → s.unbound d →
      ∃ t, exec (.sysrd S d n) s = .next t ∧ RegisterWord S d ⟨false, 0, value⟩ 1 s t) ∧
    ((¬ known ∨ mem = true ∧ compute) → traps (.sysrd S d n) 0x01) ∧
    (known → hidden → x.system = false → traps (.sysrd S d n) 0x02) ∧
    -- writing
    (s.plain a → (x.system = true ∨ n.toNat = 0x10 ∨ n.toNat = 0x11) → ¬ (mem = true ∧ compute) →
      writes 0x02 { x.sys with trappc := v } ∧
      (zero 16 48 → zero 10 2 → writes 0x03 { x.sys with trapcause := v }) ∧
      writes 0x04 { x.sys with trapval := v } ∧
      writes 0x05 { x.sys with trapseq := v &&& 0x1_FFFF_FFFF } ∧
      (zero 0 2 → writes 0x06 { x.sys with trapvec := v }) ∧
      (zero 9 55 → (v.extractLsb' 7 2).toNat < 3 → (v.extractLsb' 3 3).toNat < 4 → (v.extractLsb' 0 3).toNat < 2 →
        writes 0x10 { x.sys with fmt := v }) ∧
      (zero 44 20 → zero 1 7 → n.toNat = 0x11 →
        let now := s.now s.cur
        let set := (if x.slice.flagged.1 = now then x.slice.flagged.2 else 0) ||| (match x.eng.array with | some r => r.flagsOn now | none => 0)
        passes write { x with
          sys := { x.sys with mstat := ((v &&& ~~~(0xF#64 <<< 40)) ||| (x.sys.mstat &&& (0xF#64 <<< 40))) ||| set }
          eng := { x.eng with array := x.eng.array.map (fun r => { r with flags := r.flags.filter (fun p => decide (now < p.1)) }) } }) ∧
      writes 0x12 { x.sys with progress := v &&& ~~~3#64 } ∧
      (zero 32 32 → n.toNat = 0x15 → ∃ t, exec write s = .next t ∧ WordDone S 1 s t ∧ OnlyPassed x (t.core s.cur) ∧
        t = { s with cores := t.cores, quads := t.quads } ∧ (∀ c, coreKey c ≠ coreKey s.cur → t.core c = s.core c) ∧
        t.quad (coreIndex s.cur / 4) = (let y := s.quad (coreIndex s.cur / 4)
          { y with share := v, shareBefore := some (y.shareBefore.getD y.share) }) ∧
        ∀ q, q ≠ coreIndex s.cur / 4 → t.quad q = s.quad q) ∧
      (x.tw = false → n.toNat = 0x21 → ∃ b, BitVec.ofNat 32 (s.now s.cur + 1) - BitVec.ofNat 32 b = v.setWidth 32 ∧
        passes write { x with sys := { x.sys with gcycBase := b, gcycHeld := none } }) ∧
      (x.issue.loopCopy = none → n.toNat = 0x22 → ∃ t, exec write s = .next t ∧ WordDone S 1 s t ∧ OnlyCore s t s.cur ∧
        OnlyPassed x (t.core s.cur) ∧ (t.core s.cur).sys.loopstate = v &&& ~~~31#64) ∧
      (∀ i : Fin 4, writes (0x24 + i) { x.sys with stream := x.sys.stream.set i v })) ∧
    (s.plain a → x.system = true → mem = false → TrapFree s s.cur →
      (¬ zero 0 2 → n.toNat = 0x06 → traps write 0x01) ∧
      (¬ zero 9 55 → n.toNat = 0x10 → traps write 0x01) ∧
      (¬ zero 44 20 → n.toNat = 0x11 → traps write 0x01) ∧
      (v.getLsbD 3 = true → traps (.syswrStatus S a) 0x01)) ∧
    ((¬ known ∨ readOnly ∨ mem = true ∧ (compute ∨ n.toNat = 0x13)) → traps write 0x01) ∧
    (known → ¬ readOnly → mem = false → n.toNat ≠ 0x10 → n.toNat ≠ 0x11 → x.system = false → traps write 0x02) ∧
    (s.plain a → x.system = true → v &&& 0xC0FF_FFFB = 0 →
      (∀ i : Fin 4, 128 ≤ (v.extractLsb' (32 + 8 * i) 8).toNat →
        (mapGet x.issue.regReady (24 + (v.extractLsb' (32 + 8 * i) 8).toNat % 8)).getD 0 ≤ s.now s.cur) → ∃ t g, exec (.syswrStatus S a) s = .next t ∧ WordDone S 1 s t ∧
      OnlyCore s t s.cur ∧ OnlyPassed { x with gen := g, sys := { x.sys with status := v ||| (x.sys.status &&& 0x1B) } } (t.core s.cur) ∧
      ∀ i : Fin 4, let byte := (v.extractLsb' (32 + 8 * i) 8).toNat
        g[i] = if 128 ≤ byte then (match x.genOf (24 + byte % 8) with
          | some m => x.gen.toList.getD m Reg.zero
          | none => x.reg (24 + byte % 8)) else x.gen[i]) ∧
    (s.plain a → x.system = true → zero 2 62 → passes (.syswrPriv S a) { x with sys := { x.sys with priv := v } }) ∧
    (∀ k, s.cur = .comp k → s.plain a → x.system = true →
      let rewritten (i : Instr) (y : SysRegs) : Prop := ∃ t, exec i s = .next t ∧
        t = { s with cores := t.cores, oldWindows := t.oldWindows } ∧ (∀ c, coreKey c ≠ k → t.core c = s.core c) ∧
        t.core s.cur = { x with sys := y, issue := { x.issue with wait := .table S, readyAt := s.now s.cur + 1 } } ∧
        t.oldWindows = s.oldWindows ++ ((List.range 16).filter (fun e => e ≠ k / 128)).map (fun e =>
          ⟨e, k, x.sys.privsz.toNat, x.sys.xbase.toNat, x.sys.xlimit.toNat⟩)
      (v.toNat % 0x1_0000 = 0 → 0x2_0000 ≤ v.toNat → v.toNat ≤ 0x20_0000 →
        (x.sys.xlimit.toNat ≤ x.sys.xbase.toNat ∨ v.toNat ≤ x.sys.xbase.toNat) →
        rewritten (.syswrPrivsz S a) { x.sys with privsz := v }) ∧
      (v.toNat % 0x1000 = 0 → v.toNat ≤ 0x20_0000 → (x.sys.xlimit.toNat ≤ v.toNat ∨ x.sys.privsz.toNat ≤ v.toNat) →
        rewritten (.syswrXbase S a) { x.sys with xbase := v }) ∧
      (v.toNat % 0x1000 = 0 → v.toNat ≤ 0x20_0000 → (v.toNat ≤ x.sys.xbase.toNat ∨ x.sys.privsz.toNat ≤ x.sys.xbase.toNat) →
        rewritten (.syswrXlimit S a) { x.sys with xlimit := v })) ∧
    (x.system = false → mem = false → traps (.syswrStatus S a) 0x02 ∧ traps (.syswrPriv S a) 0x02 ∧ traps (.syswrPrivsz S a) 0x02 ∧
      traps (.syswrXbase S a) 0x02 ∧ traps (.syswrXlimit S a) 0x02)

/-! ## Return, waiting, translations and the saved queues -/

/-- R76, R92, R108-R114, R122, R139, R244, R315, R319: at system level `eret` returns to the level and the address that the trap saved, unless the trap was fatal (ILLEGAL), the retirement it interrupted going on (log 69); `wfi` parks
the core, which a resumption wakes at the next word and a kill stops (the wake of a placement comes with the launch, R298); `tlbinv` drops the translations that its
operand names from every TLB of its scope and waits for the accesses that used them; `qsave` writes the held queues, command registers and
banks to the context area and empties them, and `qload` brings them back with new numbers,
the parts of a joint product marked as before (log 15). At program level each raises PRIV. A return goes on in the loop
body it interrupted, with its cascade, or at the Weir of its frozen group, and reloads the spilled messages. TRAPPC without its two low
bits is the model's choice (log 62), as are STATUS after `qsave` (log 68), the place of the reloaded messages, ahead of those that have come since
(log 26), one cycle for `qsave` and for `qload`, whose durations are not architectural, and the cycle on which a `tlbinv` of module scope may
end (log 8), and that commands pushed between `qsave` and `qload` dispatch, a second `qload` waiting for none (log 93). -/
def Obligations.SystemWords : Prop :=
  ∀ (S : Bool) (a : BitVec 5) (p : BitVec 1) (s : State),
    let x := s.core s.cur
    let now := s.now s.cur
    let v := s.gword a
    let traps (i : Instr) (code : Nat) : Prop := TrapFree s s.cur → ∃ t, exec i s = .next t ∧
      TrapTaken s t s.cur code ((s.issuingWord s.cur).setWidth 64) x.pc
    let base := s.contextHome s.cur
    let order : List Nat := [5, 2, 3, 4, 1, 0]
    let held (y : Core) (h : Holder) (i : Nat) : Bool := y.slice.holders.toList.getD i .free == h
    (x.system = false → ∀ i ∈ [Instr.eret S, .wfi S, .tlbinvCtx S a p, .tlbinvPage S a p, .tlbinvAll S p, .qsave S, .qload S], traps i 0x02) ∧
    -- eret
    (x.system = true → x.sys.trapcause.getLsbD 9 = true → traps (.eret S) 0x01) ∧
    (x.system = true → x.sys.trapcause.getLsbD 9 = false → s.isFrozen s.cur = false → x.casc = false → x.loopActive = false →
      (x.sys.priv.getLsbD 1 = true ∨ x.issue.spilled = none) →
      let program := !x.sys.priv.getLsbD 1
      ∃ t, exec (.eret S) s = .next t ∧ t = { s with cores := t.cores, dies := t.dies } ∧
        (∀ c, coreKey c ≠ coreKey s.cur → t.core c = s.core c) ∧
        (∀ d q, q < 16 → t.queue d q = if d = dieOf s.cur then { s.queue d q with
          records := (s.queue d q).records.map (fun r => if r.hold = some s.cur ∧ program = true ∧ x.issue.stepDue = false then
            { r with hold := none } else r) } else s.queue d q) ∧
        t.core s.cur = { x with
          pc := x.sys.trappc &&& ~~~3#64
          run := if program && x.issue.ending then .retiring else x.run
          sys := { x.sys with
            status := x.sys.status &&& ~~~8#64
            priv := if x.sys.priv.getLsbD 1 then x.sys.priv ||| 1 else x.sys.priv &&& ~~~1#64 }
          eng := { x.eng with saved := false, refilled := false }
          replay := x.replay.map (fun e => { e with parked := false, told := false })
          issue := { x.issue with
            readyAt := now + 1, settle := S, resumed := true, preempted := !program && x.issue.preempted
            ending := !program && x.issue.ending } }) ∧
    (x.system = true → x.sys.trapcause.getLsbD 9 = false →
      let program := !x.sys.priv.getLsbD 1
      let goes (p : State → Prop) : Prop := ∃ t, exec (.eret S) s = .next t ∧ (∀ c, coreKey c ≠ coreKey s.cur → t.core c = s.core c) ∧
        (t.core s.cur).system = !program ∧ (t.core s.cur).isHeld = false ∧ (t.core s.cur).issue.readyAt = now + 1 ∧ p t
      let pc := x.sys.trappc &&& ~~~3#64
      -- a frozen group: the core waits at its Weir
      (∀ g, program = true → s.gangOf s.cur = some g → g.frozen = true → x.loopActive = false ∨ x.casc = true ∨ x.issue.ending = true → goes (fun t =>
        (t.core s.cur).pc = pc ∧ (t.core s.cur).issue.wait = .release ∧
        t.gangs = s.gangs.map (fun h => if h.id = g.id then { h with returned := s.cur :: h.returned } else h))) ∧
      -- a cascade: at the block that PROGRESS names
      (∀ k, x.casc = true → x.cascade = some k → x.issue.spilled = none → goes (fun t => (t.core s.cur).pc = pc ∧
        (t.core s.cur).cascade = some { k with
          block := (k.chain.base + (32 * (x.sys.progress.extractLsb' 32 32).toNat : Nat)).toNat, header := none, cmd := none
          link := none, start := now + 1 })) ∧
      -- a loop body: captured again, with the steps of the iterations that were complete
      (∀ p : Place, x.loopActive = true → x.casc = false → (program = true → x.issue.ending = false) →
        let at0 := pc - BitVec.ofNat 64 (4 * x.loopIndex + 4)
        let word (i : Nat) : BitVec 32 := BitVec.ofNat 32 (s.num (p.home + 4 * i) 4)
        x.issue.spilled = none → s.resolve s.cur (!program) at0.toNat (4 * (x.loopLast + 2)) .no false = .ok p → goes (fun t =>
          (t.core s.cur).pc = pc ∧ (t.core s.cur).issue.loopRules = word 0 ∧ (t.core s.cur).sys.loopstate = x.sys.loopstate ∧
          (t.core s.cur).issue.loopCopy = some ((applySteps (word 0))^[x.loopDone] ((List.range (x.loopLast + 1)).map (fun i => word (i + 1)))))) ∧
      -- messages in the spill buffer: they stand before those that have come since
      (∀ l, program = true → x.issue.spilled = some l → (x.loopActive = false ∨ x.casc = true ∨ x.issue.ending = true) →
        let entry (i j len : Nat) : Nat := s.num (base + 0x1_6000 + 16 * i + j) len
        let empty : Prop := entry 0 8 2 = 0xFFFF ∧ entry 0 10 2 = 0
        let n := if empty then 0 else entry 0 11 1 + 1
        (∀ i, i < n → entry i 10 1 < 16) → goes (fun t => (t.core s.cur).issue.spilled = none ∧
          (t.core s.cur).channels = (List.range n).map (fun i => ⟨entry i 10 1, entry i 8 2, BitVec.ofNat 64 (entry i 0 8)⟩) ++ x.channels))) ∧
    -- wfi
    (x.system = true → ∃ t, exec (.wfi S) s = .next t ∧ WordDone S 1 s t ∧ OnlyCore s t s.cur ∧
      OnlyPassed { x with run := .parked } (t.core s.cur)) ∧
    (∀ (c : CoreId) (g : Gang), c.wf = true → (s.core c).run = .parked → s.gangOf c = some g →
      let y := s.core c
      let wakes (w : Wake) (z : Core) : Prop := ∃ t, exec (.wfiWake c w) s = .next t ∧ OnlyCore s t c ∧ t.core c = z
      (g.killed = false → wakes .resume { y with run := .running, issue := { y.issue with readyAt := s.now c + 1 } }) ∧
      (g.killed = false → wakes .place y) ∧
      (∀ d, g.killed = true → d ∈ g.all → coreKey d ≠ coreKey c → (s.core d).gang = some g.id → (s.core d).run.stops = false →
        wakes .kill { y with run := .stopped, pc := y.sys.trapvec })) ∧
    -- tlbinv
    (x.system = true →
      let drops (i : Instr) (hit : TlbEntry → Bool) : Prop := ∃ t, exec i s = .next t ∧
        t = { s with cores := t.cores, clusters := t.clusters } ∧
        (∀ c, c.wf = true → c ≠ s.cur → t.core c = if isMemCore c = true ∧ (p = 1 ∨ dieOf c = dieOf s.cur)
          then { s.core c with tlb := (s.core c).tlb.filter (fun e => !hit e) } else s.core c) ∧
        (∀ q, t.cluster q = if p = 1 ∨ q / 8 = dieOf s.cur
          then { s.cluster q with tlb := (s.cluster q).tlb.filter (fun e => !hit e) } else s.cluster q) ∧
        t.core s.cur = { x with
          tlb := if isMemCore s.cur then x.tlb.filter (fun e => !hit e) else x.tlb
          issue := { x.issue with wait := .translators (p == 0) S (translatedNow s (dieOf s.cur) (p == 0) hit), readyAt := now + if p = 0 then 20 else 1 } }
      s.cur.wf = true →
      (s.plain a → v.toNat < 64 → drops (.tlbinvCtx S a p) (fun e => e.ctx == v.toNat)) ∧
      (s.plain a → v.extractLsb' 57 7 = 0 → v.extractLsb' 6 6 = 0 → drops (.tlbinvPage S a p) (fun e =>
        let va := (v.extractLsb' 12 45).toNat * 4096
        e.ctx == (v.extractLsb' 0 6).toNat && decide (e.base ≤ va ∧ va < e.base + e.size))) ∧
      drops (.tlbinvAll S p) (fun _ => true)) ∧
    -- qsave and qload
    (x.system = true → x.isHeld = false → traps (.qsave S) 0x01 ∧ traps (.qload S) 0x01) ∧
    (x.system = true → x.isHeld = true → x.enginesQuiet = true → s.wf = true → x.sys.privsz.toNat % 16 = 0 →
      (∀ n, n < 6 → (x.eng.queue n).length ≤ queueDepth n) →
      let cmds := order.flatMap x.eng.queue
      ∃ t, exec (.qsave S) s = .next t ∧ WordDone S 1 s t ∧
        t = { s with cores := t.cores, mem := t.mem, tags := t.tags } ∧ (∀ c, coreKey c ≠ coreKey s.cur → t.core c = s.core c) ∧
        OnlyPassed { x with
          slice := { x.slice with holders := (t.core s.cur).slice.holders, written := (t.core s.cur).slice.written }
          eng := (t.core s.cur).eng } (t.core s.cur) ∧
        (t.core s.cur).eng = { x.eng with
          queues := Vector.replicate 6 [], saved := true, refilled := false, savedJoint := cmds.map (fun k => k.joint), savedBase := cmds.map (fun k => k.base), ring := (t.core s.cur).eng.ring
          sluice := x.eng.sluice.filter (fun e => ¬ (cmds.map (fun k => k.seq)).contains e.seq) } ∧
        (∀ i : Fin 32, (t.core s.cur).slice.holders[i] = if x.slice.holders[i] = .program then .free else x.slice.holders[i]) ∧
        (∀ n, n < 6 → t.num (base + 0x500 + n) 1 = (x.eng.queue (order.getD n 0)).length) ∧ t.num (base + 0x507) 1 = 1 ∧
        (∀ i, i < 32 → (t.num (base + 0x508) 4).testBit i = held x .program i) ∧
        (∀ i : Fin 8, t.num (base + 0x400 + 32 * i) 32 = x.k[i].toNat) ∧
        (∀ i k, cmds[i]? = some k → t.num (base + 0x520 + 32 * i) 32 = k.word.toNat ∧
          ∀ j : Fin 4, t.num (base + 0x1_2000 + 64 * i + 16 * j) 16 = k.slots[j].num ∧
            t.tagAt (base + 0x1_2000 + 64 * i + 16 * j) = k.slots[j].tag) ∧
        (∀ h i, h < 32 → i < 512 → held x .program h = true →
          t.num (base + 0x2000 + 0x800 * h + 4 * i) 4 = ((mapGet x.slice.basin (512 * h + i)).getD 0).toNat) ∧
        ∀ b, b < base ∨ base + 0x1_8000 ≤ b → t.byte b = s.byte b) ∧
    (x.system = true → x.isHeld = true → (∀ i, i < 32 → held x .system i = false) →
      (x.eng.saved = true → x.eng.refilled = false → x.enginesQuiet = true ∧ ∀ n, n < 6 → x.eng.queue n = []) →
      let count (i : Nat) : Nat := s.num (base + 0x500 + i) 1
      let start (i : Nat) : Nat := ((List.range i).map count).sum
      let saved (h : Nat) : Bool := (s.num (base + 0x508) 4).testBit h
      (s.num (base + 0x507) 1 ≠ 1 → ∃ t, exec (.qload S) s = .next t ∧ WordDone S 1 s t ∧ OnlyCore s t s.cur ∧
        OnlyPassed x (t.core s.cur)) ∧
      (s.num (base + 0x507) 1 = 1 → ∃ t y, exec (.qload S) s = .next t ∧ WordDone S 1 s t ∧
        t = { s with cores := t.cores, mem := t.mem, tags := t.tags } ∧ (∀ c, coreKey c ≠ coreKey s.cur → t.core c = s.core c) ∧
        BytesWritten s t (base + 0x507) [0] false ∧ OnlyPassed y (t.core s.cur) ∧
        y = { x with k := y.k, slice := { y.slice with zeroed := x.slice.zeroed, dtab := x.slice.dtab, flagged := x.slice.flagged }, eng := y.eng
                     sys := { x.sys with progress := y.sys.progress } } ∧
        (∀ i : Fin 8, y.k[i] = BitVec.ofNat 256 (s.num (base + 0x400 + 32 * i) 32)) ∧
        y.slice.fmtRecord = BitVec.ofNat 9 (s.num (base + 0x50C) 2) ∧
        (∀ h : Fin 32, y.slice.holders[h] = if saved h then .program else x.slice.holders[h]) ∧
        (∀ h i, h < 32 → i < 512 → (mapGet y.slice.basin (512 * h + i)).getD 0 =
          if saved h then BitVec.ofNat 32 (s.num (base + 0x2000 + 0x800 * h + 4 * i) 4)
          else (mapGet x.slice.basin (512 * h + i)).getD 0) ∧
        y.eng.saved = x.eng.saved ∧ y.eng.refilled = true ∧ y.eng.seq = x.eng.seq + BitVec.ofNat 32 (start 6) ∧
        (∀ j, j < count 5 → (((y.eng.queue 0).drop (x.eng.queue 0).length)[j]?).map (fun k => k.joint) =
          some (if cmdEngine (BitVec.ofNat 256 (s.num (base + 0x520 + 32 * (start 5 + j)) 32)) = 0 then
            x.eng.savedJoint.getD (start 5 + j) none else none)) ∧
        (∀ j, j < count 2 → (((y.eng.queue 3).drop (x.eng.queue 3).length)[j]?).map (fun k => k.base) =
          some (if cmdEngine (BitVec.ofNat 256 (s.num (base + 0x520 + 32 * (start 2 + j)) 32)) = 3 then
            x.eng.savedBase.getD (start 2 + j) 0 else 0)) ∧
        (∀ i, i < 6 → (y.eng.queue (order.getD i 0)).map (fun k => (k.word, k.seq)) =
          (x.eng.queue (order.getD i 0)).map (fun k => (k.word, k.seq)) ++
            (List.range (count i)).map (fun j => (BitVec.ofNat 256 (s.num (base + 0x520 + 32 * (start i + j)) 32),
              x.eng.seq + BitVec.ofNat 32 (start i + j))))))

/-! ## Meeting points -/

/-- R6, R327-R329, R332-R334: `evset` and `evclr` land in the own cluster after two cycles, `evpost` in the cluster it names, the sets of a cycle winning over its
clears; `evwait` and `bwait` stall until the bit is set and the barrier has reached its target, and raise ISSUE in a window; `wsync`
arrives at its Weir, which lets the participants go on together once all have arrived and its latency is over. A core of no gang
is its own sole participant (log 53; the latency at module scope is the model's, log 8, and how modules meet at the ring Weir log 73). -/
def Obligations.MeetingPoints : Prop :=
  ∀ (S : Bool) (a b : BitVec 5) (e : BitVec 8) (k : BitVec 4) (s : State),
    let x := s.core s.cur
    let now := s.now s.cur
    let bit (e : BitVec 8) : BitVec 256 := BitVec.ofNat 256 (2 ^ e.toNat)
    let traps (i : Instr) (code : Nat) (val : Word) : Prop := TrapFree s s.cur → ∃ t, exec i s = .next t ∧ TrapTaken s t s.cur code val x.pc
    let passes (i : Instr) : Prop := ∃ t, exec i s = .next t ∧ WordDone S 1 s t ∧ OnlyCore s t s.cur ∧ OnlyPassed x (t.core s.cur)
    let stalls (i : Instr) : Prop := ∃ t, exec i s = .next t ∧ OnlyCore s t s.cur ∧
      t.core s.cur = { x with issue := { x.issue with readyAt := now + 1 } }
    let lands (i : Instr) (q : Nat) (p : Landing) : Prop := ∃ t, exec i s = .next t ∧ WordDone S 1 s t ∧
      t = { s with cores := t.cores, clusters := t.clusters } ∧ (∀ c, coreKey c ≠ coreKey s.cur → t.core c = s.core c) ∧
      OnlyPassed x (t.core s.cur) ∧ t.cluster q = { s.cluster q with landing := (s.cluster q).landing ++ [p] } ∧
      ∀ r, r ≠ q → t.cluster r = s.cluster r
    let goesOn (c : CoreId) (t : State) (S : Bool) (y : Core) : Prop := t.core c = { y with
      pc := y.pc + 4
      issue := { y.issue with
        wait := .none, readyAt := max y.issue.readyAt (s.now c), settle := S, resumed := false
        stepDue := y.issue.stepDue || ((s.core c).stepOn && !(s.core c).system && !(s.core c).tw) } }
    -- event bits
    (x.replay = [] → x.released s.cur 3 = true → lands (.evset S e) (clusterOf s.cur) ⟨some (now + 2), true, bit e, some (coreKey s.cur)⟩) ∧
    lands (.evclr S e) (clusterOf s.cur) ⟨some (now + 2), false, bit e, some (coreKey s.cur)⟩ ∧
    (s.plain a → (s.gword a).toNat ≤ 127 → x.replay = [] → x.released s.cur 5 = true →
      lands (.evpost S a e) (s.gword a).toNat ⟨none, true, bit e, some (coreKey s.cur)⟩) ∧
    (s.plain a → 127 < (s.gword a).toNat → traps (.evpost S a e) 0x0A (s.gword a)) ∧
    (∀ q, q < 128 →
      let due (p : Landing) : Bool := match p.due with
        | some t => decide (t ≤ (s.die (q / 8)).cycle)
        | none => true
      let old := s.cluster q
      let l := old.landing.filter due
      let clears (p : Landing) (i : Nat) : Bool := !p.isSet && p.mask.getLsbD i
      let cancelled (j i : Nat) (p : Landing) : Bool := p.due.isNone && p.src.isSome && (l.drop (j + 1)).any (fun o => clears o i && o.src == p.src)
      let set (i : Nat) : Bool := l.zipIdx.any (fun (p, j) => p.isSet && p.mask.getLsbD i && !cancelled j i p)
      let fresh (i : Nat) : Bool := old.fresh.1 = (s.die (q / 8)).cycle ∧ old.fresh.2.getLsbD i
      (l = [] → exec (.eventBitUpdate q) s = .next s) ∧
      (l ≠ [] → ∃ t, exec (.eventBitUpdate q) s = .next t ∧ t = { s with clusters := t.clusters } ∧ (∀ r, r ≠ q → t.cluster r = s.cluster r) ∧
        t.cluster q = { old with ev := (t.cluster q).ev, landing := old.landing.filter (fun p => !due p), fresh := (t.cluster q).fresh } ∧
        (t.cluster q).fresh.1 = (s.die (q / 8)).cycle ∧
        ∀ i, i < 256 → (t.cluster q).ev.getLsbD i = ((old.ev.getLsbD i && !l.any (fun p => clears p i)) || set i || fresh i) ∧
          (t.cluster q).fresh.2.getLsbD i = (set i || fresh i))) ∧
    (x.tw = false → if (s.cluster (clusterOf s.cur)).ev.getLsbD e.toNat then passes (.evwait S e) else stalls (.evwait S e)) ∧
    (∀ p, s.plain a → s.plain b → x.tw = false → x.acquiring = false → AccessOk s (s.greg a) 0 8 8 Reg.permR false false p →
      (s.gword b = 0 ∨ x.ops = []) →
      if (s.gword b).toNat ≤ s.num p.home 8 then passes (.bwait S a b) else stalls (.bwait S a b)) ∧
    (∀ i ∈ [Instr.evwait S e, .bwait S a b], ∀ g, s.unbound a → s.unbound b → x.tw = true → s.gangOf s.cur = some g → g.frozen = false → g.freezeAt = none →
      x.settled = true → x.vq = [] → x.blockEnded = true → x.issue.trapWait = none →
      ∃ t w h, exec i s = .next t ∧ (t.core s.cur).issue.trapWait = some w ∧ w.code = 0x0A ∧ w.pc = x.pc ∧
        t.gang g.id = some h ∧ h.freezeAt = some (now + weirLatency (windowScope g))) ∧
    -- Weirs
    (let scope := k.toNat
     2 ≤ scope → scope ≤ 6 → (isMemCore s.cur = true → 4 ≤ scope) → (x.tw = true → scope ≤ 4) → x.replay = [] →
      x.released s.cur scope = true →
      (s.gangOf s.cur = none → scope ≤ 5 → ∃ t, exec (.wsync S k) s = .next t ∧
        WordDone S (if scope = 2 then 2 else if scope = 3 then 6 else if scope = 4 then 20 else 1) s t ∧
        OnlyCore s t s.cur ∧ OnlyPassed x (t.core s.cur)) ∧
      (∀ g, s.gangOf s.cur = some g → (scope = 6 → recRing g.record = true ∧ x.beatsPlaced = true) →
        ∃ t, exec (.wsync S k) s = .next t ∧ t = { s with cores := t.cores, gangs := t.gangs } ∧
          (∀ c, coreKey c ≠ coreKey s.cur → t.core c = s.core c) ∧
          t.core s.cur = { x with issue := { x.issue with wait := .weir .sync scope S } } ∧
          t.gangs = s.gangs.map (fun h => if h.id = g.id then
            { h with sync := h.sync ++ [(s.cur, scope, if scope = 6 then s.module.tick else now)] } else h))) ∧
    ((k.toNat < 2 ∨ 6 < k.toNat ∨ (isMemCore s.cur = true ∧ k.toNat ≤ 3)) →
      traps (.wsync S k) 0x01 ((s.issuingWord s.cur).setWidth 64)) ∧
    (∀ (n : Nat) (w : Weir) (g : Gang), w.kind = .sync → s.gang n = some g →
      let ps := g.participants w.scope w.unit
      ps ≠ [] → (∀ c ∈ ps, c.wf = true) → (∀ c ∈ ps, ∃ t, (c, w.scope, t) ∈ g.sync) →
      (∀ c t, c ∈ ps → (c, w.scope, t) ∈ g.sync → if w.scope = 6 then tickPast s.module.tick t = true else t + weirLatency w.scope ≤ (s.die g.die).cycle) →
      (w.scope = 6 → ∀ m ∈ ringParts s.module.ringSize g.record, m = s.module.number ∨
        ∃ t, s.module.meetings.find? (fun v => v.1 = recRingNumber g.record ∧ v.2.1 = m) = some (recRingNumber g.record, m, t) ∧
          tickPast s.module.tick t = true) →
      (w.scope = 6 ∨ weirLatency w.scope ≤ (s.die g.die).cycle) →
      ∃ t, exec (.weirRelease n w) s = .next t ∧ t = { s with cores := t.cores, gangs := t.gangs, module := t.module } ∧
        t.module = { s.module with meetings := t.module.meetings } ∧ (w.scope ≠ 6 → t.module = s.module) ∧
        (∀ j m, m ∉ ringParts s.module.ringSize g.record ∨ j ≠ recRingNumber g.record ∨ m = s.module.number →
          t.module.meetings.filter (fun v => v.1 = j ∧ v.2.1 = m) = s.module.meetings.filter (fun v => v.1 = j ∧ v.2.1 = m)) ∧
        (∀ m, w.scope = 6 → m ∈ ringParts s.module.ringSize g.record → m ≠ s.module.number →
          ∃ i, t.module.meetings.filter (fun v => v.1 = recRingNumber g.record ∧ v.2.1 = m) =
            (s.module.meetings.filter (fun v => v.1 = recRingNumber g.record ∧ v.2.1 = m)).drop (i + 1)) ∧
        (∀ c ∈ ps, ∀ j z S', (s.core c).issue.wait = .weir j z S' → (s.core c).issue.loopCopy = none → goesOn c t S' (s.core c)) ∧
        (∀ c, (∀ d ∈ ps, coreKey c ≠ coreKey d) → t.core c = s.core c) ∧
        t.gangs = s.gangs.map (fun h => if h.id = n then { h with sync := h.sync.filter (fun q => ¬ ps.contains q.1) } else h)) ∧
    (∀ (c : CoreId) (w : Weir) dieOnly S' ids, c.wf = true → w.kind = .invalidate → w.unit = coreKey c →
      (s.core c).issue.wait = .translators dieOnly S' ids → (s.core c).issue.readyAt ≤ s.now c → 
      (∀ e : CoreId, isMemCore e = true → ∀ i ∈ (s.core e).translated, i ∉ ids) →
      (s.core c).issue.loopCopy = none →
      ∀ n, ∃ t, exec (.weirRelease n w) s = .next t ∧ OnlyCore s t c ∧ goesOn c t S' (s.core c))

/-- R11, R16, R209-R212, R322, R324, R375: `tbegin` arrives at the gang's Weir, which opens the window of every compute member on one cycle, with GCYC 0, TW set
and the lane groups reserved; `tend` closes it once its timed work is done; `tsend` places a flit that is due 4 + 2 × hops later,
`trecv` posts a receive, and an arriving flit writes the register of its post or raises TIMING. Outside a window `tsend`, `trecv` and
`tend` raise ISSUE and ILLEGAL. A clock change that is due holds a window back (R375; log 41). That a single step falls due where a
`tbegin` opens its window under STEP is the model's choice (log 86). -/
def Obligations.TimedWindows : Prop :=
  ∀ (S : Bool) (a : BitVec 5) (ch : BitVec 4) (n : BitVec 7) (c : Nat) (s : State), c < 2048 → s.cur = .comp c →
    let here : CoreId := .comp c
    let x := s.core here
    let now := s.now here
    let others (t : State) : Prop := ∀ d, coreKey d ≠ c → t.core d = s.core d
    let target := 128 * (c / 128) + n.toNat
    let hop := (max (coreX c) (coreX target) - min (coreX c) (coreX target)) + (max (coreY c) (coreY target) - min (coreY c) (coreY target))
    let word := (s.issuingWord here).setWidth 64
    let traps (i : Instr) (code : Nat) : Prop := TrapFree s here → ∃ t, exec i s = .next t ∧ TrapTaken s t here code word x.pc
    (x.system = true → traps (.tbegin S) 0x01) ∧ (x.tw = false → traps (.tend S) 0x01) ∧
    (s.unbound a → traps (.tsend S a ch n) 0x0A) ∧ (s.unbound a → traps (.trecv S a ch n) 0x0A) ∧
    (∀ g, x.system = false → x.tw = false → s.gangOf here = some g → recTimed g.record = true → windowReady s c = true →
      ∃ t, exec (.tbegin S) s = .next t ∧ t = { s with cores := t.cores, gangs := t.gangs } ∧ others t ∧
        t.core here = { x with issue := { x.issue with wait := .weir .windowOpen (windowScope g) S } } ∧
        t.gangs = s.gangs.map (fun h => if h.id = g.id then { h with opens := h.opens ++ [(here, now)] } else h)) ∧
    (∀ (j : Nat) (w : Weir) (g : Gang), w.kind = .windowOpen → s.gang j = some g → g.compute ≠ [] → (∀ m ∈ g.compute, m < 2048) →
      (∀ m ∈ g.compute, ∃ t, (CoreId.comp m, t) ∈ g.opens) → (∀ p ∈ g.opens, p.2 + weirLatency (windowScope g) ≤ (s.die g.die).cycle) →
      s.changeDue g.die = false →
      (∀ m ∈ g.compute, ∃ i z S', (s.core (.comp m)).issue.wait = .weir i z S' ∧ (s.core (.comp m)).issue.loopCopy = none) →
      ∃ t, exec (.weirRelease j w) s = .next t ∧ t = { s with cores := t.cores, gangs := t.gangs, quads := t.quads } ∧
        (∀ m ∈ g.compute, let y := s.core (.comp m)
          let z := t.core (.comp m)
          t.gcyc (.comp m) = 0 ∧ z.sys.gcycHeld = none ∧ z.tw = true ∧ z.issue.readyAt = s.now (.comp m) ∧ z.issue.wait = .none ∧
          z = { y with
            pc := y.pc + 4
            sys := { y.sys with status := y.sys.status ||| 1, gcycBase := z.sys.gcycBase, gcycHeld := none }
            eng := { y.eng with lastStart := Vector.replicate 6 0 }
            issue := { y.issue with
              wait := .none, readyAt := s.now (.comp m), settle := z.issue.settle, resumed := false
              stepDue := y.issue.stepDue || (y.stepOn && !y.system && !y.tw) } }) ∧
        (∀ d, (∀ m ∈ g.compute, coreKey d ≠ m) → t.core d = s.core d) ∧
        (∀ q (i : Fin 4), (t.quad q).reserved[i] = ((s.quad q).reserved[i] || g.compute.contains (4 * q + i))) ∧
        (∀ q, t.quad q = { s.quad q with reserved := (t.quad q).reserved }) ∧
        t.gangs = s.gangs.map (fun h => if h.id = j then { h with opens := [] } else h)) ∧
    (x.tw = true → x.posts = [] → timedDone s c = true → ∃ t, exec (.tend S) s = .next t ∧ WordDone S 1 s t ∧ others t ∧
      t = { s with cores := t.cores, quads := t.quads, dies := t.dies } ∧ OnlyPassed { x with sys := { x.sys with status := x.sys.status &&& ~~~1#64 } } (t.core here) ∧
      (∀ d, d ≠ c / 128 → t.die d = s.die d) ∧ t.die (c / 128) = { s.die (c / 128) with closed := some now } ∧
      (∀ q, q ≠ c / 4 → t.quad q = s.quad q) ∧
      t.quad (c / 4) = { s.quad (c / 4) with reserved := (s.quad (c / 4)).reserved.setIfInBounds (c % 4) false }) ∧
    (∀ g, x.tw = true → s.gangOf here = some g → g.inRectangle target = true →
      (s.plain a → ∃ t, exec (.tsend S a ch n) s = .next t ∧ WordDone S 1 s t ∧ others t ∧ t = { s with cores := t.cores, flits := t.flits } ∧
        OnlyPassed x (t.core here) ∧ t.flits = s.flits ++ [⟨c / 128, c, target, ch.toNat, s.gword a, now + 4 + 2 * hop, false⟩]) ∧
      (s.unbound a → (∀ p ∈ x.posts, p.channel ≠ ch.toNat) → ∃ t, exec (.trecv S a ch n) s = .next t ∧ WordDone S 1 s t ∧
        OnlyCore s t here ∧ t.nextId = s.nextId + 1 ∧
        OnlyPassed { x with posts := x.posts ++ [⟨s.nextId, ch.toNat, n.toNat, a.toNat, (s.gcyc here).toNat⟩] } (t.core here))) ∧
    (∀ (u w : List Flit) (f : Flit), s.flits = u ++ f :: w → f.target = c → f.channel = ch.toNat → flitDue s f = true →
      (∀ e ∈ u, e.target = c → e.channel = ch.toNat → flitDue s e = false) →
      let fits (p : Post) : Prop := p.channel = ch.toNat ∧ p.src = f.src % 128 ∧ p.made < (s.gcyc here).toNat
      (∀ (l r : List Post) (p : Post), x.posts = l ++ p :: r → fits p → (∀ q ∈ l, ¬ fits q) → p.dst < 32 →
        ∃ t, exec (.timedFlitArrival c ch.toNat) s = .next t ∧ others t ∧ t = { s with cores := t.cores, flits := u ++ w } ∧
          (x.viewOf p.dst = none → (t.core here).reg p.dst = (if p.dst = 0 then Reg.zero else ⟨false, 0, f.data⟩)) ∧
          (∀ d, d ≠ p.dst ∨ x.viewOf p.dst ≠ none → (t.core here).reg d = x.reg d) ∧
          (t.core here).gen = (match x.viewOf p.dst with
            | some i => if p.dst = 0 then x.gen else x.gen.setIfInBounds i ⟨false, 0, f.data⟩
            | none => x.gen) ∧
          t.core here = { x with
            posts := l ++ r, g := (t.core here).g, gen := (t.core here).gen, ops := (t.core here).ops, vq := (t.core here).vq
            issue := { x.issue with regReady := if p.dst = 0 then x.issue.regReady else mapErase x.issue.regReady p.dst } }) ∧
      ((∀ p ∈ x.posts, ¬ fits p) → ∃ t, exec (.timedFlitArrival c ch.toNat) s = .next t ∧ others t ∧
        t = { s with cores := t.cores, flits := u ++ w } ∧ t.core here = { x with
          issue := { x.issue with faults := x.issue.faults ++ [⟨0x11, (s.gcyc here).setWidth 64, none, 0, true, now⟩] } }))

/-! ## Messages and tables -/

/-- R102, R122, R214-R216, R293-R295, R317, R318: `send` gives its word to the target's channel when the target takes it and raises RECVOVF when it refuses, and
ISSUE when g_b names no core; `recv` takes the first message of its channel, and stalls without one; `launch` deposits a copy of the
128 bytes at its capability, which arrive at the manager, and it takes one a cycle, the oldest and of one cycle the first by rank, and
answers 0, FULL or BAD, by the context and the STEP that the core had when the word issued (the cycle after the arrival is the model's
choice, log 74, as is the refusal of a core whose `end` has passed, log 29); `dtload` loads the decode table from a sound image and marks a
bad one (one cycle where the image stands elsewhere than in the own scratchpad or slice, a duration that R318 leaves open, is the model's
choice: log 8). -/
def Obligations.MessagesAndTables : Prop :=
  ∀ (S : Bool) (d a b : BitVec 5) (ch : BitVec 4) (s : State),
    let x := s.core s.cur
    let now := s.now s.cur
    let me := coreIndex s.cur
    let A := s.greg a
    let traps (i : Instr) (code : Nat) (val : Word) : Prop := TrapFree s s.cur → ∃ t, exec i s = .next t ∧ TrapTaken s t s.cur code val x.pc
    let word := (s.issuingWord s.cur).setWidth 64
    let apart (t : State) (c : CoreId) : Prop := ∀ e, coreKey e ≠ coreKey s.cur → coreKey e ≠ coreKey c → t.core e = s.core e
    -- messages
    (s.plain a → s.plain b → x.ungated → (isMemCore s.cur = false → x.paired = false) →
      (∀ c : CoreId, c.wf = true → x.tw = false → c ≠ s.cur → s.cur.wf = true →
        (s.gword b).toNat = (match c with | .comp n => n | .mem n => 2048 + n) →
        ((s.core c).takes ch.toNat x.context = true → ∃ t, exec (.send S a b ch) s = .next t ∧ WordDone S 1 s t ∧
          OnlyCores s t ∧ apart t c ∧ OnlyPassed x (t.core s.cur) ∧
          t.core c = { s.core c with channels := (s.core c).channels ++ [⟨ch.toNat, me, s.gword a⟩] }) ∧
        ((s.core c).takes ch.toNat x.context = false → x.outbox = none → traps (.send S a b ch) 0x16 (BitVec.ofNat 64 (coreIndex c)))) ∧
      (2 ^ 12 ≤ (s.gword b).toNat ∨ (s.gword b).toNat / 2 ^ 11 = 1 ∧ (s.gword b).toNat / 2 ^ 7 % 2 ^ 4 ≠ 0 → traps (.send S a b ch) 0x0A word)) ∧
    (s.unbound a → s.unbound b → x.tw = true → ∀ g, s.gangOf s.cur = some g → g.frozen = false → x.blockEnded = true →
      x.issue.trapWait = none → ∃ t w, exec (.send S a b ch) s = .next t ∧ (t.core s.cur).issue.trapWait = some w ∧ w.code = 0x0A) ∧
    (s.unbound d → x.tw = false → x.ungated →
      (∀ l r m, x.channels = l ++ m :: r → m.channel = ch.toNat → (∀ o ∈ l, o.channel ≠ ch.toNat) →
        ∃ t, exec (.recv S d ch) s = .next t ∧ WordDone S 1 s t ∧ OnlyCore s t s.cur ∧ Wrote s t d ⟨false, 0, m.data⟩ 1 ∧
          OnlyRegister { x with channels := l ++ r } (t.core s.cur) d) ∧
      ((∀ m ∈ x.channels, m.channel ≠ ch.toNat) → ∃ t, exec (.recv S d ch) s = .next t ∧ OnlyCore s t s.cur ∧
        t.core s.cur = { x with issue := { x.issue with readyAt := now + 1 } })) ∧
    -- launch and the deposits
    (∀ p, s.plain a → s.unbound d → x.tw = false → A.tag = true → A.permR = true → A.base ≤ A.cursor → (A.cursor : Int) + 128 ≤ A.top →
      (A.space < 2 → A.owner = me) → s.resolve s.cur x.system A.cursor 128 .no false = .ok p → A.cursor % 64 = 0 →
      x.ops = [] → x.replay = [] →
      ∃ t o, exec (.launch S d a) s = .next t ∧ WordDone S 1 s t ∧ t.nextId = s.nextId + 1 ∧
        t = { s with cores := t.cores, dies := t.dies, nextId := t.nextId } ∧ (∀ e, coreKey e ≠ coreKey s.cur → t.core e = s.core e) ∧
        o.id = s.nextId ∧ o.kind = .deposit ∧ o.dst = (if d = 0 then none else some d.toNat) ∧ o.value = none ∧
        OnlyPassed { x with ops := [o] } (t.core s.cur) ∧ (∀ e, e ≠ dieOf s.cur → t.die e = s.die e) ∧
        t.die (dieOf s.cur) = { s.die (dieOf s.cur) with
          deposits := (s.die (dieOf s.cur)).deposits ++
            [⟨s.nextId, some s.cur, x.context, x.stepOn && !x.system, s.bytes p.home 128⟩] }) ∧
    (∀ (n : Nat) (p : Deposit), n < 16 → (s.die n).deposits = [p] → (s.die n).arrived = [] →
      ∃ t, exec (.taskDeposit n [p.id]) s = .next t ∧ t = { s with dies := t.dies } ∧ (∀ e, e ≠ n → t.die e = s.die e) ∧
        t.die n = { s.die n with deposits := [], arrived := [((s.die n).cycle, p)] }) ∧
    (∀ (n : Nat) (p q : Nat × Deposit), n < 16 → (s.die n).arrived = [p, q] → q.1 < (s.die n).cycle →
      (s.die n).taken ≠ some (s.die n).cycle → (q.1 < p.1 ∨ q.1 = p.1 ∧ depositRank q.2.source < depositRank p.2.source) →
      ∃ t, exec (.taskDeposit n []) s = .next t ∧ (t.die n).arrived = [p] ∧ (t.die n).taken = some (s.die n).cycle) ∧
    (∀ (n at0 : Nat) (p : Deposit), n < 16 → (s.die n).arrived = [(at0, p)] → at0 < (s.die n).cycle →
      (s.die n).taken ≠ some (s.die n).cycle →
      let waits (c : CoreId) : Bool := (s.core c).ops.any (fun o => o.id == p.id)
      let bad : Prop := recordOk p.record = false ∨ p.source ≠ none ∧ p.context ≠ recCtx p.record
      let full : Prop := 32 ≤ (s.queue n (recQueue p.record)).records.length
      ∃ t, exec (.taskDeposit n []) s = .next t ∧
        t.die n = { s.die n with arrived := [], taken := some (s.die n).cycle, queues := (t.die n).queues } ∧ (∀ e, e ≠ n → t.die e = s.die e) ∧
        t = { s with cores := t.cores, dies := t.dies, nextId := t.nextId, module := t.module } ∧
        (∀ q, q < 16 → q ≠ recQueue p.record → t.queue n q = s.queue n q) ∧
        (bad ∨ full → t.queue n (recQueue p.record) = s.queue n (recQueue p.record)) ∧
        (¬ bad → ¬ full → t.queue n (recQueue p.record) = { s.queue n (recQueue p.record) with
          records := (s.queue n (recQueue p.record)).records ++ [⟨s.nextId, p.record, none, 0, false,
            p.source.bind (fun c => if p.stepped && waits c then some c else none), false⟩] }) ∧
        ∃ status : Nat, ((bad → status = 2) ∧ (¬ bad → full → status = 1) ∧ (¬ bad → ¬ full → status = 0)) ∧
          (p.source = none → (∀ c, t.core c = s.core c) ∧
            t.module = { s.module with responses := s.module.responses ++ [⟨n, none, status, []⟩] }) ∧
          ∀ c, p.source = some c → t.module = s.module ∧ (∀ e, coreKey e ≠ coreKey c → t.core e = s.core e) ∧
            t.core c = { s.core c with ops := (s.core c).ops.map (fun o =>
              if o.id = p.id then { o with value := some ⟨false, 0, BitVec.ofNat 64 status⟩ } else o) }) ∧
    -- the decode table
    ∀ p, s.plain a → x.tw = false → A.tag = true → A.permR = true → A.base ≤ A.cursor → (A.cursor : Int) + 1088 ≤ A.top →
      (A.space < 2 → A.owner = me) → s.resolve s.cur x.system A.cursor 1088 .no false = .ok p → A.cursor % 64 = 0 →
      x.ops = [] → x.vq = [] →
      let entry (i : Nat) : BitVec 32 := BitVec.ofNat 32 (s.num (p.home + 4 * i) 4)
      let trailer := s.num (p.home + 1024) 64
      let exponent (i : Nat) := (entry i).extractLsb' 23 8
      let sound : Prop := (trailer = 0 ∨ trailer = 2) ∧ ∀ i, i < 256 →
        exponent i = 0 ∨ exponent i = 255 ∨ (entry i).extractLsb' 0 13 = 0
      let cost := if p.own then 21 else 1
      let coded (i : Nat) : BitVec 19 := (entry i).extractLsb' 31 1 ++ exponent i ++
        (if exponent i = 0 then 0
         else if exponent i = 255 ∧ (entry i).extractLsb' 0 23 ≠ 0 ∧ (entry i).extractLsb' 13 10 = 0 then 1
         else (entry i).extractLsb' 13 10)
      ∃ t y, exec (.dtload S a) s = .next t ∧ WordDone S cost s t ∧ OnlyCore s t s.cur ∧ OnlyPassed y (t.core s.cur) ∧
        (isMemCore s.cur = true → y = x) ∧
        (isMemCore s.cur = false → ¬ sound → y = { x with sys := { x.sys with dtstat := x.sys.dtstat ||| 4 } }) ∧
        (isMemCore s.cur = false → sound →
          y = { x with slice := { x.slice with dtab := y.slice.dtab }, sys := { x.sys with dtstat := y.sys.dtstat } } ∧
          (∀ i, i < 256 → (mapGet y.slice.dtab i).getD 0 = coded i) ∧
          y.sys.dtstat = BitVec.ofNat 64 ((monotone ((List.range 256).map coded)).toNat + trailer))

/-! ## Traps that no word raises -/

/-- R101-R108, R117-R123: at a boundary the reported fault of an engine is taken, imprecise with its source and number, a fatal one discarding the rest; a
trap that waits enters once the core has settled; STEP is taken after a word issued under it, PREEMPT on a request at program level,
with the messages spilled, once one that is noted has its turn; a window's group freezes on its cycle (SOURCE 11 of a member without a request
of its own is the model's, log 35), every member holding GCYC, and goes on together once all have
returned; a pair that differs takes PAIRDIV; and a fatal trap's gang is killed once its core waits in `wfi`. That an engine's fault is taken
at either level is log 34, what a pair compares log 36, SOURCE 0 of PAIRDIV log 70, and what a kill leaves log 37: each is the
model's choice. Spilled messages count as writes of the slice's own port (R126). -/
def Obligations.TrapsBetweenWords : Prop :=
  ∀ (c : CoreId) (s : State), c.wf = true →
    let x := s.core c
    let now := s.now c
    let boundary : Prop := x.run = .running ∧ x.issue.readyAt ≤ now ∧ x.issue.wait = .none ∧ TrapFree s c
    let saved (y : Core) (cause val seq pc : Word) : Prop := y.sys.trapcause = cause ∧ y.sys.trapval = val ∧ y.sys.trapseq = seq ∧
      y.sys.trappc = pc ∧ y.pc = x.sys.trapvec &&& ~~~3#64 ∧ y.isHeld = true ∧ y.system = true ∧
      y.sys.priv.getLsbD 1 = x.system ∧ y.issue.trapWait = none ∧ y.issue.readyAt = now + 1 ∧ y.g = x.g ∧ y.k = x.k ∧ y.v = x.v ∧
      y.unnoted.slice = x.unnoted.slice ∧ (cause.extractLsb' 0 8 ≠ 0x10 → y.slice = x.slice) ∧ y.ops = x.ops ∧ y.eng.queues = x.eng.queues
    let others (t : State) : Prop := ∀ d, coreKey d ≠ coreKey c → t.core d = s.core d
    let spilled (t : State) : Prop :=
      let l := (List.range 16).flatMap (fun n => x.channels.filter (fun m => m.channel = n))
      let buffer (i j len : Nat) : Nat := t.num (s.contextHome c + 0x1_6000 + 16 * i + j) len
      (t.core c).channels = [] ∧ (t.core c).issue.spilled = some (l.map (fun m => m.channel)) ∧
      (s.wf = true → l.length ≤ 256 → (∀ m ∈ l, m.src < 2 ^ 11) → x.posts = [] → (∀ k, x.cascade = some k → k.resumeAt = none) →
        (∀ f ∈ s.flits, isMemCore c = true ∨ f.target ≠ coreIndex c) →
        (∀ i m, l[i]? = some m → buffer i 0 8 = m.data.toNat ∧ buffer i 8 2 = m.src ∧ buffer i 10 1 = m.channel ∧
          buffer i 11 1 = (if i = 0 then l.length - 1 else 0) ∧ buffer i 12 4 = 0) ∧
        (l = [] → buffer 0 8 2 = 0xFFFF ∧ buffer 0 10 2 = 0) ∧
        ∀ b, b < s.contextHome c + 0x1_6000 ∨ s.contextHome c + 0x1_6000 + 16 * max 1 l.length ≤ b → t.byte b = s.byte b)
    let held (f : PendingFault) : Nat := f.code + f.fatal.toNat * 2 ^ 8 + f.fatal.toNat * 2 ^ 9 + f.source * 2 ^ 12
    -- engine faults
    (∀ f, boundary → reported x.issue.faults = some f → f.code ≠ 0x10 → f.code ≠ 0x0F →
      ∃ t, exec (.impreciseFault c) s = .next t ∧ others t ∧ t = { s with cores := t.cores, gangs := t.gangs } ∧
        saved (t.core c) (BitVec.ofNat 64 (held f)) f.val ((f.seq.map (fun q => q.setWidth 64 ||| 1#64 <<< 32)).getD 0) x.pc ∧
        (t.core c).issue.faults = (if f.fatal then [] else x.issue.faults.erase f) ∧
        (f.fatal = true → ∀ g, s.gangOf c = some g → ∃ h, t.gang g.id = some h ∧
          h.fatalAt = (if ∃ p ∈ g.fatalAt, p.1 = c then g.fatalAt else g.fatalAt ++ [(c, now)]) ∧
          h.trap = some (g.trap.getD ⟨(t.core c).sys.trapcause, f.val, (t.core c).sys.trapseq, c⟩))) ∧
    -- a trap that has waited
    (∀ w, x.issue.trapWait = some w → w.code ≠ 0x10 → w.code ≠ 0x0F → w.fatal = false → w.leaves = false → x.tw = false →
      x.issue.readyAt ≤ now → x.settled = true → x.vq = [] → x.blockEnded = true → (∀ e ∈ x.replay, e.parked = true ∧ e.told = true) →
      ∃ t, exec (.trapEntry c) s = .next t ∧ OnlyCore s t c ∧ saved (t.core c) (causeWord w) w.val w.seq w.pc) ∧
    (∀ w g, x.issue.trapWait = some w → w.fatal = false → x.tw = true → s.gangOf c = some g → g.frozen = false → g.freezeAt = none →
      x.settled = true → x.vq = [] → ∃ t h, exec (.trapEntry c) s = .next t ∧ (t.core c).issue.trapWait = some w ∧
        t.gang g.id = some h ∧ h.freezeAt = some (now + weirLatency (windowScope g))) ∧
    -- STEP and PREEMPT
    (boundary → x.system = false → x.issue.stepDue = true → (∀ f ∈ x.issue.faults, f.fatal = false) → x.paired = false →
      ∃ t, exec (.singleStep c) s = .next t ∧ TrapTaken s t c 0x0F 0 x.pc) ∧
    (∀ (r : Requester), x.gang.isSome = true → x.paired = false →
      let source : Nat := match r with | .manager => 10 | .management => 12
      let takes : Prop := (x.run = .running ∨ x.run = .parked) ∧ x.issue.ending = false ∧ x.issue.preempt = none ∧
        ∀ w, x.issue.trapWait = some w → w.code ≠ 0x10
      let noted (t : State) : Prop := t.core c = { x with issue := { x.issue with preempt := some source } }
      (takes → x.tw = false ∨ x.system = true → ∃ t, exec (.preemptionRequest c r) s = .next t ∧ OnlyCore s t c ∧ noted t) ∧
      (takes → x.tw = true → x.system = false → ∀ g, s.gangOf c = some g → g.frozen = false → g.freezeAt = none →
        ∃ t h, exec (.preemptionRequest c r) s = .next t ∧ others t ∧ noted t ∧ t.gang g.id = some h ∧
          h.freezeAt = some (now + weirLatency (windowScope g))) ∧
      (x.run = .retiring ∨ x.issue.ending = true ∨ (x.run = .stopped ∧ ∃ g, s.gangOf c = some g ∧ g.killed = false ∧ c ∈ g.retired) → ∃ t, exec (.preemptionRequest c r) s = .next t ∧ OnlyCore s t c ∧
        t.core c = { x with issue := { x.issue with answered := x.issue.answered ++ [source] } })) ∧
    (∀ source, boundary → x.system = false → x.issue.preempt = some source → x.issue.stepDue = false → x.issue.faults = [] →
      x.paired = false → (∀ g, s.gangOf c = some g → g.freezeAt = none) →
      let t := takePreempt s c
      others t ∧ saved (t.core c) (BitVec.ofNat 64 (0x10 + source * 2 ^ 12)) 0 0 x.pc ∧ spilled t ∧
        (t.core c).issue.preempt = none ∧ (s.isFrozen c = false → (t.core c).eng.stopAt = some now)) ∧
    (∀ w, x.issue.trapWait = some w → w.code = 0x10 → w.fatal = false → w.leaves = false → x.tw = false → x.system = false → x.paired = false →
      x.issue.readyAt ≤ now → x.settled = true → x.vq = [] → x.blockEnded = true → (∀ e ∈ x.replay, e.parked = true ∧ e.told = true) →
      ∃ t, exec (.trapEntry c) s = .next t ∧ others t ∧ saved (t.core c) (causeWord w) w.val w.seq w.pc ∧ spilled t ∧
        (t.core c).issue.preempt = none ∧ (s.isFrozen c = false → (t.core c).eng.stopAt = some now)) ∧
    -- the group of a window
    (∀ (n : Nat) (g : Gang) (f : Nat), s.gang n = some g → g.freezeAt = some f → f ≤ (s.die g.die).cycle → g.frozen = false →
      (∀ m ∈ g.compute, m < 2048) → g.compute.Nodup →
      ∃ t, exec (.groupFreeze n) s = .next t ∧ t = { s with cores := t.cores, gangs := t.gangs, flits := t.flits } ∧
        (∀ m ∈ g.running, let y := s.core (.comp m)
          let z := t.core (.comp m)
          z.sys = { y.sys with gcycHeld := some (s.gcyc (.comp m)) } ∧ z.eng = { y.eng with
            stopAt := some (s.now (.comp m)), chainStop := if y.blockEnded then y.eng.chainStop else some (s.now (.comp m)) } ∧
          z = { y with sys := z.sys, eng := z.eng, issue := z.issue } ∧
          (y.issue.trapWait = none → y.system = false → ∃ w, z.issue.trapWait = some w ∧ w.code = 0x10 ∧
            w.source = y.issue.preempt.getD 11 ∧ w.pc = y.pc) ∧
          (∀ w, y.issue.trapWait = some w → z.issue.trapWait = some w) ∧
          (y.issue.trapWait = none → y.system = true → z.issue.trapWait = none ∧
            z.issue.preempt = some (y.issue.preempt.getD 11))) ∧
        (∀ d, (∀ m ∈ g.running, coreKey d ≠ m) → t.core d = s.core d) ∧
        t.gangs = s.gangs.map (fun h => if h.id = n then { h with
          frozen := true, sync := h.sync.filter (fun a => isMemCore a.1), opens := [], returned := [] } else h)) ∧
    (∀ (n : Nat) (g : Gang), s.gang n = some g → g.frozen = true → (∀ m ∈ g.compute, m < 2048) → g.compute.Nodup →
      (∀ m ∈ g.running, g.returned.contains (.comp m) = true ∧ (s.core (.comp m)).issue.wait = .release ∧
        (s.core (.comp m)).issue.readyAt - 1 + weirLatency (windowScope g) ≤ (s.die g.die).cycle) →
      weirLatency (windowScope g) ≤ (s.die g.die).cycle →
      ∃ t, exec (.groupRelease n) s = .next t ∧ t = { s with cores := t.cores, gangs := t.gangs } ∧
        (∀ m ∈ g.running, let y := s.core (.comp m)
          let z := t.core (.comp m)
          (∀ v, y.sys.gcycHeld = some v → t.gcyc (.comp m) = v) ∧ z.sys.gcycHeld = none ∧
          z = { y with
            sys := { y.sys with gcycBase := z.sys.gcycBase, gcycHeld := none }
            issue := { y.issue with wait := .none, readyAt := s.now (.comp m) } }) ∧
        (∀ d, (∀ m ∈ g.running, coreKey d ≠ m) → t.core d = s.core d) ∧
        t.gangs = s.gangs.map (fun h => if h.id = n then { h with frozen := false, freezeAt := none, returned := [] } else h)) ∧
    -- checked pairs
    (∀ k p a, c = .comp k → s.partner k = some p → p < 2048 → p ≠ k → pairAddress s k p = some a →
      toldFatal s c = false → ∃ t, exec (.pairdiv k a) s = .next t ∧
        (∀ d, coreKey d ≠ k → coreKey d ≠ p → t.core d = s.core d) ∧ OnlyCores s t ∧
        (let raised (n : Nat) : Prop := t.core (.comp n) = { s.core (.comp n) with issue := { (s.core (.comp n)).issue with
            faults := (s.core (.comp n)).issue.faults ++ [⟨0x14, BitVec.ofNat 64 a, none, 0, true, s.now (.comp n)⟩] } }
         raised k ∧ raised p)) ∧
    -- a fatal trap's gang
    ∀ (n : Nat) (g : Gang) (r : KillReport) (u : Nat), s.gang n = some g → (c, u) ∈ g.fatalAt → g.trap = some r → g.killed = false →
      (x.run = .parked ∨ u + 65536 ≤ now) → (r.cause.extractLsb' 0 8).toNat ≠ 0x14 → recRing g.record = false →
      (s.queue g.die (recQueue g.record)).qcomp = 0 → g.die < 16 → g.queue < 16 →
      ∃ t, exec (.fatalKill n) s = .next t ∧ t.mem = s.mem ∧ (t.queue g.die g.queue).halt = true ∧
        (∀ d ∈ g.all, d.wf = true → (s.core d).gang = some n → let y := t.core d
          (y.run = .parked ↔ (s.core d).run = .parked) ∧ (y.run = .parked ∨ y.run = .stopped ∨ y.run = .free) ∧
          y.eng.queues = Vector.replicate 6 [] ∧ y.eng.array = none ∧ y.channels = [] ∧ y.issue.faults = [] ∧
          y.g = (s.core d).g ∧ (∀ o ∈ y.ops, o.kind.isStore = true)) ∧
        (∀ d, (∀ e ∈ g.all, coreKey d ≠ coreKey e) → t.core d = s.core d)

/-! ## Gangs -/

/-- R120, R291, R300-R302, R305-R308, R323, R324, R342, R376: a gang whose members have retired sets its event bits and frees its cores and its
slot; the watchdog, which runs while T1 is not 0, pre-empts at T1, kills at T2 and fences at T3; a suspended gang resumes; a ring gang is
counted at its deadline, starts at its tick after what its level resumes, and fails or aborts with a failure record; system software
kills. What a kill discards is log 37, when the stages of a gang begin log 58, what is kept of a ring gang's number log 78, and that the
append of a `launch` is a store that retirement waits for log 92: each is the model's choice. -/
def Obligations.GangsRun : Prop :=
  ∀ (n : Nat) (g : Gang) (s : State), s.gang n = some g → g.die < 16 →
    let cycle := (s.die g.die).cycle
    let q := recQueue g.record
    let mine (c : CoreId) : Prop := c ∈ g.all ∧ c.wf = true
    let others (t : State) : Prop := ∀ d, (∀ e ∈ g.all, coreKey d ≠ coreKey e) → t.core d = s.core d
    let gone (t : State) : Prop := (∀ h ∈ t.gangs, h.id ≠ n) ∧
      (∀ c, mine c → (s.core c).gang = some n → (t.core c).run = (if s.module.thermalHold then .held else .free) ∧ (t.core c).gang = none ∧ (t.core c).sys.pair = 0 ∧
        (t.core c).slice.holders = Vector.replicate 32 .free)
    let stopped (t : State) : Prop := ∀ c, mine c → (s.core c).gang = some n → ¬ (t.core c).run.live ∧
      (t.core c).eng.queues = Vector.replicate 6 [] ∧ (t.core c).eng.array = none ∧ (t.core c).channels = [] ∧ (t.core c).g = (s.core c).g
    let quiet : Prop := (s.queue g.die q).qcomp = 0
    let past (t d : Nat) : Prop := 1 ≤ (t + 2 ^ 32 - d % 2 ^ 32) % 2 ^ 32 ∧ (t + 2 ^ 32 - d % 2 ^ 32) % 2 ^ 32 < 2 ^ 31
    let waitsFor (t : State) (status : Nat) (report : Option KillReport) : Prop :=
      (∃ c ∈ g.all, (s.core c).gang = some n ∧ ∃ o ∈ (s.core c).ops, o.kind.isStore = true ∧ o.value = none) →
        ∃ h, t.gang n = some h ∧ h.killed = true ∧ h.closing = some (status, report)
    -- retirement
    (g.started = true → g.killed = false → g.queue < 16 →
      (∀ c ∈ g.all, c ∈ g.retired ∧ (s.core c).vq = [] ∧
        ∀ o ∈ (s.core c).ops, o.isAppend = false ∧ (o.kind.isStore = true ∨ o.kind = .vector true → o.value.isSome = true)) →
      (recSink g.record = true → quiet) →
      ∃ t, exec (.gangRetire n) s = .next t ∧ gone t ∧ others t ∧ t.mem = s.mem ∧
        (t.cluster (8 * g.die + recHome g.record)).landing = (s.cluster (8 * g.die + recHome g.record)).landing ++
          [⟨some cycle, true, recSet g.record, none⟩] ∧
        (∀ k, k ≠ 8 * g.die + recHome g.record → t.cluster k = s.cluster k) ∧
        (∀ r ∈ (s.queue g.die g.queue).records, r.gang = some n → r.requeued = false → r ∉ (t.queue g.die g.queue).records)) ∧
    -- the watchdog
    (g.stage = 1 → (s.queue g.die g.queue).qlim.1 ≠ 0 → g.stageStart + 1024 * (s.queue g.die g.queue).qlim.1 ≤ cycle →
      g.all.Nodup → (∀ c ∈ g.all, c.wf = true) →
      ∃ t h, exec (.watchdogT1 n) s = .next t ∧ t.gang n = some h ∧ others t ∧
        h = { g with stage := 2, count := 0, stageStart := cycle, freezeAt := h.freezeAt } ∧
        ((∀ c ∈ g.all, (s.core c).tw = false) → h.freezeAt = g.freezeAt) ∧
        t = { s with cores := t.cores, gangs := t.gangs } ∧
        ∀ c, mine c → (s.core c).gang = some n → let x := s.core c
          t.core c = { x with
            sys := { x.sys with wdog := (t.core c).sys.wdog }
            issue := { x.issue with
              preempt := if !x.isEnding && preemptable x && x.issue.preempt.isNone then some 10 else x.issue.preempt
              answered := if x.isEnding then x.issue.answered ++ [10] else x.issue.answered } } ∧
          (t.core c).sys.wdog.extractLsb' 0 2 = 2 ∧ (t.core c).sys.wdog.extractLsb' 16 16 = 0) ∧
    (g.stage = 2 → (s.queue g.die g.queue).qlim.1 ≠ 0 → (s.queue g.die g.queue).qlim.2.1 ≠ 0 → g.stageStart + 1024 * (s.queue g.die g.queue).qlim.2.1 ≤ cycle →
      g.killed = false → quiet → g.queue < 16 → ∃ t, exec (.watchdogT2 n) s = .next t ∧ stopped t ∧ others t ∧ t.mem = s.mem ∧
        (t.queue g.die g.queue).halt = true ∧ waitsFor t 2 g.trap) ∧
    (g.stage = 3 → (s.queue g.die g.queue).qlim.1 ≠ 0 → (s.queue g.die g.queue).qlim.2.2 ≠ 0 → g.stageStart + 1024 * (s.queue g.die g.queue).qlim.2.2 ≤ cycle →
      g.expired = false → ∃ t, exec (.watchdogT3 n) s = .next t ∧
        t = { s with dies := t.dies, gangs := s.gangs.map (fun h => if h.id = n then { h with expired := true } else h) } ∧
        ∀ c : CoreId, c.wf = true → t.isFenced c = (s.isFenced c ||
          decide (c ∈ g.all ∧ (s.core c).gang = some n ∧ (s.core c).run.stops = false))) ∧
    (g.expired = true → exec (.watchdogT3 n) s = .next s) ∧
    (s.resumable g = true → (s.die g.die).launched ≠ some (cycle, g.queue / 4) →
      ∃ t, exec (.gangResume n) s = .next t ∧ others t ∧ (∀ c, mine c → c ∉ g.retired → s.gangOf c = some g →
        t.core c = { s.core c with run := .running, issue := { (s.core c).issue with readyAt := s.now c + 1 } })) ∧
    -- kills
    (∀ r, g.killed = false → quiet → g.queue < 16 → ∃ t, exec (.systemKillRequest n r) s = .next t ∧ stopped t ∧ others t ∧ t.mem = s.mem ∧
      (t.queue g.die g.queue).halt = true ∧ waitsFor t 1 r) ∧
    -- ring gangs
    (recRing g.record = true → g.started = false → g.killed = false → (s.module.tick % 2 ^ 32 = recDeadline g.record ∨
      past s.module.tick (recDeadline g.record)) → g.committed = false →
      let r := recRingNumber g.record
      let D := recDeadline g.record
      let all : Prop := ∀ m ∈ ringParts s.module.ringSize g.record, ∃ v ∈ s.module.reservations,
        v.1 = r ∧ v.2.1 = m ∧ past (D + 2 ^ 32 - 1) v.2.2 ∧ ∀ d, mapGet s.module.ringCounted r = some d → past v.2.2 d
      (all → ∃ t, exec (.ringCommit n) s = .next t ∧ t = { s with
        gangs := s.gangs.map (fun h => if h.id = n then { h with committed := true } else h)
        module := { s.module with
          reservations := s.module.reservations.filter (fun v => v.1 ≠ r ∨ past v.2.2 D)
          failures := s.module.failures.filter (fun v => v.2.1 = s.module.number ∨ v.1 ≠ r ∨ past v.2.2 (D + 2 ^ 32 - 1))
          meetings := s.module.meetings.filter (fun v => v.1 ≠ r ∨ past v.2.2 (D + 2 ^ 32 - 1))
          ringCounted := mapSet s.module.ringCounted r D } }) ∧
      (¬ all → quiet → ∃ t, exec (.ringCommit n) s = .next t ∧ gone t ∧ others t ∧ t.mem = s.mem ∧ (t.queue g.die q).halt = true)) ∧
    (g.committed = true → g.started = false → g.killed = false →
      (s.module.tick % 2 ^ 32 = recStart g.record ∨ past s.module.tick (recStart g.record)) →
      (∀ p, (s.die g.die).launched = some p → p.1 ≠ cycle) → s.levelOpen g.die (g.queue / 4) = true → (∀ c ∈ g.all, (s.core c).gang = none ∧ s.isFenced c = false) →
      ∃ t h, exec (.ringStart n) s = .next t ∧ t.gang n = some h ∧ h.started = true ∧ others t ∧
        (t.die g.die).launched = some (cycle, g.queue / 4) ∧
        ∀ c, mine c → (t.core c).run = .running ∧ (t.core c).gang = some n ∧ (t.core c).context = recCtx g.record) ∧
    (recRing g.record = true → g.committed = true → g.aborted = false → g.failedAt = none → (g.fatalAt ≠ [] ∨ g.killed = true) →
      ∃ t, exec (.failureRecord n) s = .next t ∧
        t = { s with
          gangs := s.gangs.map (fun h => if h.id = n then { h with failedAt := some s.module.tick } else h)
          streams := (discardBeats s g).streams
          module := { s.module with failures := s.module.failures ++ [(recRingNumber g.record, s.module.number, s.module.tick)] } }) ∧
    (∀ f ∈ s.module.failures, f.1 = recRingNumber g.record → f.2.1 ≠ s.module.number → past s.module.tick (f.2.2 + 1) →
      past f.2.2 (recDeadline g.record + 2 ^ 32 - 1) →
      g.committed = true → g.aborted = false → g.killed = false → g.failedAt = none → g.started = true → g.all.Nodup → (∀ c ∈ g.all, c.wf = true) →
      ∃ t, exec (.gangabort n) s = .next t ∧ others t ∧ t = { s with cores := t.cores, gangs := t.gangs, streams := t.streams } ∧
        ∀ c, mine c → c ∉ g.retired → t.core c = { s.core c with issue := { (s.core c).issue with
          faults := (s.core c).issue.faults ++ [⟨0x17, BitVec.ofNat 64 s.module.tick, none, 11, true, s.now c⟩] } })

/-- R65, R77, R103, R114, R292, R296-R299, R301, R302, R306, R307, R323, R324: the launch of a record on its placement: the gang has its members, its
slot knows it, the level pointer moves on, and each member begins at its entry with g2 to g5 as the record gives them and every other
register that is saved on switch at zero: the whole card of R65 but for the values of the launch itself and for what R65 does not save
(MSTAT keeps the quarters that are fenced, R69, R234). A member that has stood in `wfi` begins at TRAPVEC at system level, its entry in
TRAPPC. A ready ring record reserves its cores and sends its reservation, or past its deadline leaves with a completion record of status 3;
a head that has been ready for 65 536 cycles becomes blocking. The owner in g3 and g4, and what a member that has stood in `wfi` finds, are
the model's choice (log 44), as is that the pc drops the two low bits of IBASE + EOFF (log 62). -/
def Obligations.RecordsLaunch : Prop :=
  ∀ (d q : Nat) (r : Record) (ms : List (Nat × List CoreId)) (s : State), d < 16 → q < 16 →
    let n := s.nextId
    let cycle := (s.die d).cycle
    let mine (c : CoreId) : Prop := ∃ m ∈ ms, c ∈ m.2
    let others (t : State) : Prop := ∀ e, (∀ c, mine c → coreKey e ≠ coreKey c) → t.core e = s.core e
    let apart : Prop := (ms.flatMap (fun m => m.2)).Nodup ∧ (∀ c, mine c → c.wf = true) ∧ ∀ g ∈ s.gangs, g.id < n
    let admitted (t : State) (started : Bool) : Prop := t.nextId = n + 1 ∧ ∃ g, t.gang n = some g ∧ g.die = d ∧ g.queue = q ∧
      g.record = r.bytes ∧ g.members = ms ∧ g.retired = [] ∧ g.killed = false ∧ g.started = started ∧ g.committed = false ∧
      (∀ h ∈ s.gangs, h ∈ t.gangs) ∧
      (t.queue d q).records = (s.queue d q).records.map (fun y =>
        if y.id = r.id then { y with gang := some n, readyFor := 0, blocking := false } else y)
    (s.launchChoice d = some ((q, r), ms) → apart →
      ∃ t, exec (.gangLaunch d) s = .next t ∧ admitted t true ∧ others t ∧ t.mem = s.mem ∧
        (t.die d).launched = some (cycle, q / 4) ∧ (t.die d).pointers = (s.die d).pointers.setIfInBounds (q / 4) ((q % 4 + 1) % 4) ∧
        ∀ m ∈ ms, ∀ k c, m.2[k]? = some c → (s.core c).run = .free ∨ (s.core c).run = .parked →
          let x := s.core c
          let y := t.core c
          let e := recGroup r.bytes m.1
          let ib := recIbase r.bytes
          let entry : Word := BitVec.ofNat 64 (ib + e.eoff) &&& ~~~3#64
          let parked : Prop := x.run = .parked
          let paired : Prop := recPair r.bytes = true ∧ isMemCore c = false
          y.run = .running ∧ y.gang = some n ∧ y.context = recCtx r.bytes ∧
          y.pc = (if parked then x.sys.trapvec &&& ~~~3#64 else entry) ∧
          y.sys = {
            status := if paired then 16 else 0, priv := if parked then 1 else 0, trappc := if parked then entry else 0
            trapcause := 0, trapval := 0, trapseq := 0, trapvec := x.sys.trapvec, fmt := 0, mstat := x.sys.mstat &&& (0xF#64 <<< 40)
            progress := 0, privsz := x.sys.privsz, gcycBase := y.sys.gcycBase, gcycHeld := none, loopstate := 0
            stream := Vector.replicate 4 0, dtstat := 0, pair := y.sys.pair, wdog := if (s.queue d q).qlim.1 = 0 then 0 else 1
            xbase := x.sys.xbase, xlimit := x.sys.xlimit } ∧
          t.gcyc c = 0 ∧ (¬ paired → y.sys.pair = 0) ∧
          (∀ i, paired → c = .comp i → y.sys.pair =
            BitVec.ofNat 64 ((if i % 2 = 1 then i - 1 else i + 1) + i % 2 * 2 ^ 11 + r.requeued.toNat * 2 ^ 12)) ∧
          y.k = Vector.replicate 8 0 ∧ y.v = Vector.replicate 16 (Vector.replicate 64 0) ∧ y.gen = Vector.replicate 4 Reg.zero ∧
          y.slice.dtab = [] ∧ y.slice.holders = Vector.replicate 32 .free ∧ y.channels = [] ∧
          y.reg 2 = makeCap 3 0 x.ctxarea (coreIndex c) 0x20_0000 (x.ctxarea - 0x20_0000) ∧
          y.reg 3 = (if e.alen = 0 then Reg.zero else makeCap 3 3 (ib + e.aoff) (coreIndex c) (ib + e.aoff) e.alen) ∧
          y.reg 4 = makeCap 5 3 (ib + e.eoff) (coreIndex c) ib (recIlen r.bytes) ∧
          y.reg 5 = ⟨false, 0, BitVec.ofNat 64 (k % 16 + m.1 % 4 * 16)⟩ ∧
          ∀ i, i < 2 ∨ 6 ≤ i → y.reg i = Reg.zero) ∧
    (s.readyHead d q = some (q, r) → r.readyFor ≥ 65536 → r.gang = none → ∃ t, exec (.starvationGuard d q) s = .next t ∧ t = { s with dies := t.dies } ∧
      (∀ e, e ≠ d → t.die e = s.die e) ∧ t.die d = { s.die d with queues := (t.die d).queues } ∧
      (∀ p, p < 16 → p ≠ q → t.queue d p = s.queue d p) ∧
      t.queue d q = { s.queue d q with
        records := (s.queue d q).records.map (fun y => if y.id = r.id then { y with blocking := true } else y) }) ∧
    (s.readyHead d q = some (q, r) → recRing r.bytes = true → r.gang = none → r.hold = none → s.unblocked d (q, r) = true →
      s.placement d r.bytes = some ms → apart →
      let x := (s.module.tick + 2 ^ 32 - recDeadline r.bytes % 2 ^ 32) % 2 ^ 32
      let late : Prop := 1 ≤ x ∧ x < 2 ^ 31
      let old := s.queue d q
      let new (t : State) := t.queue d q
      let pa := old.qcomp + 64 * (old.qcnt.toNat % 64)
      let at0 := s.physHome pa
      (¬ late → ∃ t, exec (.ringReserve d q) s = .next t ∧ admitted t false ∧ (∀ c, t.core c = s.core c) ∧ t.mem = s.mem ∧
        t.module = { s.module with
          reservations := s.module.reservations ++ [(recRingNumber r.bytes, s.module.number, s.module.tick)] }) ∧
      (late → recQueue r.bytes = q → ∃ t, exec (.ringReserve d q) s = .next t ∧
        (∀ c, t.core c = s.core c) ∧ t.gangs = s.gangs ∧ (new t).halt = true ∧ (new t).records = old.records.filter (fun y => y.id ≠ r.id) ∧
        (old.qcomp = 0 → t.mem = s.mem ∧ (new t).qcnt = old.qcnt ∧ t.module.interrupts = s.module.interrupts) ∧
        (old.qcomp ≠ 0 → (new t).qcnt = old.qcnt + 1 ∧ t.module.interrupts = s.module.interrupts ++ [(d, q)] ∧
          (s.mappable pa 64 = false → t.mem = s.mem) ∧
          (s.mappable pa 64 = true → s.wf = true →
            t.bytes at0 64 = leBytes 4 (recTag r.bytes + recCtx r.bytes * 2 ^ 8 + q * 2 ^ 16 + 3 * 2 ^ 24) ++ leBytes 4 0 ++
              leBytes 8 cycle ++ List.replicate 48 0 ∧
            ∀ b, b < at0 ∨ at0 + 64 ≤ b → t.byte b = s.byte b))))

/-! ## The host and the management cores -/

/-- R21, R141, R234, R291, R295, R302, R303, R310, R315, R323, R326, R369-R371, R373-R376: MREAD and MWRITE join the transactions of their dies, which perform 8 bytes at a
time and answer, BAD for a bad range; a record arrives at the manager; a service echoes its request's tag (log 79) and, at a die
that has booted, has its effect and answers 0, or 1 for a bad operand; one of a die that has not answers 3 with its boot step (log 38), and
one that finds an earlier transaction waits its turn
(status 1 for a stream that is not admitted or a range in no memory is the model's, logs 31 and 75). A clean block recovers, in place or
in a new frame (log 40); another is retired with its bytes lost (log 16) and ECC at the core (its fields: log 39). The clock changes of a die take
place in their order (log 41), each once no window is open, from the cycle after the end of the last one; the temperature limit lowers the point or stops the module; and
module reset leaves SRAM zero and, on each die, as far as its boot comes, the firmware measured and the cores free (what the boot reads is
log 13, the clock point of a die after it log 4, the pc of a held core log 3). ATTEST's layout is log 57, and the stage that QSET starts or
ends log 58. Each of these log entries is the model's choice. -/
def Obligations.HostActs : Prop :=
  ∀ (d : Nat) (s : State), d < 16 → s.wf = true →
    let m := s.module
    let free : Prop := s.hostBusy d = false
    let booted : Prop := (s.die d).bootStep = 8 ∧ m.thermalHold = false
    let ready : Prop := free ∧ booted
    let said (t : State) (e status : Nat) (data : List Byte) : Prop := t.module.responses = m.responses ++ [⟨e, some m.tag, status, data⟩]
    let only (t : State) (e status : Nat) (data : List Byte) : Prop :=
      t = { s with module := { m with responses := m.responses ++ [⟨e, some m.tag, status, data⟩] } }
    let bad (t : State) (e : Nat) : Prop := t = { s with module := { m with responses := m.responses ++ [⟨e, none, 2, []⟩] } }
    let inRange (pa n : Nat) : Prop := 8 ≤ n ∧ n ≤ 4096 ∧ n % 8 = 0 ∧ pa % 8 = 0 ∧
      (pa + n ≤ lpddrEnd ∨ 0x4_0000_0000_0000 ≤ pa ∧ pa + n ≤ 0x4_0000_0000_0000 + 0x1_2000_0000)
    let image (e : Nat) : Firmware := (mapGet m.firmwares e).getD m.firmware
    let die (t : State) (x : Die) : Prop := t.die d = x ∧ ∀ e, e ≠ d → t.die e = s.die e
    let dieOnly (t : State) : Prop := t = { s with dies := t.dies, module := t.module }
    -- Torhar
    let joins (t : State) (e : Nat) (i : HostOp) (bs : List Byte) : Prop :=
      t = { s with module := { m with torhar := m.torhar ++ [⟨e, i, bs, m.tag⟩] } }
    let home (pa : Nat) : Nat := if pa < lpddrEnd then pa / Config.lpddrPerDie else homeDie pa % 16
    (∀ pa n, ∃ t, exec (.mread pa n) s = .next t ∧ joins t (home pa) (.mread pa n) []) ∧
    (∀ pa bs, ∃ t, exec (.mwrite pa bs) s = .next t ∧ joins t (home pa) (.mwrite pa bs) bs) ∧
    (∀ code, ∃ t, exec (.torharBadTransaction code) s = .next t ∧ bad t 0) ∧
    (∀ l r (u : Transaction), m.torhar = l ++ u :: r → u.die = d → d ∈ u.dies → (∀ v ∈ l, ∀ e ∈ u.dies, e ∉ v.dies) →
      (∀ e ∈ u.dies, (∀ p ∈ m.clockReplies, p.1 ≠ e) ∧ ∀ p ∈ (s.die e).arrived, p.2.source ≠ none) →
      (∀ pa n, u.op = .mread pa n → ¬ inRange pa n → serveHost s d = .next { s with module :=
        { m with torhar := l ++ r, responses := m.responses ++ [⟨d, none, 2, []⟩] } }) ∧
      (∀ pa bs, u.op = .mwrite pa bs → ¬ inRange pa bs.length → serveHost s d = .next { s with module :=
        { m with torhar := l ++ r, responses := m.responses ++ [⟨d, none, 2, []⟩] } }) ∧
      (∀ pa n, u.op = .mread pa n → inRange pa n → s.recovers (pa + u.data.length) 8 = false →
        let got := u.data ++ s.bytes (pa + u.data.length) 8
        serveHost s d = .next { s with module :=
          if n ≤ got.length then { m with torhar := l ++ r, responses := m.responses ++ [⟨d, none, 0, got⟩] }
          else { m with torhar := l ++ { u with data := got } :: r } }) ∧
      (∀ pa bs, u.op = .mwrite pa bs → inRange pa bs.length → s.recovers (pa + (bs.length - u.data.length)) 8 = false →
        ∃ t, serveHost s d = .next t ∧ BytesWritten s t (pa + (bs.length - u.data.length)) (u.data.take 8) false ∧
          t = { s with mem := t.mem, tags := t.tags, module :=
            if u.data.length ≤ 8 then { m with torhar := l ++ r, responses := m.responses ++ [⟨d, none, 0, []⟩] }
            else { m with torhar := l ++ { u with data := u.data.drop 8 } :: r } })) ∧
    (∀ r, free → ¬ booted → ∃ t, exec (.submit d r) s = .next t ∧ bad t d) ∧
    (∀ r, ready → ∃ t, exec (.submit d r) s = .next t ∧ t = { s with nextId := s.nextId + 1, dies := t.dies } ∧
      die t { s.die d with arrived := (s.die d).arrived ++ [((s.die d).cycle, ⟨s.nextId, none, 0, false, r⟩)] }) ∧
    (¬ free → ∀ r q c t1 t2 t3 w b l, ∀ i ∈ [(Instr.submit d r, HostOp.submit r), (.qset d q c t1 t2 t3, .qset q c t1 t2 t3),
      (.hwin d w b l, .hwin w b l)], ∃ t, exec i.1 s = .next t ∧ joins t d i.2 []) ∧
    -- services
    (∀ code, ready → ∃ t, exec (.serviceUnknown d code) s = .next t ∧ only t d 1 []) ∧
    (free → ¬ booted → ∀ code nonce, ∀ i ∈ [Instr.serviceUnknown d code, .attest d nonce], ∃ t, exec i s = .next t ∧
      only t d 3 [BitVec.ofNat 8 (s.die d).bootStep]) ∧
    (∀ q c t1 t2 t3, c % 4096 ≠ 0 ∨ physRange c 4096 = false → ready → ∃ t, exec (.qset d q c t1 t2 t3) s = .next t ∧ only t d 1 []) ∧
    (∀ q c t1 t2 t3, q < 16 → c % 4096 = 0 → physRange c 4096 = true → t1 < 2 ^ 16 → t2 < 2 ^ 16 → t3 < 2 ^ 16 → ready →
      (s.gangs.map (fun g => g.id)).Nodup →
      let begins (g : Gang) : Prop := t1 ≠ 0 ∧ g.die = d ∧ g.queue = q ∧ g.started = true ∧ g.stage = 0
      let ends (g : Gang) : Prop := t1 = 0 ∧ g.die = d ∧ g.queue = q ∧ g.stage ≠ 0
      ∃ t, exec (.qset d q c t1 t2 t3) s = .next t ∧ said t d 0 [] ∧
        t = { s with cores := t.cores, gangs := t.gangs, dies := t.dies, module := t.module } ∧ (∀ e, e ≠ d → t.die e = s.die e) ∧
        t.queue d q = { s.queue d q with qcomp := c, qlim := (t1, t2, t3), halt := false } ∧
        (∀ p, p < 16 → p ≠ q → t.queue d p = s.queue d p) ∧
        (∀ g ∈ s.gangs, ¬ begins g → ¬ ends g → g ∈ t.gangs) ∧ (∀ g ∈ s.gangs, ends g → { g with stage := 0, count := 0 } ∈ t.gangs) ∧
        (∀ g ∈ s.gangs, begins g → { g with stage := 1, count := ((s.die d).cycle - g.stageStart) / 1024 } ∈ t.gangs) ∧
        (∀ e, t.core e = { s.core e with sys := { (s.core e).sys with wdog := (t.core e).sys.wdog } }) ∧
        ∀ e, (∀ g ∈ s.gangs, begins g ∨ ends g → ∀ f ∈ g.all, coreKey e ≠ coreKey f) → t.core e = s.core e) ∧
    (∀ c : CoreId, c.wf = true → dieOf c = d → ready → ∃ t, exec (.unfence d c) s = .next t ∧ said t d 0 [] ∧
      die t { s.die d with fence := (t.die d).fence } ∧ (∀ e : CoreId, e.wf = true → t.isFenced e = if e = c then false else s.isFenced e) ∧
      (∀ e, coreKey e ≠ coreKey c → t.core e = s.core e) ∧ t.core c = { s.core c with
        sys := { (s.core c).sys with mstat := (s.core c).sys.mstat &&& ~~~(0xF#64 <<< 40) } }) ∧
    (∀ ctx f v, ctx < 64 → f < 2 ^ 40 → ready → ∃ t, exec (.root d ctx f v) s = .next t ∧ said t d 0 [] ∧ dieOnly t ∧
      die t { s.die d with roots := (t.die d).roots } ∧
      mapGet (t.die d).roots ctx = some (BitVec.ofNat 64 (f * 4096 + v.toNat)) ∧
      ∀ k, k ≠ ctx → mapGet (t.die d).roots k = mapGet (s.die d).roots k) ∧
    (∀ base len back, base % 4096 = 0 → len % 4096 = 0 → 0 < len → physRange back len = true → (base + len ≤ lpddrEnd ∨
      0x4_0000_0000_0000 ≤ base ∧ base + len ≤ 0x4_0000_0000_0000 + 0x1_0000_0000) → ready →
      ∃ t, exec (.clean d base len back) s = .next t ∧ t = { s with module := { m with
        clean := m.clean ++ [⟨base, len, back⟩], responses := m.responses ++ [⟨d, some m.tag, 0, []⟩] } }) ∧
    (∀ e, e.isOpen = true → streamOk s e = true → ready → ∃ t, exec (.stream d e) s = .next t ∧ said t d 0 [] ∧
      t = { s with streams := t.streams, module := { m with responses := t.module.responses } } ∧
      mapGet t.streams e.number = some ⟨e, [], [], [], 0, e.credit, 0⟩ ∧ ∀ k, k ≠ e.number → mapGet t.streams k = mapGet s.streams k) ∧
    (∀ e b, e.isOpen = false → mapGet s.streams e.number = some b → streamBusy s b = false → ready → ∃ t, exec (.stream d e) s = .next t ∧
      said t d 0 [] ∧ mapGet t.streams e.number = none ∧ ∀ k, k ≠ e.number → mapGet t.streams k = mapGet s.streams k) ∧
    (∀ e, e.isOpen = true → streamOk s e = false → ready → ∃ t, exec (.stream d e) s = .next t ∧ only t d 1 []) ∧
    (∀ (c : CoreId) (q : BitVec 32), c.wf = true → dieOf c = d → ready →
      let e : RingEntry := (mapGet (s.core c).eng.ring (q.toNat % 64)).getD ⟨0, 0, 7, 0⟩
      e.status < 8 → e.origin < 4 → ∃ t bs, exec (.ringrd d c q) s = .next t ∧ only t d 0 bs ∧ bs.length = 40 ∧
        leNat bs = e.seq.toNat + 2 ^ 32 * e.status + 2 ^ 35 * e.origin + 2 ^ 64 * e.cmd.toNat) ∧
    (∀ k mask, k < 8 → ready → ∃ t, exec (.evclrService d k mask) s = .next t ∧ said t d 0 [] ∧
      t = { s with clusters := t.clusters, module := { m with responses := t.module.responses } } ∧
      t.cluster (8 * d + k) = { s.cluster (8 * d + k) with
        landing := (s.cluster (8 * d + k)).landing ++ [⟨some (s.die d).cycle, false, mask, none⟩] } ∧
      ∀ j, j ≠ 8 * d + k → t.cluster j = s.cluster j) ∧
    (∀ w b l, w < 16 → b < 2 ^ 64 → l ≤ 2 ^ 47 → ready → ∃ t, exec (.hwin d w b l) s = .next t ∧ t = { s with module := { m with
      windows := m.windows.setIfInBounds w (b, l), responses := m.responses ++ [⟨d, some m.tag, 0, []⟩] } }) ∧
    (∀ nonce, ready → ∃ t bs, exec (.attest d nonce) s = .next t ∧ only t d 0 bs ∧ (bs.take 32) = leBytes 32 nonce.toNat ∧
      ((bs.drop 32).take 48) = leBytes 48 (s.die d).measure0.toNat ∧ ((bs.drop 80).take 48) = leBytes 48 (s.die d).measure1.toNat ∧
      ((bs.drop 128).take 8) = leBytes 8 (image d).rollback ∧ ((bs.drop 136).take 8) = leBytes 8 (image d).serial ∧
      bs.drop 144 = Config.reportSignatures (bs.take 144)) ∧
    (∀ (mask : BitVec 16) p, p ≤ 3 → ready → mask ≠ 0 → (p = 3 → m.inletHot = false) → ∃ t, exec (.clock d mask p) s = .next t ∧
      t = { s with dies := t.dies, module := { m with clockReplies := m.clockReplies ++ [(d, m.tag, (List.range 16).filter (fun i => mask.getLsbD i))] } } ∧
      ∀ e, t.die e = if mask.getLsbD e then { s.die e with change := (s.die e).change ++ [some p] } else s.die e) ∧
    -- clock and power
    (∀ rest, (s.die d).change = none :: rest → s.dieInWindow d = false → (s.die d).closed ≠ some (s.die d).cycle → ∃ t, exec (.clockChange d) s = .next t ∧
      t = { s with dies := t.dies } ∧ die t { s.die d with point := (s.die d).point - 1, change := rest }) ∧
    (∀ p rest a b e tag (ds : List Nat), (s.die d).change = some p :: rest → s.dieInWindow d = false → (s.die d).closed ≠ some (s.die d).cycle →
      m.clockReplies = a ++ (e, tag, ds) :: b → (∀ r ∈ a, d ∉ r.2.2) → d ∈ ds → (∀ r ∈ a ++ b, r.2.2 ≠ []) →
      let left := ds.filter (fun i => i ≠ d)
      ∃ t, exec (.clockChange d) s = .next t ∧ die t { s.die d with point := p, change := rest } ∧
        t = { s with dies := t.dies, module := { m with
          clockReplies := a ++ (if left = [] then [] else [(e, tag, left)]) ++ b
          responses := m.responses ++ if left = [] then [⟨e, some tag, 0, []⟩] else [] } }) ∧
    ((s.die d).change = [] ∨ s.dieInWindow d = true ∨ (s.die d).closed = some (s.die d).cycle → exec (.clockChange d) s = .next s) ∧
    (∀ watts temps inlet, (∀ x ∈ temps, x < 105) → ∃ t, exec (.powerCheck watts temps inlet) s = .next t ∧
      t = { s with dies := t.dies, module := { m with inletHot := decide (35 < inlet) } } ∧
      ∀ e, e < 16 → t.die e = if (5600 < watts ∨ 95 ≤ temps.getD e 0) ∧ none ∉ (s.die e).change ∧
          ((s.die e).change ≠ [] ∨ 0 < (s.die e).point)
        then { s.die e with change := (s.die e).change ++ [none] } else s.die e) ∧
    (∀ watts temps inlet x, x ∈ temps → 105 ≤ x → ∃ t, exec (.powerCheck watts temps inlet) s = .next t ∧
      t.module.thermalHold = true ∧ t.released = [] ∧ ∀ p ∈ t.cores, p.2.run = .held) ∧
    -- errors
    let basin (h : Nat) : Prop := Config.basinHome ≤ h ∧ h < Config.basinHome + Config.basinSize * Config.computeCores
    (∀ h (c : CoreId), c.wf = true → ¬ basin h → s.isClean h = true → timedReads (s.core c) c h = false → ∃ t, exec (.uncorrectableError h c) s = .next t ∧
      (h / 4096) ∈ t.module.recovering ∧ t = { s with module := { m with recovering := t.module.recovering } }) ∧
    (∀ k b i (c : CoreId), k < 2048 → b < 32 → i < 2048 → c.wf = true →
      let h := Config.basinHome + Config.basinSize * k + 2048 * b + i
      ∃ t f, exec (.uncorrectableError h c) s = .next t ∧ t.mem = s.mem ∧
        (h / 4096, k) ∈ t.module.retiredBlocks ∧ (t.core c).issue.faults = (s.core c).issue.faults ++ [f] ∧ f.code = 0x13 ∧ f.source = 9 ∧
        f.fatal = true ∧ f.seq = none ∧ f.val = BitVec.ofNat 64 (Config.basinAddress k b).toNat ∧
        (∀ e, coreKey e ≠ coreKey c → coreKey e ≠ k → t.core e = s.core e) ∧
        ∀ j, j < 512 → (mapGet (t.core (.comp k)).slice.basin (512 * b + j)).getD 0 = BitVec.ofNat 32 (leNat ((List.range 4).map (fun z =>
          Config.lostByte m.lost (Config.basinHome + Config.basinSize * k + 2048 * b + 4 * j + z))))) ∧
    (∀ h (c : CoreId), c.wf = true → ¬ basin h → s.isClean h = false → ∃ t f, exec (.uncorrectableError h c) s = .next t ∧
      (t.core c).issue.faults = (s.core c).issue.faults ++ [f] ∧ f.code = 0x13 ∧ f.source = 9 ∧ f.fatal = true ∧ f.seq = none ∧
      f.val = BitVec.ofNat 64 (homeAddress h) ∧ (∀ e, coreKey e ≠ coreKey c → t.core e = s.core e) ∧
      (∀ i, i < 4096 → t.byte (h / 4096 * 4096 + i) = Config.lostByte m.lost (4096 * (h / 4096) + i)) ∧
      ∀ a, a / 4096 ≠ h / 4096 → t.byte a = s.byte a) ∧
    (∀ h k, (h / 4096) ∈ m.recovering → s.cleanCopy (h / 4096) = some k →
      let b := h / 4096
      let frame := chosenFrame s b
      let copy := s.physHome (k.backing + (4096 * b - k.base))
      (lpddrEnd ≤ h ∨ (newFrame s b frame).2 = [] → ∃ t, exec (.eccRecovery h) s = .next t ∧ b ∉ t.module.recovering ∧
        (∀ i, i < 4096 → t.byte (b * 4096 + i) = s.byte (copy + i)) ∧ ∀ a, a / 4096 ≠ b → t.byte a = s.byte a) ∧
      (∀ ls, h < lpddrEnd → newFrame s b frame = (frame, ls) → frame ≠ b → ls ≠ [] → (∀ a ∈ ls, a % 8 = 0 ∧ a / 4096 ≠ frame) →
        ∃ t, exec (.eccRecovery h) s = .next t ∧ b ∉ t.module.recovering ∧
        (∀ i, i < 4096 → t.byte (frame * 4096 + i) = s.byte (copy + i)) ∧
        (∀ a ∈ ls, t.num a 8 = (setBits (BitVec.ofNat 64 (s.num a 8)) 12 40 frame).toNat) ∧
        (∀ a, a / 4096 ≠ frame → (∀ l ∈ ls, a / 8 ≠ l / 8) → t.byte a = s.byte a) ∧
        (∀ c : CoreId, isMemCore c = true → ∀ e ∈ (t.core c).tlb, ¬ (e.frame < 4096 * b + 4096 ∧ 4096 * b < e.frame + e.size)) ∧
        ∀ c o, o ∈ (s.core c).ops → o.home / 4096 = b →
          { o with home := 4096 * frame + o.home % 4096 } ∈ (t.core c).ops)) ∧
    -- boot
    let reach (e : Nat) : Nat := let f := image e
      if f.readable = false then 2 else if f.ed25519 = false ∨ f.mldsa = false then 3 else if f.version < f.rollback then 4
      else if f.systemOk = false then 6 else 8
    ∃ t, exec .moduleReset s = .next t ∧ t.gangs = [] ∧ t.streams = [] ∧ t.flits = [] ∧ t.tags = [] ∧
      (∀ e, e < 16 → t.die e = { Die.reset with
        bootStep := reach e
        measure0 := if reach e ≤ 4 then 0 else Config.extendMeasurement 0 (image e).digest
        measure1 := if reach e = 8 then Config.extendMeasurement 0 (image e).systemDigest else 0 }) ∧
      (∀ c : CoreId, c.wf = true → t.core c = if reach (dieOf c) = 8 then
          { Core.reset (isMemCore c) with run := .free, sys := { SysRegs.reset (isMemCore c) with trapvec := (image (dieOf c)).trapvec } }
        else Core.reset (isMemCore c)) ∧
      ((∀ e, e < 16 → reach e = 8 → (image e).systemCode = []) → ∀ a, a < 0x8_0000_0000_0000 →
        t.byte a = if a < lpddrEnd ∧ reach (a / Config.lpddrPerDie) ≤ 4 then s.byte a else 0) ∧
      ((∀ e, e < 16 → reach e = 8 → 0x20_0000 ≤ (image e).trapvec.toNat ∧
          (image e).trapvec.toNat + (image e).systemCode.length ≤ 0x24_0000) →
        ∀ (c : CoreId) (i : Nat), c.wf = true → reach (dieOf c) = 8 → i < (image (dieOf c)).systemCode.length →
          t.byte (privateHome c ((image (dieOf c)).trapvec.toNat + i)) = (image (dieOf c)).systemCode.getD i 0)
end

