-- ==== Sys2Proof/Laws/State.lean ====
section
/-! SUPPORT. The fields that each update of the state leaves as they were, and what a unit reads as after its own update. -/

namespace Sys2Proof.Laws
open Sys2Proof Sys2Proof.Machine

/-! ## Sparse maps -/

@[simp] theorem mapGet_mapSet_self {α : Type} (l : List (Nat × α)) (n : Nat) (x : α) : mapGet (mapSet l n x) n = some x := by
  induction l with
  | nil => simp [mapSet, mapGet]
  | cons p r ih =>
    obtain ⟨k, a⟩ := p
    simp only [mapSet]
    split
    · simp [mapGet]
    · split
      · simp [mapGet]
      · rename_i h; simp [mapGet, h, ih]

theorem mapGet_mapSet_ne {α : Type} (l : List (Nat × α)) {n m : Nat} (x : α) (h : n ≠ m) : mapGet (mapSet l n x) m = mapGet l m := by
  induction l with
  | nil => simp [mapSet, mapGet, h]
  | cons p r ih =>
    obtain ⟨k, a⟩ := p
    simp only [mapSet]
    split
    · simp [mapGet, h]
    · split
      · rename_i hk; subst hk; simp [mapGet, h]
      · simp [mapGet, ih]

@[simp] theorem mapSet_mapSet {α : Type} (l : List (Nat × α)) (n : Nat) (x y : α) : mapSet (mapSet l n x) n y = mapSet l n y := by
  induction l with
  | nil => simp [mapSet]
  | cons p r ih =>
    obtain ⟨k, a⟩ := p
    simp only [mapSet]
    split
    · simp [mapSet]
    · split
      · simp [mapSet]
      · simp [mapSet, *]

/-! ## Units -/

@[simp] theorem setCore_setCore (s : State) (c : CoreId) (x y : Core) : (s.setCore c x).setCore c y = s.setCore c y := by
  simp [State.setCore]

@[simp] theorem core_setCore (s : State) (c : CoreId) (x : Core) : (s.setCore c x).core c = x := by
  simp [State.core, State.setCore]

theorem core_setCore_ne (s : State) {c d : CoreId} (x : Core) (h : coreKey d ≠ coreKey c) : (s.setCore c x).core d = s.core d := by
  simp [State.core, State.setCore, mapGet_mapSet_ne _ _ (Ne.symm h)]

@[simp] theorem core_modCore (s : State) (c : CoreId) (f : Core → Core) : (s.modCore c f).core c = f (s.core c) := by
  simp [State.modCore]

theorem core_modCore_ne (s : State) {c d : CoreId} (f : Core → Core) (h : coreKey d ≠ coreKey c) :
    (s.modCore c f).core d = s.core d := core_setCore_ne s _ h

@[simp] theorem quad_setQuad (s : State) (q : Nat) (x : Quad) : (s.setQuad q x).quad q = x := by
  simp [State.quad, State.setQuad]

@[simp] theorem cluster_setCluster (s : State) (q : Nat) (x : Cluster) : (s.setCluster q x).cluster q = x := by
  simp [State.cluster, State.setCluster]

@[simp] theorem die_setDie (s : State) (d : Nat) (x : Die) : (s.setDie d x).die d = x := by
  simp [State.die, State.setDie]

/-! ## Fields that an update leaves -/

@[simp] theorem setCore_cur (s : State) (c : CoreId) (x : Core) : (s.setCore c x).cur = s.cur := rfl
@[simp] theorem setCore_agenda (s : State) (c : CoreId) (x : Core) : (s.setCore c x).agenda = s.agenda := rfl
@[simp] theorem setCore_nextId (s : State) (c : CoreId) (x : Core) : (s.setCore c x).nextId = s.nextId := rfl
@[simp] theorem setCore_mem (s : State) (c : CoreId) (x : Core) : (s.setCore c x).mem = s.mem := rfl
@[simp] theorem setCore_tags (s : State) (c : CoreId) (x : Core) : (s.setCore c x).tags = s.tags := rfl
@[simp] theorem setCore_released (s : State) (c : CoreId) (x : Core) : (s.setCore c x).released = s.released := rfl
@[simp] theorem setCore_quads (s : State) (c : CoreId) (x : Core) : (s.setCore c x).quads = s.quads := rfl
@[simp] theorem setCore_clusters (s : State) (c : CoreId) (x : Core) : (s.setCore c x).clusters = s.clusters := rfl
@[simp] theorem setCore_dies (s : State) (c : CoreId) (x : Core) : (s.setCore c x).dies = s.dies := rfl
@[simp] theorem setCore_gangs (s : State) (c : CoreId) (x : Core) : (s.setCore c x).gangs = s.gangs := rfl
@[simp] theorem setCore_streams (s : State) (c : CoreId) (x : Core) : (s.setCore c x).streams = s.streams := rfl
@[simp] theorem setCore_flits (s : State) (c : CoreId) (x : Core) : (s.setCore c x).flits = s.flits := rfl
@[simp] theorem setCore_oldWindows (s : State) (c : CoreId) (x : Core) : (s.setCore c x).oldWindows = s.oldWindows := rfl
@[simp] theorem setCore_module (s : State) (c : CoreId) (x : Core) : (s.setCore c x).module = s.module := rfl
@[simp] theorem modCore_cur (s : State) (c : CoreId) (f : Core → Core) : (s.modCore c f).cur = s.cur := rfl
@[simp] theorem modCore_agenda (s : State) (c : CoreId) (f : Core → Core) : (s.modCore c f).agenda = s.agenda := rfl
@[simp] theorem modCore_nextId (s : State) (c : CoreId) (f : Core → Core) : (s.modCore c f).nextId = s.nextId := rfl
@[simp] theorem modCore_mem (s : State) (c : CoreId) (f : Core → Core) : (s.modCore c f).mem = s.mem := rfl
@[simp] theorem modCore_tags (s : State) (c : CoreId) (f : Core → Core) : (s.modCore c f).tags = s.tags := rfl
@[simp] theorem modCore_released (s : State) (c : CoreId) (f : Core → Core) : (s.modCore c f).released = s.released := rfl
@[simp] theorem modCore_quads (s : State) (c : CoreId) (f : Core → Core) : (s.modCore c f).quads = s.quads := rfl
@[simp] theorem modCore_clusters (s : State) (c : CoreId) (f : Core → Core) : (s.modCore c f).clusters = s.clusters := rfl
@[simp] theorem modCore_dies (s : State) (c : CoreId) (f : Core → Core) : (s.modCore c f).dies = s.dies := rfl
@[simp] theorem modCore_gangs (s : State) (c : CoreId) (f : Core → Core) : (s.modCore c f).gangs = s.gangs := rfl
@[simp] theorem modCore_streams (s : State) (c : CoreId) (f : Core → Core) : (s.modCore c f).streams = s.streams := rfl
@[simp] theorem modCore_flits (s : State) (c : CoreId) (f : Core → Core) : (s.modCore c f).flits = s.flits := rfl
@[simp] theorem modCore_oldWindows (s : State) (c : CoreId) (f : Core → Core) : (s.modCore c f).oldWindows = s.oldWindows := rfl
@[simp] theorem modCore_module (s : State) (c : CoreId) (f : Core → Core) : (s.modCore c f).module = s.module := rfl
@[simp] theorem setQuad_cur (s : State) (q : Nat) (x : Quad) : (s.setQuad q x).cur = s.cur := rfl
@[simp] theorem setQuad_agenda (s : State) (q : Nat) (x : Quad) : (s.setQuad q x).agenda = s.agenda := rfl
@[simp] theorem setQuad_nextId (s : State) (q : Nat) (x : Quad) : (s.setQuad q x).nextId = s.nextId := rfl
@[simp] theorem setQuad_mem (s : State) (q : Nat) (x : Quad) : (s.setQuad q x).mem = s.mem := rfl
@[simp] theorem setQuad_tags (s : State) (q : Nat) (x : Quad) : (s.setQuad q x).tags = s.tags := rfl
@[simp] theorem setQuad_released (s : State) (q : Nat) (x : Quad) : (s.setQuad q x).released = s.released := rfl
@[simp] theorem setQuad_cores (s : State) (q : Nat) (x : Quad) : (s.setQuad q x).cores = s.cores := rfl
@[simp] theorem setQuad_clusters (s : State) (q : Nat) (x : Quad) : (s.setQuad q x).clusters = s.clusters := rfl
@[simp] theorem setQuad_dies (s : State) (q : Nat) (x : Quad) : (s.setQuad q x).dies = s.dies := rfl
@[simp] theorem setQuad_gangs (s : State) (q : Nat) (x : Quad) : (s.setQuad q x).gangs = s.gangs := rfl
@[simp] theorem setQuad_streams (s : State) (q : Nat) (x : Quad) : (s.setQuad q x).streams = s.streams := rfl
@[simp] theorem setQuad_flits (s : State) (q : Nat) (x : Quad) : (s.setQuad q x).flits = s.flits := rfl
@[simp] theorem setQuad_oldWindows (s : State) (q : Nat) (x : Quad) : (s.setQuad q x).oldWindows = s.oldWindows := rfl
@[simp] theorem setQuad_module (s : State) (q : Nat) (x : Quad) : (s.setQuad q x).module = s.module := rfl
@[simp] theorem setCluster_cur (s : State) (q : Nat) (x : Cluster) : (s.setCluster q x).cur = s.cur := rfl
@[simp] theorem setCluster_agenda (s : State) (q : Nat) (x : Cluster) : (s.setCluster q x).agenda = s.agenda := rfl
@[simp] theorem setCluster_nextId (s : State) (q : Nat) (x : Cluster) : (s.setCluster q x).nextId = s.nextId := rfl
@[simp] theorem setCluster_mem (s : State) (q : Nat) (x : Cluster) : (s.setCluster q x).mem = s.mem := rfl
@[simp] theorem setCluster_tags (s : State) (q : Nat) (x : Cluster) : (s.setCluster q x).tags = s.tags := rfl
@[simp] theorem setCluster_released (s : State) (q : Nat) (x : Cluster) : (s.setCluster q x).released = s.released := rfl
@[simp] theorem setCluster_cores (s : State) (q : Nat) (x : Cluster) : (s.setCluster q x).cores = s.cores := rfl
@[simp] theorem setCluster_quads (s : State) (q : Nat) (x : Cluster) : (s.setCluster q x).quads = s.quads := rfl
@[simp] theorem setCluster_dies (s : State) (q : Nat) (x : Cluster) : (s.setCluster q x).dies = s.dies := rfl
@[simp] theorem setCluster_gangs (s : State) (q : Nat) (x : Cluster) : (s.setCluster q x).gangs = s.gangs := rfl
@[simp] theorem setCluster_streams (s : State) (q : Nat) (x : Cluster) : (s.setCluster q x).streams = s.streams := rfl
@[simp] theorem setCluster_flits (s : State) (q : Nat) (x : Cluster) : (s.setCluster q x).flits = s.flits := rfl
@[simp] theorem setCluster_oldWindows (s : State) (q : Nat) (x : Cluster) : (s.setCluster q x).oldWindows = s.oldWindows := rfl
@[simp] theorem setCluster_module (s : State) (q : Nat) (x : Cluster) : (s.setCluster q x).module = s.module := rfl
@[simp] theorem setDie_cur (s : State) (d : Nat) (x : Die) : (s.setDie d x).cur = s.cur := rfl
@[simp] theorem setDie_agenda (s : State) (d : Nat) (x : Die) : (s.setDie d x).agenda = s.agenda := rfl
@[simp] theorem setDie_nextId (s : State) (d : Nat) (x : Die) : (s.setDie d x).nextId = s.nextId := rfl
@[simp] theorem setDie_mem (s : State) (d : Nat) (x : Die) : (s.setDie d x).mem = s.mem := rfl
@[simp] theorem setDie_tags (s : State) (d : Nat) (x : Die) : (s.setDie d x).tags = s.tags := rfl
@[simp] theorem setDie_released (s : State) (d : Nat) (x : Die) : (s.setDie d x).released = s.released := rfl
@[simp] theorem setDie_cores (s : State) (d : Nat) (x : Die) : (s.setDie d x).cores = s.cores := rfl
@[simp] theorem setDie_quads (s : State) (d : Nat) (x : Die) : (s.setDie d x).quads = s.quads := rfl
@[simp] theorem setDie_clusters (s : State) (d : Nat) (x : Die) : (s.setDie d x).clusters = s.clusters := rfl
@[simp] theorem setDie_gangs (s : State) (d : Nat) (x : Die) : (s.setDie d x).gangs = s.gangs := rfl
@[simp] theorem setDie_streams (s : State) (d : Nat) (x : Die) : (s.setDie d x).streams = s.streams := rfl
@[simp] theorem setDie_flits (s : State) (d : Nat) (x : Die) : (s.setDie d x).flits = s.flits := rfl
@[simp] theorem setDie_oldWindows (s : State) (d : Nat) (x : Die) : (s.setDie d x).oldWindows = s.oldWindows := rfl
@[simp] theorem setDie_module (s : State) (d : Nat) (x : Die) : (s.setDie d x).module = s.module := rfl
@[simp] theorem modQueue_cur (s : State) (d q : Nat) (f : TaskQueue → TaskQueue) : (s.modQueue d q f).cur = s.cur := rfl
@[simp] theorem modQueue_agenda (s : State) (d q : Nat) (f : TaskQueue → TaskQueue) : (s.modQueue d q f).agenda = s.agenda := rfl
@[simp] theorem modQueue_nextId (s : State) (d q : Nat) (f : TaskQueue → TaskQueue) : (s.modQueue d q f).nextId = s.nextId := rfl
@[simp] theorem modQueue_mem (s : State) (d q : Nat) (f : TaskQueue → TaskQueue) : (s.modQueue d q f).mem = s.mem := rfl
@[simp] theorem modQueue_tags (s : State) (d q : Nat) (f : TaskQueue → TaskQueue) : (s.modQueue d q f).tags = s.tags := rfl
@[simp] theorem modQueue_released (s : State) (d q : Nat) (f : TaskQueue → TaskQueue) : (s.modQueue d q f).released = s.released := rfl
@[simp] theorem modQueue_cores (s : State) (d q : Nat) (f : TaskQueue → TaskQueue) : (s.modQueue d q f).cores = s.cores := rfl
@[simp] theorem modQueue_quads (s : State) (d q : Nat) (f : TaskQueue → TaskQueue) : (s.modQueue d q f).quads = s.quads := rfl
@[simp] theorem modQueue_clusters (s : State) (d q : Nat) (f : TaskQueue → TaskQueue) : (s.modQueue d q f).clusters = s.clusters := rfl
@[simp] theorem modQueue_gangs (s : State) (d q : Nat) (f : TaskQueue → TaskQueue) : (s.modQueue d q f).gangs = s.gangs := rfl
@[simp] theorem modQueue_streams (s : State) (d q : Nat) (f : TaskQueue → TaskQueue) : (s.modQueue d q f).streams = s.streams := rfl
@[simp] theorem modQueue_flits (s : State) (d q : Nat) (f : TaskQueue → TaskQueue) : (s.modQueue d q f).flits = s.flits := rfl
@[simp] theorem modQueue_oldWindows (s : State) (d q : Nat) (f : TaskQueue → TaskQueue) : (s.modQueue d q f).oldWindows = s.oldWindows := rfl
@[simp] theorem modQueue_module (s : State) (d q : Nat) (f : TaskQueue → TaskQueue) : (s.modQueue d q f).module = s.module := rfl
@[simp] theorem modGang_cur (s : State) (n : Nat) (f : Gang → Gang) : (s.modGang n f).cur = s.cur := rfl
@[simp] theorem modGang_agenda (s : State) (n : Nat) (f : Gang → Gang) : (s.modGang n f).agenda = s.agenda := rfl
@[simp] theorem modGang_nextId (s : State) (n : Nat) (f : Gang → Gang) : (s.modGang n f).nextId = s.nextId := rfl
@[simp] theorem modGang_mem (s : State) (n : Nat) (f : Gang → Gang) : (s.modGang n f).mem = s.mem := rfl
@[simp] theorem modGang_tags (s : State) (n : Nat) (f : Gang → Gang) : (s.modGang n f).tags = s.tags := rfl
@[simp] theorem modGang_released (s : State) (n : Nat) (f : Gang → Gang) : (s.modGang n f).released = s.released := rfl
@[simp] theorem modGang_cores (s : State) (n : Nat) (f : Gang → Gang) : (s.modGang n f).cores = s.cores := rfl
@[simp] theorem modGang_quads (s : State) (n : Nat) (f : Gang → Gang) : (s.modGang n f).quads = s.quads := rfl
@[simp] theorem modGang_clusters (s : State) (n : Nat) (f : Gang → Gang) : (s.modGang n f).clusters = s.clusters := rfl
@[simp] theorem modGang_dies (s : State) (n : Nat) (f : Gang → Gang) : (s.modGang n f).dies = s.dies := rfl
@[simp] theorem modGang_streams (s : State) (n : Nat) (f : Gang → Gang) : (s.modGang n f).streams = s.streams := rfl
@[simp] theorem modGang_flits (s : State) (n : Nat) (f : Gang → Gang) : (s.modGang n f).flits = s.flits := rfl
@[simp] theorem modGang_oldWindows (s : State) (n : Nat) (f : Gang → Gang) : (s.modGang n f).oldWindows = s.oldWindows := rfl
@[simp] theorem modGang_module (s : State) (n : Nat) (f : Gang → Gang) : (s.modGang n f).module = s.module := rfl
@[simp] theorem setTag_cur (s : State) (a : Nat) : (s.setTag a).cur = s.cur := rfl
@[simp] theorem setTag_agenda (s : State) (a : Nat) : (s.setTag a).agenda = s.agenda := rfl
@[simp] theorem setTag_nextId (s : State) (a : Nat) : (s.setTag a).nextId = s.nextId := rfl
@[simp] theorem setTag_mem (s : State) (a : Nat) : (s.setTag a).mem = s.mem := rfl
@[simp] theorem setTag_released (s : State) (a : Nat) : (s.setTag a).released = s.released := rfl
@[simp] theorem setTag_cores (s : State) (a : Nat) : (s.setTag a).cores = s.cores := rfl
@[simp] theorem setTag_quads (s : State) (a : Nat) : (s.setTag a).quads = s.quads := rfl
@[simp] theorem setTag_clusters (s : State) (a : Nat) : (s.setTag a).clusters = s.clusters := rfl
@[simp] theorem setTag_dies (s : State) (a : Nat) : (s.setTag a).dies = s.dies := rfl
@[simp] theorem setTag_gangs (s : State) (a : Nat) : (s.setTag a).gangs = s.gangs := rfl
@[simp] theorem setTag_streams (s : State) (a : Nat) : (s.setTag a).streams = s.streams := rfl
@[simp] theorem setTag_flits (s : State) (a : Nat) : (s.setTag a).flits = s.flits := rfl
@[simp] theorem setTag_oldWindows (s : State) (a : Nat) : (s.setTag a).oldWindows = s.oldWindows := rfl
@[simp] theorem setTag_module (s : State) (a : Nat) : (s.setTag a).module = s.module := rfl
@[simp] theorem land_cur (s : State) (q : Nat) (due : Option Nat) (b : Bool) (m : BitVec 256) (src : Option Nat) : (s.land q due b m src).cur = s.cur := rfl
@[simp] theorem land_agenda (s : State) (q : Nat) (due : Option Nat) (b : Bool) (m : BitVec 256) (src : Option Nat) : (s.land q due b m src).agenda = s.agenda := rfl
@[simp] theorem land_nextId (s : State) (q : Nat) (due : Option Nat) (b : Bool) (m : BitVec 256) (src : Option Nat) : (s.land q due b m src).nextId = s.nextId := rfl
@[simp] theorem land_mem (s : State) (q : Nat) (due : Option Nat) (b : Bool) (m : BitVec 256) (src : Option Nat) : (s.land q due b m src).mem = s.mem := rfl
@[simp] theorem land_tags (s : State) (q : Nat) (due : Option Nat) (b : Bool) (m : BitVec 256) (src : Option Nat) : (s.land q due b m src).tags = s.tags := rfl
@[simp] theorem land_released (s : State) (q : Nat) (due : Option Nat) (b : Bool) (m : BitVec 256) (src : Option Nat) : (s.land q due b m src).released = s.released := rfl
@[simp] theorem land_cores (s : State) (q : Nat) (due : Option Nat) (b : Bool) (m : BitVec 256) (src : Option Nat) : (s.land q due b m src).cores = s.cores := rfl
@[simp] theorem land_quads (s : State) (q : Nat) (due : Option Nat) (b : Bool) (m : BitVec 256) (src : Option Nat) : (s.land q due b m src).quads = s.quads := rfl
@[simp] theorem land_dies (s : State) (q : Nat) (due : Option Nat) (b : Bool) (m : BitVec 256) (src : Option Nat) : (s.land q due b m src).dies = s.dies := rfl
@[simp] theorem land_gangs (s : State) (q : Nat) (due : Option Nat) (b : Bool) (m : BitVec 256) (src : Option Nat) : (s.land q due b m src).gangs = s.gangs := rfl
@[simp] theorem land_streams (s : State) (q : Nat) (due : Option Nat) (b : Bool) (m : BitVec 256) (src : Option Nat) : (s.land q due b m src).streams = s.streams := rfl
@[simp] theorem land_flits (s : State) (q : Nat) (due : Option Nat) (b : Bool) (m : BitVec 256) (src : Option Nat) : (s.land q due b m src).flits = s.flits := rfl
@[simp] theorem land_oldWindows (s : State) (q : Nat) (due : Option Nat) (b : Bool) (m : BitVec 256) (src : Option Nat) : (s.land q due b m src).oldWindows = s.oldWindows := rfl
@[simp] theorem land_module (s : State) (q : Nat) (due : Option Nat) (b : Bool) (m : BitVec 256) (src : Option Nat) : (s.land q due b m src).module = s.module := rfl

/-! ## Units that an update of another kind leaves -/

@[simp] theorem setCore_quad_eq (s : State) (c : CoreId) (x : Core) (p : Nat) : (s.setCore c x).quad p = s.quad p := rfl
@[simp] theorem setCore_cluster_eq (s : State) (c : CoreId) (x : Core) (p : Nat) : (s.setCore c x).cluster p = s.cluster p := rfl
@[simp] theorem setCore_die_eq (s : State) (c : CoreId) (x : Core) (p : Nat) : (s.setCore c x).die p = s.die p := rfl
@[simp] theorem setCore_gang_eq (s : State) (c : CoreId) (x : Core) (p : Nat) : (s.setCore c x).gang p = s.gang p := rfl
@[simp] theorem setCore_byte_eq (s : State) (c : CoreId) (x : Core) (p : Nat) : (s.setCore c x).byte p = s.byte p := rfl
@[simp] theorem setCore_now_eq (s : State) (c : CoreId) (x : Core) (e : CoreId) : (s.setCore c x).now e = s.now e := rfl
@[simp] theorem modCore_quad_eq (s : State) (c : CoreId) (f : Core → Core) (p : Nat) : (s.modCore c f).quad p = s.quad p := rfl
@[simp] theorem modCore_cluster_eq (s : State) (c : CoreId) (f : Core → Core) (p : Nat) : (s.modCore c f).cluster p = s.cluster p := rfl
@[simp] theorem modCore_die_eq (s : State) (c : CoreId) (f : Core → Core) (p : Nat) : (s.modCore c f).die p = s.die p := rfl
@[simp] theorem modCore_gang_eq (s : State) (c : CoreId) (f : Core → Core) (p : Nat) : (s.modCore c f).gang p = s.gang p := rfl
@[simp] theorem modCore_byte_eq (s : State) (c : CoreId) (f : Core → Core) (p : Nat) : (s.modCore c f).byte p = s.byte p := rfl
@[simp] theorem modCore_now_eq (s : State) (c : CoreId) (f : Core → Core) (e : CoreId) : (s.modCore c f).now e = s.now e := rfl
@[simp] theorem setQuad_core_eq (s : State) (q : Nat) (x : Quad) (e : CoreId) : (s.setQuad q x).core e = s.core e := rfl
@[simp] theorem setQuad_cluster_eq (s : State) (q : Nat) (x : Quad) (p : Nat) : (s.setQuad q x).cluster p = s.cluster p := rfl
@[simp] theorem setQuad_die_eq (s : State) (q : Nat) (x : Quad) (p : Nat) : (s.setQuad q x).die p = s.die p := rfl
@[simp] theorem setQuad_gang_eq (s : State) (q : Nat) (x : Quad) (p : Nat) : (s.setQuad q x).gang p = s.gang p := rfl
@[simp] theorem setQuad_byte_eq (s : State) (q : Nat) (x : Quad) (p : Nat) : (s.setQuad q x).byte p = s.byte p := rfl
@[simp] theorem setQuad_now_eq (s : State) (q : Nat) (x : Quad) (e : CoreId) : (s.setQuad q x).now e = s.now e := rfl
@[simp] theorem setCluster_core_eq (s : State) (q : Nat) (x : Cluster) (e : CoreId) : (s.setCluster q x).core e = s.core e := rfl
@[simp] theorem setCluster_quad_eq (s : State) (q : Nat) (x : Cluster) (p : Nat) : (s.setCluster q x).quad p = s.quad p := rfl
@[simp] theorem setCluster_die_eq (s : State) (q : Nat) (x : Cluster) (p : Nat) : (s.setCluster q x).die p = s.die p := rfl
@[simp] theorem setCluster_gang_eq (s : State) (q : Nat) (x : Cluster) (p : Nat) : (s.setCluster q x).gang p = s.gang p := rfl
@[simp] theorem setCluster_byte_eq (s : State) (q : Nat) (x : Cluster) (p : Nat) : (s.setCluster q x).byte p = s.byte p := rfl
@[simp] theorem setCluster_now_eq (s : State) (q : Nat) (x : Cluster) (e : CoreId) : (s.setCluster q x).now e = s.now e := rfl
@[simp] theorem setDie_core_eq (s : State) (d : Nat) (x : Die) (e : CoreId) : (s.setDie d x).core e = s.core e := rfl
@[simp] theorem setDie_quad_eq (s : State) (d : Nat) (x : Die) (p : Nat) : (s.setDie d x).quad p = s.quad p := rfl
@[simp] theorem setDie_cluster_eq (s : State) (d : Nat) (x : Die) (p : Nat) : (s.setDie d x).cluster p = s.cluster p := rfl
@[simp] theorem setDie_gang_eq (s : State) (d : Nat) (x : Die) (p : Nat) : (s.setDie d x).gang p = s.gang p := rfl
@[simp] theorem setDie_byte_eq (s : State) (d : Nat) (x : Die) (p : Nat) : (s.setDie d x).byte p = s.byte p := rfl
@[simp] theorem modQueue_core_eq (s : State) (d q : Nat) (f : TaskQueue → TaskQueue) (e : CoreId) : (s.modQueue d q f).core e = s.core e := rfl
@[simp] theorem modQueue_quad_eq (s : State) (d q : Nat) (f : TaskQueue → TaskQueue) (p : Nat) : (s.modQueue d q f).quad p = s.quad p := rfl
@[simp] theorem modQueue_cluster_eq (s : State) (d q : Nat) (f : TaskQueue → TaskQueue) (p : Nat) : (s.modQueue d q f).cluster p = s.cluster p := rfl
@[simp] theorem modQueue_gang_eq (s : State) (d q : Nat) (f : TaskQueue → TaskQueue) (p : Nat) : (s.modQueue d q f).gang p = s.gang p := rfl
@[simp] theorem modQueue_byte_eq (s : State) (d q : Nat) (f : TaskQueue → TaskQueue) (p : Nat) : (s.modQueue d q f).byte p = s.byte p := rfl
@[simp] theorem modGang_core_eq (s : State) (n : Nat) (f : Gang → Gang) (e : CoreId) : (s.modGang n f).core e = s.core e := rfl
@[simp] theorem modGang_quad_eq (s : State) (n : Nat) (f : Gang → Gang) (p : Nat) : (s.modGang n f).quad p = s.quad p := rfl
@[simp] theorem modGang_cluster_eq (s : State) (n : Nat) (f : Gang → Gang) (p : Nat) : (s.modGang n f).cluster p = s.cluster p := rfl
@[simp] theorem modGang_die_eq (s : State) (n : Nat) (f : Gang → Gang) (p : Nat) : (s.modGang n f).die p = s.die p := rfl
@[simp] theorem modGang_byte_eq (s : State) (n : Nat) (f : Gang → Gang) (p : Nat) : (s.modGang n f).byte p = s.byte p := rfl
@[simp] theorem modGang_now_eq (s : State) (n : Nat) (f : Gang → Gang) (e : CoreId) : (s.modGang n f).now e = s.now e := rfl
@[simp] theorem setTag_core_eq (s : State) (a : Nat) (e : CoreId) : (s.setTag a).core e = s.core e := rfl
@[simp] theorem setTag_quad_eq (s : State) (a : Nat) (p : Nat) : (s.setTag a).quad p = s.quad p := rfl
@[simp] theorem setTag_cluster_eq (s : State) (a : Nat) (p : Nat) : (s.setTag a).cluster p = s.cluster p := rfl
@[simp] theorem setTag_die_eq (s : State) (a : Nat) (p : Nat) : (s.setTag a).die p = s.die p := rfl
@[simp] theorem setTag_gang_eq (s : State) (a : Nat) (p : Nat) : (s.setTag a).gang p = s.gang p := rfl
@[simp] theorem setTag_byte_eq (s : State) (a : Nat) (p : Nat) : (s.setTag a).byte p = s.byte p := rfl
@[simp] theorem setTag_now_eq (s : State) (a : Nat) (e : CoreId) : (s.setTag a).now e = s.now e := rfl
@[simp] theorem land_core_eq (s : State) (q : Nat) (due : Option Nat) (b : Bool) (m : BitVec 256) (src : Option Nat) (e : CoreId) : (s.land q due b m src).core e = s.core e := rfl
@[simp] theorem land_quad_eq (s : State) (q : Nat) (due : Option Nat) (b : Bool) (m : BitVec 256) (src : Option Nat) (p : Nat) : (s.land q due b m src).quad p = s.quad p := rfl
@[simp] theorem land_die_eq (s : State) (q : Nat) (due : Option Nat) (b : Bool) (m : BitVec 256) (src : Option Nat) (p : Nat) : (s.land q due b m src).die p = s.die p := rfl
@[simp] theorem land_gang_eq (s : State) (q : Nat) (due : Option Nat) (b : Bool) (m : BitVec 256) (src : Option Nat) (p : Nat) : (s.land q due b m src).gang p = s.gang p := rfl
@[simp] theorem land_byte_eq (s : State) (q : Nat) (due : Option Nat) (b : Bool) (m : BitVec 256) (src : Option Nat) (p : Nat) : (s.land q due b m src).byte p = s.byte p := rfl
@[simp] theorem land_now_eq (s : State) (q : Nat) (due : Option Nat) (b : Bool) (m : BitVec 256) (src : Option Nat) (e : CoreId) : (s.land q due b m src).now e = s.now e := rfl

end Sys2Proof.Laws
end

