-- ==== Sys2Proof/Laws/Ops.lean ====
section
/-! SUPPORT. One lemma for each shared operation that says what it can do: the registers, the end of a word, the shapes of
Machine/Operands.lean. -/

namespace Sys2Proof.Laws
open Sys2Proof Sys2Proof.Machine

/-! ## The monad of a word -/

@[simp] theorem op_bind {α β : Type} (f : Op α) (g : α → Op β) (s : State) :
    (f >>= g) s = match f s with
      | .ok (a, s') => g a s'
      | .error e => .error e := by
  show (StateT.bind f g s) = _
  simp only [StateT.bind]
  cases f s <;> rfl

@[simp] theorem op_pure {α : Type} (a : α) (s : State) : (pure a : Op α) s = .ok (a, s) := rfl
@[simp] theorem op_get (s : State) : (get : Op State) s = .ok (s, s) := rfl
@[simp] theorem op_set (t s : State) : (set t : Op PUnit) s = .ok (⟨⟩, t) := rfl
@[simp] theorem op_getCore (s : State) : getCore s = .ok (s.core s.cur, s) := rfl
@[simp] theorem op_modCore (f : Core → Core) (s : State) : modCore f s = .ok ((), s.modCore s.cur f) := rfl
@[simp] theorem op_stall {α : Type} (s : State) : (stall : Op α) s = .error .stall := rfl
@[simp] theorem op_raiseInfo {α : Type} (t : TrapInfo) (s : State) : (raiseInfo t : Op α) s = .error (.trap t) := rfl
@[simp] theorem op_nowOp (s : State) : nowOp s = .ok (s.now s.cur, s) := rfl
@[simp] theorem op_require_true (code : Nat) (s : State) : require true code s = .ok ((), s) := rfl
@[simp] theorem op_legal_true (s : State) : legal true s = .ok ((), s) := rfl

@[simp] theorem op_map {α β : Type} (g : α → β) (f : Op α) (s : State) :
    (g <$> f) s = match f s with
      | .ok (a, s') => .ok (g a, s')
      | .error e => .error e := by
  show (StateT.map g f s) = _
  simp only [StateT.map]
  cases f s <;> rfl

/-- A condition that holds raises nothing. -/
theorem require_ok {b : Bool} (h : b = true) (code : Nat) (s : State) : require b code s = .ok ((), s) := by subst h; rfl
theorem legal_ok {b : Bool} (h : b = true) {s : State} : legal b s = .ok ((), s) := require_ok h _ _

/-! ## Register numbers -/

/-- A 5-bit register number is its own number. -/
theorem reg_lt (d : BitVec 5) : d.toNat < 32 := d.isLt

/-- g0 reads zero (R50). -/
@[simp] theorem reg_zero (x : Core) : x.reg 0 = Reg.zero := rfl

/-- A register bound to no stream stands for itself at either level (R62). -/
theorem put_unbound {x : Core} {d : Nat} (hu : x.genOf d = none) (v : Reg) : x.put d v = { x with g := x.g.setIfInBounds d v } := by
  simp [Core.put, Core.viewOf, hu]

/-- A register replaced changes no register but itself. -/
theorem reg_put_ne (x : Core) {d r : Nat} (v : Reg) (h : r ≠ d) : (x.put d v).reg r = x.reg r := by
  unfold Core.put
  split
  · rfl
  · simp [Core.reg, Vector.toList_setIfInBounds, List.getD_eq_getElem?_getD, Ne.symm h]

/-- What a register holds after it is written. -/
theorem reg_setReg_self (x : Core) {d : Nat} (v : Reg) (hu : x.genOf d = none) (h : d ≠ 0) (hd : d < 32) : (x.setReg d v).reg d = v := by
  simp [Core.setReg, put_unbound hu, Core.reg, h, hd, Vector.toList_setIfInBounds, List.getD_eq_getElem?_getD]

/-- A write leaves every other register. -/
theorem reg_setReg_ne (x : Core) {d r : Nat} (v : Reg) (h : r ≠ d) : (x.setReg d v).reg r = x.reg r := by
  unfold Core.setReg
  split
  · rfl
  · exact reg_put_ne x v h

/-! ## The end of a word -/

/-- What moving on by words does: pc, loop state and captured body of the core, and nothing else (R75, R90). -/
theorem advance_eq (s : State) (c : CoreId) (n : Nat) : ∃ pc ls body,
    advance s c n = s.setCore c { s.core c with
      pc := pc, sys := { (s.core c).sys with loopstate := ls }, issue := { (s.core c).issue with loopCopy := body } } ∧
    ((s.core c).issue.loopCopy = none → pc = (s.core c).pc + BitVec.ofNat 64 (4 * n) ∧ ls = (s.core c).sys.loopstate ∧ body = none) := by
  unfold advance
  dsimp only
  split
  · rename_i h
    refine ⟨_, (s.core c).sys.loopstate, (s.core c).issue.loopCopy, rfl, fun _ => ⟨rfl, rfl, h⟩⟩
  · rename_i body h
    split
    · exact ⟨_, _, (s.core c).issue.loopCopy, rfl, fun e => by simp [h] at e⟩
    · split
      · exact ⟨_, _, _, rfl, fun e => by simp [h] at e⟩
      · exact ⟨_, _, _, rfl, fun e => by simp [h] at e⟩

/-- What completing a word with `cost` cycles does to the state that its effect left: pc, loop state and issue times of the
executing core (R72, R73, R75, R79, R122). -/
theorem retire_next (S : Bool) (cost : Nat) (s0 s : State) : ∃ pc ls body,
    retire S (.next cost) s0 s = s.setCore s.cur { s.core s.cur with
      pc := pc
      sys := { (s.core s.cur).sys with loopstate := ls }
      issue := { (s.core s.cur).issue with
        loopCopy := body, readyAt := s.now s.cur + cost, settle := S
        stepDue := (s.core s.cur).issue.stepDue || ((s0.core s.cur).stepOn && !(s0.core s.cur).system && !(s0.core s.cur).tw)
        resumed := false } } ∧
    ((s.core s.cur).issue.loopCopy = none → pc = (s.core s.cur).pc + 4 ∧ ls = (s.core s.cur).sys.loopstate ∧ body = none) := by
  obtain ⟨pc, ls, body, h, hn⟩ := advance_eq s s.cur 1
  refine ⟨pc, ls, body, ?_, hn⟩
  simp [retire, setCost, h, State.modCore]

/-! ## Registers of a word -/

/-- A register that is plain reads as it stands. -/
theorem readReg_plain {s : State} {r : BitVec 5} (h : s.plain r) : readReg r.toNat s = .ok (s.greg r, s) := by
  obtain ⟨h, ht⟩ := h
  simp only [readReg, op_bind, op_getCore, h, interlock, op_nowOp]
  rw [if_neg (by omega)]
  simp [State.greg]

theorem readWord_plain {s : State} {r : BitVec 5} (h : s.plain r) : readWord r.toNat s = .ok (s.gword r, s) := by
  simp [readWord, readReg_plain h, State.gword]

/-- A register bound to no stream is written with its latency. -/
theorem writeReg_unbound {s : State} {r : BitVec 5} (h : s.unbound r) (v : Reg) (latency : Nat) :
    writeReg r.toNat v latency s = .ok ((), s.modCore s.cur (fun c => c.setRegAt r.toNat v (s.now s.cur + latency))) := by
  have h' : (s.core s.cur).genOf r.toNat = none := h
  simp [writeReg, h']

theorem writeWord_unbound {s : State} {r : BitVec 5} (h : s.unbound r) (v : Word) (latency : Nat) :
    writeWord r.toNat v latency s =
      .ok ((), s.modCore s.cur (fun c => c.setRegAt r.toNat (Reg.ofWord v) (s.now s.cur + latency))) := writeReg_unbound h _ _

/-- Registers bound to no stream break no rule of direction. -/
theorem bindCheck_unbound {s : State} {rs ws : List Nat} (h : ∀ r ∈ rs ++ ws, (s.core s.cur).genOf r = none) :
    bindCheck rs ws s = .ok ((), s) := by
  simp only [bindCheck, op_bind, op_getCore]
  apply legal_ok
  simp only [Bool.or_eq_true, Bool.and_eq_true, List.all_eq_true]
  refine .inr ⟨fun r hr => ?_, fun r hr => ?_⟩
  · rw [h r (List.mem_append_left _ hr)]
  · rw [h r (List.mem_append_right _ hr)]

theorem notBound_unbound {s : State} {rs : List Nat} (h : ∀ r ∈ rs, (s.core s.cur).genOf r = none) : notBound rs s = .ok ((), s) := by
  simp only [notBound, op_bind, op_getCore]
  apply legal_ok
  simp only [Bool.or_eq_true, List.all_eq_true]
  exact .inr fun r hr => by rw [h r hr]; rfl

/-- What writing a register changes of a core. -/
theorem setRegAt_eq (x : Core) (d : BitVec 5) (v : Reg) (r : Nat) (hu : x.genOf d.toNat = none) : x.setRegAt d.toNat v r = { x with
    g := (x.setReg d.toNat v).g
    ops := x.ops.map (fun o => if d ≠ 0 ∧ o.dst = some d.toNat then { o with dst := none } else o)
    vq := x.vq.map (fun e => if d ≠ 0 ∧ e.dst = some d.toNat then { e with dst := none } else e)
    issue := { x.issue with
      regReady := if d = 0 then x.issue.regReady else mapSet x.issue.regReady d.toNat r } } := by
  have hd : d.toNat = 0 ↔ d = 0 := by rw [← BitVec.toNat_inj]; rfl
  unfold Core.setRegAt Core.setReg
  by_cases h : d = 0
  · simp [h]
  · have h' : ¬ d.toNat = 0 := fun e => h (hd.mp e)
    have h0 : ¬ d = 0#5 := h
    simp [h0, h', put_unbound hu]

/-- A core whose register d is written and which moves on has changed in nothing else. -/
theorem onlyRegister_set (x : Core) (d : BitVec 5) (v : Reg) (r : Nat) (pc ls : Word) (body : Option (List (BitVec 32)))
    (readyAt : Nat) (settle stepDue resumed : Bool) (hu : x.genOf d.toNat = none) : OnlyRegister x { x.setRegAt d.toNat v r with
      pc := pc
      sys := { (x.setRegAt d.toNat v r).sys with loopstate := ls }
      issue := { (x.setRegAt d.toNat v r).issue with
        loopCopy := body, readyAt := readyAt, settle := settle, stepDue := stepDue, resumed := resumed } } d := by
  rw [setRegAt_eq x d v r hu]
  refine ⟨rfl, fun n hn => ⟨?_, ?_⟩, rfl, rfl⟩
  · exact reg_setReg_ne x v hn
  · dsimp only
    split
    · rfl
    · exact mapGet_mapSet_ne _ _ (Ne.symm hn)

/-- What a written register holds. -/
theorem setRegAt_reg (x : Core) {d : BitVec 5} (v : Reg) (r : Nat) (hu : x.genOf d.toNat = none) (h : d ≠ 0) :
    (x.setRegAt d.toNat v r).reg d.toNat = v ∧ mapGet (x.setRegAt d.toNat v r).issue.regReady d.toNat = some r := by
  have hd : d.toNat ≠ 0 := fun e => h (BitVec.eq_of_toNat_eq e)
  rw [setRegAt_eq x d v r hu]
  have h0 : ¬ d = 0#5 := h
  refine ⟨?_, by simp [h0]⟩
  exact reg_setReg_self x v hu hd d.isLt

/-- A word whose one effect is a value for a general register. -/
theorem register_word (S : Bool) (d : BitVec 5) (v : Reg) (latency : Nat) (s : State) (hu : s.unbound d) :
    RegisterWord S d v latency s
      (retire S (.next 1) s (s.modCore s.cur (fun c => c.setRegAt d.toNat v (s.now s.cur + latency)))) := by
  obtain ⟨pc, ls, body, h, hn⟩ := retire_next S 1 s (s.modCore s.cur (fun c => c.setRegAt d.toNat v (s.now s.cur + latency)))
  rw [h]
  simp only [modCore_cur, core_modCore, modCore_now_eq] at hn ⊢
  refine ⟨⟨?_, ?_, ?_⟩, ⟨rfl, ?_, fun _ => rfl⟩, ?_, ?_⟩
  · intro e
    rw [core_setCore]
    refine (hn (by rw [setRegAt_eq _ _ _ _ hu]; exact e)).1.trans ?_
    rw [setRegAt_eq _ _ _ _ hu]
  · simp
  · simp
  · intro e he; rw [core_setCore_ne _ _ he, core_modCore_ne _ _ he]
  · rw [core_setCore]; exact onlyRegister_set (hu := hu) ..
  · unfold Wrote
    split
    · rw [core_setCore]; rfl
    · rename_i hz
      rw [core_setCore]
      exact setRegAt_reg _ v _ hu hz

/-- `regOp` on plain registers (R78). -/
theorem regOp_plain {s : State} {d a b : BitVec 5} (hd : s.unbound d) (ha : s.plain a) (hb : s.plain b) (latency : Nat)
    (f : Word → Word → Word) :
    regOp d a b latency f s = .ok (.next 1,
      s.modCore s.cur (fun c => c.setRegAt d.toNat (Reg.ofWord (f (s.gword a) (s.gword b))) (s.now s.cur + latency))) := by
  have hb0 := bindCheck_unbound (s := s) (rs := [a.toNat, b.toNat]) (ws := [d.toNat]) (by
    simp only [List.cons_append, List.nil_append, List.forall_mem_cons]; exact ⟨ha.1, hb.1, hd, by simp⟩)
  simp [regOp, hb0, readWord_plain ha, readWord_plain hb, writeWord_unbound hd]

/-- `unOp` on plain registers (R78). -/
theorem unOp_plain {s : State} {d a : BitVec 5} (hd : s.unbound d) (ha : s.plain a) (f : Word → Word) :
    unOp d a f s = .ok (.next 1,
      s.modCore s.cur (fun c => c.setRegAt d.toNat (Reg.ofWord (f (s.gword a))) (s.now s.cur + 1))) := by
  have hb0 := bindCheck_unbound (s := s) (rs := [a.toNat]) (ws := [d.toNat]) (by
    simp only [List.cons_append, List.nil_append, List.forall_mem_cons]; exact ⟨ha.1, hd, by simp⟩)
  simp [unOp, hb0, readWord_plain ha, writeWord_unbound hd]

end Sys2Proof.Laws
end

