-- ==== Sys2Proof/Laws/Memory.lean ====
section
/-! SUPPORT. Memory: every operation on the list of cells keeps its canonical form, and a cell reads as what was last written to
it (R24, R124, R125). -/

namespace Sys2Proof.Laws
open Sys2Proof Sys2Proof.Machine

/-- Every address of the list lies above a. -/
def Above (a : Nat) (m : List Host.Cell) : Prop := ∀ p ∈ m, a < p.1

/-- The canonical form, entry by entry. -/
theorem wf_cons (k : Nat) (b : Byte) (r : List Host.Cell) : Memory.wf ((k, b) :: r) = true ↔ b ≠ 0 ∧ Above k r ∧ Memory.wf r = true := by
  induction r generalizing k b with
  | nil => simp [Memory.wf, Above]
  | cons p r ih =>
    obtain ⟨k', b'⟩ := p
    simp only [Memory.wf, Bool.and_eq_true, bne_iff_ne, decide_eq_true_eq]
    constructor
    · rintro ⟨⟨h1, h2⟩, h3⟩
      refine ⟨h1, fun p hp => ?_, h3⟩
      rcases List.mem_cons.mp hp with rfl | hp
      · exact h2
      · exact h2.trans (((ih k' b').mp h3).2.1 p hp)
    · rintro ⟨h1, h2, h3⟩
      exact ⟨⟨h1, h2 (k', b') List.mem_cons_self⟩, h3⟩

/-- A write adds no address but its own. -/
theorem above_writeCell {k a : Nat} (b : Byte) {m : List Host.Cell} (h : Above k m) (ha : k < a) : Above k (writeCell m a b) := by
  induction m with
  | nil =>
    intro p hp
    simp only [writeCell] at hp
    split at hp
    · cases hp
    · cases List.mem_singleton.mp hp; exact ha
  | cons q r ih =>
    obtain ⟨j, x⟩ := q
    have hr : Above k r := fun p hp => h p (List.mem_cons_of_mem _ hp)
    intro p hp
    simp only [writeCell] at hp
    split at hp
    · split at hp
      · exact h p hp
      · rcases List.mem_cons.mp hp with rfl | hp
        · exact ha
        · exact h p hp
    · split at hp
      · split at hp
        · exact hr p hp
        · rcases List.mem_cons.mp hp with rfl | hp
          · exact ha
          · exact hr p hp
      · rcases List.mem_cons.mp hp with rfl | hp
        · exact h _ List.mem_cons_self
        · exact ih hr p hp

/-- Writing a cell keeps the canonical form. -/
theorem writeCell_wf (m : List Host.Cell) (a : Nat) (b : Byte) (h : Memory.wf m = true) : Memory.wf (writeCell m a b) = true := by
  induction m with
  | nil =>
    simp only [writeCell]
    split
    · rfl
    · rename_i hb; exact (wf_cons a b []).mpr ⟨hb, fun _ hp => absurd hp (List.not_mem_nil), rfl⟩
  | cons q r ih =>
    obtain ⟨k, x⟩ := q
    obtain ⟨hx, hk, hr⟩ := (wf_cons k x r).mp h
    simp only [writeCell]
    split
    · rename_i hak
      split
      · exact h
      · rename_i hb
        refine (wf_cons a b _).mpr ⟨hb, fun p hp => ?_, h⟩
        rcases List.mem_cons.mp hp with rfl | hp
        · exact hak
        · exact hak.trans (hk p hp)
    · rename_i hak
      split
      · rename_i hka
        subst hka
        split
        · exact hr
        · rename_i hb; exact (wf_cons k b r).mpr ⟨hb, hk, hr⟩
      · exact (wf_cons k x _).mpr ⟨hx, above_writeCell b hk (by omega), ih hr⟩

/-- Writing a run of cells keeps the canonical form. -/
theorem writeCells_wf (bs : List Byte) : ∀ (m : List Host.Cell) (a : Nat), Memory.wf m = true → Memory.wf (writeCells m a bs) = true := by
  induction bs with
  | nil => exact fun _ _ h => h
  | cons b r ih => exact fun m a h => ih _ _ (writeCell_wf m a b h)

/-- Nothing is listed below the addresses of a list. -/
theorem readCell_below {m : List Host.Cell} {a k : Nat} (h : Above k m) (ha : a ≤ k) : readCell m a = 0 := by
  cases m with
  | nil => rfl
  | cons q r =>
    have hq : k < q.1 := h q List.mem_cons_self
    obtain ⟨j, x⟩ := q
    dsimp only at hq
    rw [readCell, if_neg (by omega), if_pos (by omega)]

/-- A cell reads as what was last written to it, and any other cell as before. -/
theorem readCell_writeCell (m : List Host.Cell) (a : Nat) (b : Byte) (x : Nat) (h : Memory.wf m = true) :
    readCell (writeCell m a b) x = if x = a then b else readCell m x := by
  induction m with
  | nil =>
    simp only [writeCell]
    split
    · rename_i hb; simp [readCell, hb]
    · simp only [readCell]
      split
      · rename_i hx; rw [if_pos hx.symm]
      · rename_i hx; rw [if_neg (Ne.symm hx)]; split <;> rfl
  | cons q r ih =>
    obtain ⟨k, y⟩ := q
    obtain ⟨-, hk, hr⟩ := (wf_cons k y r).mp h
    simp only [writeCell]
    split
    · rename_i hak
      split
      · rename_i hb
        split
        · rename_i hx; subst hx; rw [readCell, if_neg (by omega), if_pos hak, hb]
        · rfl
      · rw [readCell]
        split
        · rename_i hx; rw [if_pos hx.symm]
        · rename_i hx
          rw [if_neg (Ne.symm hx)]
          split
          · rename_i hxa; rw [readCell, if_neg (by omega), if_pos (by omega)]
          · rfl
    · rename_i hak
      split
      · rename_i hka
        subst hka
        split
        · rename_i hb
          split
          · rename_i hx; subst hx; rw [readCell_below hk (Nat.le_refl _), hb]
          · rename_i hx
            rw [readCell, if_neg (Ne.symm hx)]
            split
            · exact readCell_below hk (by omega)
            · rfl
        · simp only [readCell]
          split
          · rename_i hx; rw [if_pos hx.symm]
          · rename_i hx; rw [if_neg (Ne.symm hx)]
      · rename_i hka
        simp only [readCell, ih hr]
        split
        · rename_i hx; rw [if_neg (by omega)]
        · split
          · rw [if_neg (by omega)]
          · rfl

/-- What a run of cells reads as after it is written (R24). -/
theorem readCell_writeCells (bs : List Byte) : ∀ (m : List Host.Cell) (a x : Nat), Memory.wf m = true →
    readCell (writeCells m a bs) x = if a ≤ x ∧ x < a + bs.length then bs.getD (x - a) 0 else readCell m x := by
  induction bs with
  | nil => intro m a x _; rw [writeCells, if_neg (by simp only [List.length_nil]; omega)]
  | cons b r ih =>
    intro m a x h
    rw [writeCells, ih _ _ _ (writeCell_wf m a b h), readCell_writeCell m a b x h, List.length_cons]
    by_cases h1 : a + 1 ≤ x ∧ x < a + 1 + r.length
    · rw [if_pos h1, if_pos (by omega), show x - a = (x - (a + 1)) + 1 by omega, List.getD_cons_succ]
    · rw [if_neg h1]
      by_cases h2 : x = a
      · rw [if_pos h2, if_pos (by omega), h2, Nat.sub_self, List.getD_cons_zero]
      · rw [if_neg h2, if_neg (by omega)]

/-- Writing bytes keeps the canonical form of the state's memory. -/
theorem write_wf {s : State} (h : s.wf = true) (a : Nat) (bs : List Byte) : (s.write a bs).wf = true := by
  unfold State.write
  split
  · exact h
  · exact writeCells_wf bs s.mem a h

theorem writeNum_wf {s : State} (h : s.wf = true) (a n x : Nat) : (s.writeNum a n x).wf = true := write_wf h _ _

/-- Writing bytes changes nothing but memory and tags. -/
theorem write_eq (s : State) (a : Nat) (bs : List Byte) : s.write a bs = { s with mem := (s.write a bs).mem, tags := (s.write a bs).tags } := by
  unfold State.write; split <;> rfl

/-- A tag set or a granule cleared stands for itself alone (R125). -/
theorem mem_tagSet (l : List Nat) (g h : Nat) : h ∈ tagSet l g ↔ h = g ∨ h ∈ l := by
  induction l with
  | nil => simp [tagSet]
  | cons k r ih =>
    simp only [tagSet]
    split
    · simp
    · split
      · rename_i hk; subst hk; simp
      · simp only [List.mem_cons, ih]; tauto

theorem mem_tagClear (l : List Nat) (a b g : Nat) : g ∈ tagClear l a b ↔ g ∈ l ∧ (g < a ∨ b < g) := by
  simp [tagClear]

/-- What an access that performs does to memory keeps its canonical form (R166-R169). -/
theorem performAt_wf {s : State} (h : s.wf = true) (o : MemOp) (fwd : Option MemOp) : (performAt s o fwd).1.wf = true := by
  unfold performAt
  split <;> try split
  all_goals first
    | exact h
    | exact writeNum_wf h _ _ _
    | (dsimp only; split <;> first | exact writeNum_wf h _ _ _ | exact h)

end Sys2Proof.Laws
end

