-- ==== Sys2Proof/Laws/Access.lean ====
section
/-! SUPPORT. What the shared operations of an access can do: the checks of R165, the list of accesses, and the ends of a word other
than the next one. -/

namespace Sys2Proof.Laws
open Sys2Proof Sys2Proof.Machine

/-- An access of some bytes that passes the checks of R56. -/
theorem checkCap_ok {c : CoreId} {r : Reg} {off : Int} {n : Nat} {perm : Reg → Bool} (ht : r.tag = true) (hp : perm r = true)
    (hb : r.base ≤ (r.cursor : Int) + off) (htop : (r.cursor : Int) + off + n ≤ r.top)
    (ho : r.space < 2 → r.owner = coreIndex c) : checkCap c r off n perm = .ok ((r.cursor : Int) + off) := by
  unfold checkCap
  simp only [ht, hp, Bool.not_true, Bool.false_eq_true, if_false]
  rw [if_neg (by simp [hb, htop]), if_neg]
  simp only [Bool.and_eq_true, decide_eq_true_eq, bne_iff_ne, not_and, not_not]
  exact ho

/-- An access that finds nothing against it passes R165 and is at its place. -/
theorem checkAccess_ok {s : State} {r : Reg} {off : Int} {n al : Nat} {perm : Reg → Bool} {isStore ext : Bool} {p : Place}
    (h : AccessOk s r off n al perm isStore ext p) : checkAccess r off n al perm isStore ext s = .ok (p, s) := by
  obtain ⟨hw, ht, hp, hb, htop, ho, hr, ha, hs⟩ := h
  have hw' : (!(s.core s.cur).tw || s.inOwnSlice s.cur ((r.cursor : Int) + off) n) = true := by
    rcases hw with h | h <;> simp [h]
  have hsl : (s.core s.cur).eng.sluice.filter (fun e => e.hits p n isStore) = [] := by
    simpa [List.filter_eq_nil_iff] using hs
  have hc := checkCap_ok (c := s.cur) (perm := perm) ht hp hb htop ho
  simp only [checkAccess, checkAddress, checkSluice, op_bind, op_get, op_getCore, require_ok hw', hc, hr, op_pure, ha, ne_eq,
    not_true_eq_false, if_false, hsl, List.getLast?_nil]

/-- The memory gate lets pass what no acquire load holds (R170). -/
theorem memoryGate_ok {s : State} (h : (s.core s.cur).acquiring = false) : memoryGate s = .ok ((), s) := by
  simp [memoryGate, h]

/-- Without fences the list of accesses stands as it is. -/
theorem pruneFences_none (c : CoreId) (l : List MemOp) : ∀ kept, (∀ o ∈ l, o.kind.isFence = false) → pruneFences c kept l = l := by
  induction l with
  | nil => exact fun _ _ => rfl
  | cons o r ih =>
    intro kept h
    have hr := fun kept => ih kept fun x hx => h x (List.mem_cons_of_mem _ hx)
    simp [pruneFences, h o List.mem_cons_self, hr]

/-- Pruning only takes fences from the list, and keeps its order. -/
theorem pruneFences_sublist (c : CoreId) (l : List MemOp) : ∀ kept, (pruneFences c kept l).Sublist l := by
  induction l with
  | nil => exact fun _ => List.Sublist.refl _
  | cons o r ih =>
    intro kept
    rw [pruneFences]
    split
    · exact (ih _).cons _
    · exact (ih _).cons_cons _

/-- An access joins the end of the list under a fresh name (R72, R73). -/
theorem addOp_eq {s : State} {o : MemOp} (hops : ∀ x ∈ (s.core s.cur).ops, x.kind.isFence = false) (ho : o.kind.isFence = false) :
    addOp o s = .ok ((), ({ s with nextId := s.nextId + 1 } : State).modCore s.cur (fun c => { c with
      ops := c.ops ++ [{ o with
        id := s.nextId
        due := if o.kind.isLoad || o.kind == .deposit then some (s.now s.cur + 2) else o.due }] })) := by
  have hcore : ({ s with nextId := s.nextId + 1 } : State).core s.cur = s.core s.cur := rfl
  simp only [addOp, op_bind, op_get, op_set, op_modCore, State.modCore, hcore]
  congr 3
  rw [pruneFences_none]
  intro x hx
  rcases List.mem_append.mp hx with hx | hx
  · exact hops x hx
  · cases List.mem_singleton.mp hx; exact ho

/-- A store buffer with room lets the word go on (R182). -/
theorem bufferGate_eq {s : State} (hroom : ((s.core s.cur).ops.filter MemOp.inBuffer).length < 16) : bufferGate s = .ok ((), s) := by
  have h : ¬ 16 ≤ ((s.core s.cur).ops.filter MemOp.inBuffer).length := by omega
  simp only [bufferGate, op_bind, op_getCore, ge_iff_le, h, if_false]
  rfl

/-- No append is pending for a register that no access in flight names: `sunbind` goes on (R173). -/
theorem appendGate_eq {s : State} {d : Nat} (hops : (s.core s.cur).ops.any (fun o => o.isAppend && o.dst == some d) = false) :
    appendGate d s = .ok ((), s) := by
  simp only [appendGate, op_bind, op_getCore, hops, Bool.false_eq_true, if_false]
  rfl

/-- A store with room in the buffer enters it, its own slice's 4 cycles before it performs (R166, R182). -/
theorem issueStore_eq {s : State} {kind : MemKind} {p : Place} {n data : Nat}
    (hroom : ((s.core s.cur).ops.filter MemOp.inBuffer).length < 16) :
    issueStore kind p n data s =
      addOp ⟨0, kind, p.home, n, data % 256 ^ n, none, p.near, some (if p.own then s.now s.cur + 4 else s.now s.cur), none⟩ s := by
  simp only [issueStore, op_bind, bufferGate_eq hroom, op_nowOp]

/-- A load of the own slice with nothing else in flight gives its value after the latency (R72, R170). -/
theorem issueLoad_own {s : State} {kind : MemKind} {p : Place} {n d latency : Nat} (hown : p.own = true) (hops : (s.core s.cur).ops = [])
    (hrec : s.recovers p.home n = false) (hnear : mayPerform s.cur [] ⟨s.nextId, kind, p.home, n, 0, some d, p.near, none, none⟩ = true)
    (hfwd : forwards [] ⟨s.nextId, kind, p.home, n, 0, some d, p.near, none, none⟩ = none) :
    issueLoad kind p n d latency s = .ok ((), s.modCore s.cur (fun c =>
      c.setRegAt d (performAt s ⟨s.nextId, kind, p.home, n, 0, some d, p.near, none, none⟩ none).2 (s.now s.cur + latency))) := by
  simp only [issueLoad, op_bind, op_get, op_getCore, hown, if_true, hops, hnear, hrec, Bool.not_true, Bool.or_self, Bool.false_eq_true,
    if_false, hfwd, op_nowOp, op_modCore]

/-- How a word that transfers control ends (R79). -/
theorem retire_jump (S : Bool) (target : Word) (s0 s : State) :
    retire S (.jump target) s0 s = s.setCore s.cur { s.core s.cur with
      pc := target
      issue := { (s.core s.cur).issue with
        readyAt := s.now s.cur + 3, settle := S
        stepDue := (s.core s.cur).issue.stepDue || ((s0.core s.cur).stepOn && !(s0.core s.cur).system && !(s0.core s.cur).tw)
        resumed := false } } := by
  simp [retire, setCost, State.modCore]

/-- How a word that names its next pc and its cost ends. -/
theorem retire_go (S : Bool) (pc : Word) (cost : Nat) (s0 s : State) :
    retire S (.go pc cost) s0 s = s.setCore s.cur { s.core s.cur with
      pc := pc
      issue := { (s.core s.cur).issue with
        readyAt := s.now s.cur + cost, settle := S
        stepDue := (s.core s.cur).issue.stepDue || ((s0.core s.cur).stepOn && !(s0.core s.cur).system && !(s0.core s.cur).tw)
        resumed := false } } := by
  simp [retire, setCost, State.modCore]

/-- How a word that passes others ends (R90). -/
theorem retire_skip (S : Bool) (n : Nat) (s0 s : State) : ∃ pc ls body,
    retire S (.skip n) s0 s = s.setCore s.cur { s.core s.cur with
      pc := pc
      sys := { (s.core s.cur).sys with loopstate := ls }
      issue := { (s.core s.cur).issue with
        loopCopy := body, readyAt := s.now s.cur + 1, settle := S
        stepDue := (s.core s.cur).issue.stepDue || ((s0.core s.cur).stepOn && !(s0.core s.cur).system && !(s0.core s.cur).tw)
        resumed := false } } ∧
    ((s.core s.cur).issue.loopCopy = none → pc = (s.core s.cur).pc + BitVec.ofNat 64 (4 * (n + 1)) ∧
      ls = (s.core s.cur).sys.loopstate ∧ body = none) := by
  obtain ⟨pc, ls, body, h, hn⟩ := advance_eq s s.cur (n + 1)
  exact ⟨pc, ls, body, by simp [retire, setCost, h, State.modCore], hn⟩

end Sys2Proof.Laws
end

