-- ==== Sys2Proof/Laws/Decode.lean ====
section
/-! SUPPORT. Fields of an encoded word, and the opcode dispatch of the decoder (R25, R28). -/

namespace Sys2Proof.Laws
open Sys2Proof

/-- A field of the word that a number gives. -/
theorem field_of (x lo n v : Nat) (h : x / 2 ^ lo % 2 ^ n = v) (hn : lo + n ≤ 32) :
    (BitVec.ofNat 32 x).extractLsb' lo n = BitVec.ofNat n v := by
  apply BitVec.eq_of_toNat_eq
  subst h
  simp only [BitVec.extractLsb'_toNat, BitVec.toNat_ofNat, Nat.shiftRight_eq_div_pow, Nat.mod_mod]
  rw [show (2 : Nat) ^ 32 = 2 ^ lo * 2 ^ (32 - lo) by rw [← Nat.pow_add]; congr 1; omega, Nat.mod_mul_right_div_self]
  exact Nat.mod_mod_of_dvd _ (Nat.pow_dvd_pow 2 (by omega))

/-- A field of the word that holds a field of the instruction. -/
theorem field_eq (x lo n : Nat) (v : BitVec n) (h : x / 2 ^ lo % 2 ^ n = v.toNat) (hn : lo + n ≤ 32) :
    (BitVec.ofNat 32 x).extractLsb' lo n = v := by
  rw [field_of x lo n _ h hn, BitVec.ofNat_toNat, BitVec.setWidth_eq]

/-- A field of the word that does not hold a given value. -/
theorem field_ne (x lo n v : Nat) (h : x / 2 ^ lo % 2 ^ n ≠ v % 2 ^ n) (hn : lo + n ≤ 32) :
    (BitVec.ofNat 32 x).extractLsb' lo n ≠ BitVec.ofNat n v := by
  rw [field_of x lo n _ rfl hn]
  intro e
  simpa [h] using congrArg BitVec.toNat e

/-- The settle marker of the word that a number gives. -/
theorem top_of (x : Nat) (S : Bool) (h : x / 2 ^ 31 = S.toNat) : (BitVec.ofNat 32 x)[31] = S := by
  have hx : x < 2 ^ 32 := by cases S <;> simp at h <;> omega
  rw [← BitVec.getLsbD_eq_getElem]
  simp only [BitVec.getLsbD, BitVec.toNat_ofNat, Nat.mod_eq_of_lt hx, Nat.testBit, Nat.shiftRight_eq_div_pow, h]
  cases S <;> rfl

/-- A word whose fields name a well-formed instruction decodes to it. -/
theorem decode_of (w w2 : BitVec 32) {i : Instr} (h : decodeRaw w w2 = .ok i) (hw : i.wf = true) : decode w w2 = .ok i := by
  simp [decode, h, hw]

theorem raw01 (w w2 : BitVec 32) {i : Instr} (q : w.extractLsb' 24 7 = 0x01#7) (h : decodeOp01 w = some i) :
    decodeRaw w w2 = .ok i := by
  have e : decodeBy 0x01 w w2 = (decodeOp01 w).elim (.error .field) .ok := rfl
  rw [decodeRaw, q]; exact e.trans (by rw [h]; rfl)

theorem raw02 (w w2 : BitVec 32) {i : Instr} (q : w.extractLsb' 24 7 = 0x02#7) (h : decodeOp02 w = some i) :
    decodeRaw w w2 = .ok i := by
  have e : decodeBy 0x02 w w2 = (decodeOp02 w).elim (.error .field) .ok := rfl
  rw [decodeRaw, q]; exact e.trans (by rw [h]; rfl)

theorem raw03 (w w2 : BitVec 32) {i : Instr} (q : w.extractLsb' 24 7 = 0x03#7) (h : decodeOp03 w = some i) :
    decodeRaw w w2 = .ok i := by
  have e : decodeBy 0x03 w w2 = (decodeOp03 w).elim (.error .field) .ok := rfl
  rw [decodeRaw, q]; exact e.trans (by rw [h]; rfl)

theorem raw04 (w w2 : BitVec 32) {i : Instr} (q : w.extractLsb' 24 7 = 0x04#7) (h : decodeOp04 w = some i) :
    decodeRaw w w2 = .ok i := by
  have e : decodeBy 0x04 w w2 = (decodeOp04 w).elim (.error .field) .ok := rfl
  rw [decodeRaw, q]; exact e.trans (by rw [h]; rfl)

theorem raw05 (w w2 : BitVec 32) {i : Instr} (q : w.extractLsb' 24 7 = 0x05#7) (h : decodeOp05 w = some i) :
    decodeRaw w w2 = .ok i := by
  have e : decodeBy 0x05 w w2 = (decodeOp05 w).elim (.error .field) .ok := rfl
  rw [decodeRaw, q]; exact e.trans (by rw [h]; rfl)

theorem raw06 (w w2 : BitVec 32) {i : Instr} (q : w.extractLsb' 24 7 = 0x06#7) (h : decodeOp06 w = some i) :
    decodeRaw w w2 = .ok i := by
  have e : decodeBy 0x06 w w2 = (decodeOp06 w).elim (.error .field) .ok := rfl
  rw [decodeRaw, q]; exact e.trans (by rw [h]; rfl)

theorem raw08 (w w2 : BitVec 32) {i : Instr} (q : w.extractLsb' 24 7 = 0x08#7) (h : decodeOp08 w = some i) :
    decodeRaw w w2 = .ok i := by
  have e : decodeBy 0x08 w w2 = (decodeOp08 w).elim (.error .field) .ok := rfl
  rw [decodeRaw, q]; exact e.trans (by rw [h]; rfl)

theorem raw09 (w w2 : BitVec 32) {i : Instr} (q : w.extractLsb' 24 7 = 0x09#7) (h : decodeOp09 w = some i) :
    decodeRaw w w2 = .ok i := by
  have e : decodeBy 0x09 w w2 = (decodeOp09 w).elim (.error .field) .ok := rfl
  rw [decodeRaw, q]; exact e.trans (by rw [h]; rfl)

theorem raw0A (w w2 : BitVec 32) {i : Instr} (q : w.extractLsb' 24 7 = 0x0A#7) (h : decodeOp0A w = some i) :
    decodeRaw w w2 = .ok i := by
  have e : decodeBy 0x0A w w2 = (decodeOp0A w).elim (.error .field) .ok := rfl
  rw [decodeRaw, q]; exact e.trans (by rw [h]; rfl)

theorem raw0B (w w2 : BitVec 32) {i : Instr} (q : w.extractLsb' 24 7 = 0x0B#7) (h : decodeOp0B w = some i) :
    decodeRaw w w2 = .ok i := by
  have e : decodeBy 0x0B w w2 = (decodeOp0B w).elim (.error .field) .ok := rfl
  rw [decodeRaw, q]; exact e.trans (by rw [h]; rfl)

theorem raw0C (w w2 : BitVec 32) {i : Instr} (q : w.extractLsb' 24 7 = 0x0C#7) (h : decodeOp0C w = some i) :
    decodeRaw w w2 = .ok i := by
  have e : decodeBy 0x0C w w2 = (decodeOp0C w).elim (.error .field) .ok := rfl
  rw [decodeRaw, q]; exact e.trans (by rw [h]; rfl)

theorem raw0D (w w2 : BitVec 32) {i : Instr} (q : w.extractLsb' 24 7 = 0x0D#7) (h : decodeOp0D w = some i) :
    decodeRaw w w2 = .ok i := by
  have e : decodeBy 0x0D w w2 = (decodeOp0D w).elim (.error .field) .ok := rfl
  rw [decodeRaw, q]; exact e.trans (by rw [h]; rfl)

theorem raw0E (w w2 : BitVec 32) {i : Instr} (q : w.extractLsb' 24 7 = 0x0E#7) (h : decodeOp0E w = some i) :
    decodeRaw w w2 = .ok i := by
  have e : decodeBy 0x0E w w2 = (decodeOp0E w).elim (.error .field) .ok := rfl
  rw [decodeRaw, q]; exact e.trans (by rw [h]; rfl)

theorem raw0F (w w2 : BitVec 32) {i : Instr} (q : w.extractLsb' 24 7 = 0x0F#7) (h : decodeOp0F w = some i) :
    decodeRaw w w2 = .ok i := by
  have e : decodeBy 0x0F w w2 = (decodeOp0F w).elim (.error .field) .ok := rfl
  rw [decodeRaw, q]; exact e.trans (by rw [h]; rfl)

theorem raw10 (w w2 : BitVec 32) {i : Instr} (q : w.extractLsb' 24 7 = 0x10#7) (h : decodeOp10 w = some i) :
    decodeRaw w w2 = .ok i := by
  have e : decodeBy 0x10 w w2 = (decodeOp10 w).elim (.error .field) .ok := rfl
  rw [decodeRaw, q]; exact e.trans (by rw [h]; rfl)

theorem raw11 (w w2 : BitVec 32) {i : Instr} (q : w.extractLsb' 24 7 = 0x11#7) (h : decodeOp11 w = some i) :
    decodeRaw w w2 = .ok i := by
  have e : decodeBy 0x11 w w2 = (decodeOp11 w).elim (.error .field) .ok := rfl
  rw [decodeRaw, q]; exact e.trans (by rw [h]; rfl)

theorem raw12 (w w2 : BitVec 32) {i : Instr} (q : w.extractLsb' 24 7 = 0x12#7) (h : decodeOp12 w = some i) :
    decodeRaw w w2 = .ok i := by
  have e : decodeBy 0x12 w w2 = (decodeOp12 w).elim (.error .field) .ok := rfl
  rw [decodeRaw, q]; exact e.trans (by rw [h]; rfl)

theorem raw18 (w w2 : BitVec 32) {i : Instr} (q : w.extractLsb' 24 7 = 0x18#7) (h : decodeOp18 w = some i) :
    decodeRaw w w2 = .ok i := by
  have e : decodeBy 0x18 w w2 = (decodeOp18 w).elim (.error .field) .ok := rfl
  rw [decodeRaw, q]; exact e.trans (by rw [h]; rfl)

theorem raw19 (w w2 : BitVec 32) {i : Instr} (q : w.extractLsb' 24 7 = 0x19#7) (h : decodeOp19 w = some i) :
    decodeRaw w w2 = .ok i := by
  have e : decodeBy 0x19 w w2 = (decodeOp19 w).elim (.error .field) .ok := rfl
  rw [decodeRaw, q]; exact e.trans (by rw [h]; rfl)

theorem raw1A (w w2 : BitVec 32) {i : Instr} (q : w.extractLsb' 24 7 = 0x1A#7) (h : decodeOp1A w = some i) :
    decodeRaw w w2 = .ok i := by
  have e : decodeBy 0x1A w w2 = (decodeOp1A w).elim (.error .field) .ok := rfl
  rw [decodeRaw, q]; exact e.trans (by rw [h]; rfl)

theorem raw1B (w w2 : BitVec 32) {i : Instr} (q : w.extractLsb' 24 7 = 0x1B#7) (h : decodeOp1B w = some i) :
    decodeRaw w w2 = .ok i := by
  have e : decodeBy 0x1B w w2 = (decodeOp1B w).elim (.error .field) .ok := rfl
  rw [decodeRaw, q]; exact e.trans (by rw [h]; rfl)

theorem raw1C (w w2 : BitVec 32) {i : Instr} (q : w.extractLsb' 24 7 = 0x1C#7) (h : decodeOp1C w = some i) :
    decodeRaw w w2 = .ok i := by
  have e : decodeBy 0x1C w w2 = (decodeOp1C w).elim (.error .field) .ok := rfl
  rw [decodeRaw, q]; exact e.trans (by rw [h]; rfl)

theorem raw1D (w w2 : BitVec 32) {i : Instr} (q : w.extractLsb' 24 7 = 0x1D#7) (h : decodeOp1D w w2 = some i) :
    decodeRaw w w2 = .ok i := by
  have e : decodeBy 0x1D w w2 = (decodeOp1D w w2).elim (.error .field) .ok := rfl
  rw [decodeRaw, q]; exact e.trans (by rw [h]; rfl)

theorem raw1E (w w2 : BitVec 32) {i : Instr} (q : w.extractLsb' 24 7 = 0x1E#7) (h : decodeOp1E w = some i) :
    decodeRaw w w2 = .ok i := by
  have e : decodeBy 0x1E w w2 = (decodeOp1E w).elim (.error .field) .ok := rfl
  rw [decodeRaw, q]; exact e.trans (by rw [h]; rfl)

theorem raw1F (w w2 : BitVec 32) {i : Instr} (q : w.extractLsb' 24 7 = 0x1F#7) (h : decodeOp1F w = some i) :
    decodeRaw w w2 = .ok i := by
  have e : decodeBy 0x1F w w2 = (decodeOp1F w).elim (.error .field) .ok := rfl
  rw [decodeRaw, q]; exact e.trans (by rw [h]; rfl)

theorem raw20 (w w2 : BitVec 32) {i : Instr} (q : w.extractLsb' 24 7 = 0x20#7) (h : decodeOp20 w = some i) :
    decodeRaw w w2 = .ok i := by
  have e : decodeBy 0x20 w w2 = (decodeOp20 w).elim (.error .field) .ok := rfl
  rw [decodeRaw, q]; exact e.trans (by rw [h]; rfl)

theorem raw21 (w w2 : BitVec 32) {i : Instr} (q : w.extractLsb' 24 7 = 0x21#7) (h : decodeOp21 w = some i) :
    decodeRaw w w2 = .ok i := by
  have e : decodeBy 0x21 w w2 = (decodeOp21 w).elim (.error .field) .ok := rfl
  rw [decodeRaw, q]; exact e.trans (by rw [h]; rfl)

theorem raw22 (w w2 : BitVec 32) {i : Instr} (q : w.extractLsb' 24 7 = 0x22#7) (h : decodeOp22 w = some i) :
    decodeRaw w w2 = .ok i := by
  have e : decodeBy 0x22 w w2 = (decodeOp22 w).elim (.error .field) .ok := rfl
  rw [decodeRaw, q]; exact e.trans (by rw [h]; rfl)

theorem raw23 (w w2 : BitVec 32) {i : Instr} (q : w.extractLsb' 24 7 = 0x23#7) (h : decodeOp23 w = some i) :
    decodeRaw w w2 = .ok i := by
  have e : decodeBy 0x23 w w2 = (decodeOp23 w).elim (.error .field) .ok := rfl
  rw [decodeRaw, q]; exact e.trans (by rw [h]; rfl)

theorem raw24 (w w2 : BitVec 32) {i : Instr} (q : w.extractLsb' 24 7 = 0x24#7) (h : decodeOp24 w = some i) :
    decodeRaw w w2 = .ok i := by
  have e : decodeBy 0x24 w w2 = (decodeOp24 w).elim (.error .field) .ok := rfl
  rw [decodeRaw, q]; exact e.trans (by rw [h]; rfl)

theorem raw25 (w w2 : BitVec 32) {i : Instr} (q : w.extractLsb' 24 7 = 0x25#7) (h : decodeOp25 w = some i) :
    decodeRaw w w2 = .ok i := by
  have e : decodeBy 0x25 w w2 = (decodeOp25 w).elim (.error .field) .ok := rfl
  rw [decodeRaw, q]; exact e.trans (by rw [h]; rfl)

theorem raw26 (w w2 : BitVec 32) {i : Instr} (q : w.extractLsb' 24 7 = 0x26#7) (h : decodeOp26 w = some i) :
    decodeRaw w w2 = .ok i := by
  have e : decodeBy 0x26 w w2 = (decodeOp26 w).elim (.error .field) .ok := rfl
  rw [decodeRaw, q]; exact e.trans (by rw [h]; rfl)

theorem raw27 (w w2 : BitVec 32) {i : Instr} (q : w.extractLsb' 24 7 = 0x27#7) (h : decodeOp27 w = some i) :
    decodeRaw w w2 = .ok i := by
  have e : decodeBy 0x27 w w2 = (decodeOp27 w).elim (.error .field) .ok := rfl
  rw [decodeRaw, q]; exact e.trans (by rw [h]; rfl)

theorem raw30 (w w2 : BitVec 32) {i : Instr} (q : w.extractLsb' 24 7 = 0x30#7) (h : decodeOp30 w = some i) :
    decodeRaw w w2 = .ok i := by
  have e : decodeBy 0x30 w w2 = (decodeOp30 w).elim (.error .field) .ok := rfl
  rw [decodeRaw, q]; exact e.trans (by rw [h]; rfl)

theorem raw31 (w w2 : BitVec 32) {i : Instr} (q : w.extractLsb' 24 7 = 0x31#7) (h : decodeOp31 w = some i) :
    decodeRaw w w2 = .ok i := by
  have e : decodeBy 0x31 w w2 = (decodeOp31 w).elim (.error .field) .ok := rfl
  rw [decodeRaw, q]; exact e.trans (by rw [h]; rfl)

theorem raw32 (w w2 : BitVec 32) {i : Instr} (q : w.extractLsb' 24 7 = 0x32#7) (h : decodeOp32 w = some i) :
    decodeRaw w w2 = .ok i := by
  have e : decodeBy 0x32 w w2 = (decodeOp32 w).elim (.error .field) .ok := rfl
  rw [decodeRaw, q]; exact e.trans (by rw [h]; rfl)

theorem raw33 (w w2 : BitVec 32) {i : Instr} (q : w.extractLsb' 24 7 = 0x33#7) (h : decodeOp33 w = some i) :
    decodeRaw w w2 = .ok i := by
  have e : decodeBy 0x33 w w2 = (decodeOp33 w).elim (.error .field) .ok := rfl
  rw [decodeRaw, q]; exact e.trans (by rw [h]; rfl)

theorem raw34 (w w2 : BitVec 32) {i : Instr} (q : w.extractLsb' 24 7 = 0x34#7) (h : decodeOp34 w = some i) :
    decodeRaw w w2 = .ok i := by
  have e : decodeBy 0x34 w w2 = (decodeOp34 w).elim (.error .field) .ok := rfl
  rw [decodeRaw, q]; exact e.trans (by rw [h]; rfl)

theorem raw35 (w w2 : BitVec 32) {i : Instr} (q : w.extractLsb' 24 7 = 0x35#7) (h : decodeOp35 w = some i) :
    decodeRaw w w2 = .ok i := by
  have e : decodeBy 0x35 w w2 = (decodeOp35 w).elim (.error .field) .ok := rfl
  rw [decodeRaw, q]; exact e.trans (by rw [h]; rfl)

theorem raw36 (w w2 : BitVec 32) {i : Instr} (q : w.extractLsb' 24 7 = 0x36#7) (h : decodeOp36 w = some i) :
    decodeRaw w w2 = .ok i := by
  have e : decodeBy 0x36 w w2 = (decodeOp36 w).elim (.error .field) .ok := rfl
  rw [decodeRaw, q]; exact e.trans (by rw [h]; rfl)

theorem raw37 (w w2 : BitVec 32) {i : Instr} (q : w.extractLsb' 24 7 = 0x37#7) (h : decodeOp37 w = some i) :
    decodeRaw w w2 = .ok i := by
  have e : decodeBy 0x37 w w2 = (decodeOp37 w).elim (.error .field) .ok := rfl
  rw [decodeRaw, q]; exact e.trans (by rw [h]; rfl)

theorem raw38 (w w2 : BitVec 32) {i : Instr} (q : w.extractLsb' 24 7 = 0x38#7) (h : decodeOp38 w = some i) :
    decodeRaw w w2 = .ok i := by
  have e : decodeBy 0x38 w w2 = (decodeOp38 w).elim (.error .field) .ok := rfl
  rw [decodeRaw, q]; exact e.trans (by rw [h]; rfl)

theorem raw39 (w w2 : BitVec 32) {i : Instr} (q : w.extractLsb' 24 7 = 0x39#7) (h : decodeOp39 w = some i) :
    decodeRaw w w2 = .ok i := by
  have e : decodeBy 0x39 w w2 = (decodeOp39 w).elim (.error .field) .ok := rfl
  rw [decodeRaw, q]; exact e.trans (by rw [h]; rfl)

theorem raw3A (w w2 : BitVec 32) {i : Instr} (q : w.extractLsb' 24 7 = 0x3A#7) (h : decodeOp3A w = some i) :
    decodeRaw w w2 = .ok i := by
  have e : decodeBy 0x3A w w2 = (decodeOp3A w).elim (.error .field) .ok := rfl
  rw [decodeRaw, q]; exact e.trans (by rw [h]; rfl)

theorem raw3B (w w2 : BitVec 32) {i : Instr} (q : w.extractLsb' 24 7 = 0x3B#7) (h : decodeOp3B w = some i) :
    decodeRaw w w2 = .ok i := by
  have e : decodeBy 0x3B w w2 = (decodeOp3B w).elim (.error .field) .ok := rfl
  rw [decodeRaw, q]; exact e.trans (by rw [h]; rfl)

theorem raw3C (w w2 : BitVec 32) {i : Instr} (q : w.extractLsb' 24 7 = 0x3C#7) (h : decodeOp3C w = some i) :
    decodeRaw w w2 = .ok i := by
  have e : decodeBy 0x3C w w2 = (decodeOp3C w).elim (.error .field) .ok := rfl
  rw [decodeRaw, q]; exact e.trans (by rw [h]; rfl)

theorem raw3D (w w2 : BitVec 32) {i : Instr} (q : w.extractLsb' 24 7 = 0x3D#7) (h : decodeOp3D w = some i) :
    decodeRaw w w2 = .ok i := by
  have e : decodeBy 0x3D w w2 = (decodeOp3D w).elim (.error .field) .ok := rfl
  rw [decodeRaw, q]; exact e.trans (by rw [h]; rfl)

theorem raw3E (w w2 : BitVec 32) {i : Instr} (q : w.extractLsb' 24 7 = 0x3E#7) (h : decodeOp3E w = some i) :
    decodeRaw w w2 = .ok i := by
  have e : decodeBy 0x3E w w2 = (decodeOp3E w).elim (.error .field) .ok := rfl
  rw [decodeRaw, q]; exact e.trans (by rw [h]; rfl)

theorem raw3F (w w2 : BitVec 32) {i : Instr} (q : w.extractLsb' 24 7 = 0x3F#7) (h : decodeOp3F w = some i) :
    decodeRaw w w2 = .ok i := by
  have e : decodeBy 0x3F w w2 = (decodeOp3F w).elim (.error .field) .ok := rfl
  rw [decodeRaw, q]; exact e.trans (by rw [h]; rfl)

theorem raw40 (w w2 : BitVec 32) {i : Instr} (q : w.extractLsb' 24 7 = 0x40#7) (h : decodeOp40 w = some i) :
    decodeRaw w w2 = .ok i := by
  have e : decodeBy 0x40 w w2 = (decodeOp40 w).elim (.error .field) .ok := rfl
  rw [decodeRaw, q]; exact e.trans (by rw [h]; rfl)

theorem raw41 (w w2 : BitVec 32) {i : Instr} (q : w.extractLsb' 24 7 = 0x41#7) (h : decodeOp41 w = some i) :
    decodeRaw w w2 = .ok i := by
  have e : decodeBy 0x41 w w2 = (decodeOp41 w).elim (.error .field) .ok := rfl
  rw [decodeRaw, q]; exact e.trans (by rw [h]; rfl)

theorem raw42 (w w2 : BitVec 32) {i : Instr} (q : w.extractLsb' 24 7 = 0x42#7) (h : decodeOp42 w = some i) :
    decodeRaw w w2 = .ok i := by
  have e : decodeBy 0x42 w w2 = (decodeOp42 w).elim (.error .field) .ok := rfl
  rw [decodeRaw, q]; exact e.trans (by rw [h]; rfl)

theorem raw43 (w w2 : BitVec 32) {i : Instr} (q : w.extractLsb' 24 7 = 0x43#7) (h : decodeOp43 w = some i) :
    decodeRaw w w2 = .ok i := by
  have e : decodeBy 0x43 w w2 = (decodeOp43 w).elim (.error .field) .ok := rfl
  rw [decodeRaw, q]; exact e.trans (by rw [h]; rfl)

theorem raw44 (w w2 : BitVec 32) {i : Instr} (q : w.extractLsb' 24 7 = 0x44#7) (h : decodeOp44 w = some i) :
    decodeRaw w w2 = .ok i := by
  have e : decodeBy 0x44 w w2 = (decodeOp44 w).elim (.error .field) .ok := rfl
  rw [decodeRaw, q]; exact e.trans (by rw [h]; rfl)

theorem raw45 (w w2 : BitVec 32) {i : Instr} (q : w.extractLsb' 24 7 = 0x45#7) (h : decodeOp45 w = some i) :
    decodeRaw w w2 = .ok i := by
  have e : decodeBy 0x45 w w2 = (decodeOp45 w).elim (.error .field) .ok := rfl
  rw [decodeRaw, q]; exact e.trans (by rw [h]; rfl)

theorem raw46 (w w2 : BitVec 32) {i : Instr} (q : w.extractLsb' 24 7 = 0x46#7) (h : decodeOp46 w = some i) :
    decodeRaw w w2 = .ok i := by
  have e : decodeBy 0x46 w w2 = (decodeOp46 w).elim (.error .field) .ok := rfl
  rw [decodeRaw, q]; exact e.trans (by rw [h]; rfl)

theorem raw47 (w w2 : BitVec 32) {i : Instr} (q : w.extractLsb' 24 7 = 0x47#7) (h : decodeOp47 w = some i) :
    decodeRaw w w2 = .ok i := by
  have e : decodeBy 0x47 w w2 = (decodeOp47 w).elim (.error .field) .ok := rfl
  rw [decodeRaw, q]; exact e.trans (by rw [h]; rfl)

theorem raw50 (w w2 : BitVec 32) {i : Instr} (q : w.extractLsb' 24 7 = 0x50#7) (h : decodeOp50 w = some i) :
    decodeRaw w w2 = .ok i := by
  have e : decodeBy 0x50 w w2 = (decodeOp50 w).elim (.error .field) .ok := rfl
  rw [decodeRaw, q]; exact e.trans (by rw [h]; rfl)

theorem raw51 (w w2 : BitVec 32) {i : Instr} (q : w.extractLsb' 24 7 = 0x51#7) (h : decodeOp51 w = some i) :
    decodeRaw w w2 = .ok i := by
  have e : decodeBy 0x51 w w2 = (decodeOp51 w).elim (.error .field) .ok := rfl
  rw [decodeRaw, q]; exact e.trans (by rw [h]; rfl)

theorem raw52 (w w2 : BitVec 32) {i : Instr} (q : w.extractLsb' 24 7 = 0x52#7) (h : decodeOp52 w = some i) :
    decodeRaw w w2 = .ok i := by
  have e : decodeBy 0x52 w w2 = (decodeOp52 w).elim (.error .field) .ok := rfl
  rw [decodeRaw, q]; exact e.trans (by rw [h]; rfl)

theorem raw53 (w w2 : BitVec 32) {i : Instr} (q : w.extractLsb' 24 7 = 0x53#7) (h : decodeOp53 w = some i) :
    decodeRaw w w2 = .ok i := by
  have e : decodeBy 0x53 w w2 = (decodeOp53 w).elim (.error .field) .ok := rfl
  rw [decodeRaw, q]; exact e.trans (by rw [h]; rfl)

theorem raw54 (w w2 : BitVec 32) {i : Instr} (q : w.extractLsb' 24 7 = 0x54#7) (h : decodeOp54 w = some i) :
    decodeRaw w w2 = .ok i := by
  have e : decodeBy 0x54 w w2 = (decodeOp54 w).elim (.error .field) .ok := rfl
  rw [decodeRaw, q]; exact e.trans (by rw [h]; rfl)

theorem raw55 (w w2 : BitVec 32) {i : Instr} (q : w.extractLsb' 24 7 = 0x55#7) (h : decodeOp55 w = some i) :
    decodeRaw w w2 = .ok i := by
  have e : decodeBy 0x55 w w2 = (decodeOp55 w).elim (.error .field) .ok := rfl
  rw [decodeRaw, q]; exact e.trans (by rw [h]; rfl)

theorem raw56 (w w2 : BitVec 32) {i : Instr} (q : w.extractLsb' 24 7 = 0x56#7) (h : decodeOp56 w = some i) :
    decodeRaw w w2 = .ok i := by
  have e : decodeBy 0x56 w w2 = (decodeOp56 w).elim (.error .field) .ok := rfl
  rw [decodeRaw, q]; exact e.trans (by rw [h]; rfl)

theorem raw57 (w w2 : BitVec 32) {i : Instr} (q : w.extractLsb' 24 7 = 0x57#7) (h : decodeOp57 w = some i) :
    decodeRaw w w2 = .ok i := by
  have e : decodeBy 0x57 w w2 = (decodeOp57 w).elim (.error .field) .ok := rfl
  rw [decodeRaw, q]; exact e.trans (by rw [h]; rfl)

theorem raw58 (w w2 : BitVec 32) {i : Instr} (q : w.extractLsb' 24 7 = 0x58#7) (h : decodeOp58 w = some i) :
    decodeRaw w w2 = .ok i := by
  have e : decodeBy 0x58 w w2 = (decodeOp58 w).elim (.error .field) .ok := rfl
  rw [decodeRaw, q]; exact e.trans (by rw [h]; rfl)

theorem raw59 (w w2 : BitVec 32) {i : Instr} (q : w.extractLsb' 24 7 = 0x59#7) (h : decodeOp59 w = some i) :
    decodeRaw w w2 = .ok i := by
  have e : decodeBy 0x59 w w2 = (decodeOp59 w).elim (.error .field) .ok := rfl
  rw [decodeRaw, q]; exact e.trans (by rw [h]; rfl)

theorem raw5A (w w2 : BitVec 32) {i : Instr} (q : w.extractLsb' 24 7 = 0x5A#7) (h : decodeOp5A w = some i) :
    decodeRaw w w2 = .ok i := by
  have e : decodeBy 0x5A w w2 = (decodeOp5A w).elim (.error .field) .ok := rfl
  rw [decodeRaw, q]; exact e.trans (by rw [h]; rfl)

theorem raw5B (w w2 : BitVec 32) {i : Instr} (q : w.extractLsb' 24 7 = 0x5B#7) (h : decodeOp5B w = some i) :
    decodeRaw w w2 = .ok i := by
  have e : decodeBy 0x5B w w2 = (decodeOp5B w).elim (.error .field) .ok := rfl
  rw [decodeRaw, q]; exact e.trans (by rw [h]; rfl)

theorem raw5C (w w2 : BitVec 32) {i : Instr} (q : w.extractLsb' 24 7 = 0x5C#7) (h : decodeOp5C w = some i) :
    decodeRaw w w2 = .ok i := by
  have e : decodeBy 0x5C w w2 = (decodeOp5C w).elim (.error .field) .ok := rfl
  rw [decodeRaw, q]; exact e.trans (by rw [h]; rfl)

theorem raw5D (w w2 : BitVec 32) {i : Instr} (q : w.extractLsb' 24 7 = 0x5D#7) (h : decodeOp5D w = some i) :
    decodeRaw w w2 = .ok i := by
  have e : decodeBy 0x5D w w2 = (decodeOp5D w).elim (.error .field) .ok := rfl
  rw [decodeRaw, q]; exact e.trans (by rw [h]; rfl)

theorem raw5E (w w2 : BitVec 32) {i : Instr} (q : w.extractLsb' 24 7 = 0x5E#7) (h : decodeOp5E w = some i) :
    decodeRaw w w2 = .ok i := by
  have e : decodeBy 0x5E w w2 = (decodeOp5E w).elim (.error .field) .ok := rfl
  rw [decodeRaw, q]; exact e.trans (by rw [h]; rfl)

theorem raw5F (w w2 : BitVec 32) {i : Instr} (q : w.extractLsb' 24 7 = 0x5F#7) (h : decodeOp5F w = some i) :
    decodeRaw w w2 = .ok i := by
  have e : decodeBy 0x5F w w2 = (decodeOp5F w).elim (.error .field) .ok := rfl
  rw [decodeRaw, q]; exact e.trans (by rw [h]; rfl)

theorem raw60 (w w2 : BitVec 32) {i : Instr} (q : w.extractLsb' 24 7 = 0x60#7) (h : decodeOp60 w = some i) :
    decodeRaw w w2 = .ok i := by
  have e : decodeBy 0x60 w w2 = (decodeOp60 w).elim (.error .field) .ok := rfl
  rw [decodeRaw, q]; exact e.trans (by rw [h]; rfl)

theorem raw61 (w w2 : BitVec 32) {i : Instr} (q : w.extractLsb' 24 7 = 0x61#7) (h : decodeOp61 w = some i) :
    decodeRaw w w2 = .ok i := by
  have e : decodeBy 0x61 w w2 = (decodeOp61 w).elim (.error .field) .ok := rfl
  rw [decodeRaw, q]; exact e.trans (by rw [h]; rfl)

theorem raw62 (w w2 : BitVec 32) {i : Instr} (q : w.extractLsb' 24 7 = 0x62#7) (h : decodeOp62 w = some i) :
    decodeRaw w w2 = .ok i := by
  have e : decodeBy 0x62 w w2 = (decodeOp62 w).elim (.error .field) .ok := rfl
  rw [decodeRaw, q]; exact e.trans (by rw [h]; rfl)

theorem raw63 (w w2 : BitVec 32) {i : Instr} (q : w.extractLsb' 24 7 = 0x63#7) (h : decodeOp63 w = some i) :
    decodeRaw w w2 = .ok i := by
  have e : decodeBy 0x63 w w2 = (decodeOp63 w).elim (.error .field) .ok := rfl
  rw [decodeRaw, q]; exact e.trans (by rw [h]; rfl)

theorem raw68 (w w2 : BitVec 32) {i : Instr} (q : w.extractLsb' 24 7 = 0x68#7) (h : decodeOp68 w = some i) :
    decodeRaw w w2 = .ok i := by
  have e : decodeBy 0x68 w w2 = (decodeOp68 w).elim (.error .field) .ok := rfl
  rw [decodeRaw, q]; exact e.trans (by rw [h]; rfl)

theorem raw69 (w w2 : BitVec 32) {i : Instr} (q : w.extractLsb' 24 7 = 0x69#7) (h : decodeOp69 w = some i) :
    decodeRaw w w2 = .ok i := by
  have e : decodeBy 0x69 w w2 = (decodeOp69 w).elim (.error .field) .ok := rfl
  rw [decodeRaw, q]; exact e.trans (by rw [h]; rfl)

theorem raw6A (w w2 : BitVec 32) {i : Instr} (q : w.extractLsb' 24 7 = 0x6A#7) (h : decodeOp6A w = some i) :
    decodeRaw w w2 = .ok i := by
  have e : decodeBy 0x6A w w2 = (decodeOp6A w).elim (.error .field) .ok := rfl
  rw [decodeRaw, q]; exact e.trans (by rw [h]; rfl)

theorem raw6B (w w2 : BitVec 32) {i : Instr} (q : w.extractLsb' 24 7 = 0x6B#7) (h : decodeOp6B w = some i) :
    decodeRaw w w2 = .ok i := by
  have e : decodeBy 0x6B w w2 = (decodeOp6B w).elim (.error .field) .ok := rfl
  rw [decodeRaw, q]; exact e.trans (by rw [h]; rfl)

theorem raw6C (w w2 : BitVec 32) {i : Instr} (q : w.extractLsb' 24 7 = 0x6C#7) (h : decodeOp6C w = some i) :
    decodeRaw w w2 = .ok i := by
  have e : decodeBy 0x6C w w2 = (decodeOp6C w).elim (.error .field) .ok := rfl
  rw [decodeRaw, q]; exact e.trans (by rw [h]; rfl)

theorem raw6D (w w2 : BitVec 32) {i : Instr} (q : w.extractLsb' 24 7 = 0x6D#7) (h : decodeOp6D w = some i) :
    decodeRaw w w2 = .ok i := by
  have e : decodeBy 0x6D w w2 = (decodeOp6D w).elim (.error .field) .ok := rfl
  rw [decodeRaw, q]; exact e.trans (by rw [h]; rfl)

theorem raw70 (w w2 : BitVec 32) {i : Instr} (q : w.extractLsb' 24 7 = 0x70#7) (h : decodeOp70 w = some i) :
    decodeRaw w w2 = .ok i := by
  have e : decodeBy 0x70 w w2 = (decodeOp70 w).elim (.error .field) .ok := rfl
  rw [decodeRaw, q]; exact e.trans (by rw [h]; rfl)

theorem raw71 (w w2 : BitVec 32) {i : Instr} (q : w.extractLsb' 24 7 = 0x71#7) (h : decodeOp71 w = some i) :
    decodeRaw w w2 = .ok i := by
  have e : decodeBy 0x71 w w2 = (decodeOp71 w).elim (.error .field) .ok := rfl
  rw [decodeRaw, q]; exact e.trans (by rw [h]; rfl)

theorem raw72 (w w2 : BitVec 32) {i : Instr} (q : w.extractLsb' 24 7 = 0x72#7) (h : decodeOp72 w = some i) :
    decodeRaw w w2 = .ok i := by
  have e : decodeBy 0x72 w w2 = (decodeOp72 w).elim (.error .field) .ok := rfl
  rw [decodeRaw, q]; exact e.trans (by rw [h]; rfl)

end Sys2Proof.Laws
end

