-- ==== Sys2Proof/Laws/PerInstr.lean ====
section
/-! SUPPORT. Properties of every instruction, one lemma per constructor: RoundTrip, decoding its words gives it back (R24-R36). -/

namespace Sys2Proof.Laws
open Sys2Proof

set_option Elab.async false

/-- The words of a well-formed instruction decode to it, whatever word stands after them. -/
def RoundTrip.Statement (i : Instr) : Prop :=
  i.wf = true → ∀ ws, encode i = some ws → ∀ next : BitVec 32, decode (ws.getD 0 0) (ws.getD 1 next) = .ok i

/-- An instruction of one word. -/
theorem RoundTrip.of_word {i : Instr} (w : BitVec 32) (he : encode i = some [w])
    (hd : i.wf = true → ∀ next, decode w next = .ok i) : RoundTrip.Statement i := by
  intro hw ws h next
  obtain rfl : [w] = ws := Option.some.inj (he.symm.trans h)
  exact hd hw next

/-- An instruction followed by its step word (R33). -/
theorem RoundTrip.of_two_words {i : Instr} (w step : BitVec 32) (he : encode i = some [w, step])
    (hd : i.wf = true → decode w step = .ok i) : RoundTrip.Statement i := by
  intro hw ws h next
  obtain rfl : [w, step] = ws := Option.some.inj (he.symm.trans h)
  exact hd hw

theorem RoundTrip.add (S : Bool) (d : BitVec 5) (a : BitVec 5) (b : BitVec 5) : RoundTrip.Statement (.add S d a b) := by
  refine RoundTrip.of_word (wordOf S 0x01 (place d 19 + place a 14 + place b 9)) rfl fun hw next => ?_
  have b_d := d.isLt
  have b_a := a.isLt
  have b_b := b.isLt
  have b_S := S.toNat_le
  refine decode_of (BitVec.ofNat 32 (S.toNat * 2 ^ 31 + 0x01 * 2 ^ 24 + (place d 19 + place a 14 + place b 9))) next ?_ hw
  generalize hx : S.toNat * 2 ^ 31 + 0x01 * 2 ^ 24 + (place d 19 + place a 14 + place b 9) = x
  simp only [place] at hx
  refine raw01 _ _ (field_of x 24 7 0x01 (by omega) (by omega)) ?_
  have c_1 := field_of x 0 9 0 (by omega) (by omega)
  have f_d := field_eq x 19 5 d (by omega) (by omega)
  have f_a := field_eq x 14 5 a (by omega) (by omega)
  have f_b := field_eq x 9 5 b (by omega) (by omega)
  have f_S := top_of x S (by omega)
  simp [decodeOp01, c_1, f_d, f_a, f_b, f_S]

theorem RoundTrip.sub (S : Bool) (d : BitVec 5) (a : BitVec 5) (b : BitVec 5) : RoundTrip.Statement (.sub S d a b) := by
  refine RoundTrip.of_word (wordOf S 0x01 (place d 19 + place a 14 + place b 9 + 0x1)) rfl fun hw next => ?_
  have b_d := d.isLt
  have b_a := a.isLt
  have b_b := b.isLt
  have b_S := S.toNat_le
  refine decode_of (BitVec.ofNat 32 (S.toNat * 2 ^ 31 + 0x01 * 2 ^ 24 + (place d 19 + place a 14 + place b 9 + 0x1))) next ?_ hw
  generalize hx : S.toNat * 2 ^ 31 + 0x01 * 2 ^ 24 + (place d 19 + place a 14 + place b 9 + 0x1) = x
  simp only [place] at hx
  refine raw01 _ _ (field_of x 24 7 0x01 (by omega) (by omega)) ?_
  have c_1 := field_of x 0 9 1 (by omega) (by omega)
  have f_d := field_eq x 19 5 d (by omega) (by omega)
  have f_a := field_eq x 14 5 a (by omega) (by omega)
  have f_b := field_eq x 9 5 b (by omega) (by omega)
  have f_S := top_of x S (by omega)
  simp [decodeOp01, c_1, f_d, f_a, f_b, f_S]

theorem RoundTrip.and (S : Bool) (d : BitVec 5) (a : BitVec 5) (b : BitVec 5) : RoundTrip.Statement (.and S d a b) := by
  refine RoundTrip.of_word (wordOf S 0x01 (place d 19 + place a 14 + place b 9 + 0x2)) rfl fun hw next => ?_
  have b_d := d.isLt
  have b_a := a.isLt
  have b_b := b.isLt
  have b_S := S.toNat_le
  refine decode_of (BitVec.ofNat 32 (S.toNat * 2 ^ 31 + 0x01 * 2 ^ 24 + (place d 19 + place a 14 + place b 9 + 0x2))) next ?_ hw
  generalize hx : S.toNat * 2 ^ 31 + 0x01 * 2 ^ 24 + (place d 19 + place a 14 + place b 9 + 0x2) = x
  simp only [place] at hx
  refine raw01 _ _ (field_of x 24 7 0x01 (by omega) (by omega)) ?_
  have c_1 := field_of x 0 9 2 (by omega) (by omega)
  have f_d := field_eq x 19 5 d (by omega) (by omega)
  have f_a := field_eq x 14 5 a (by omega) (by omega)
  have f_b := field_eq x 9 5 b (by omega) (by omega)
  have f_S := top_of x S (by omega)
  simp [decodeOp01, c_1, f_d, f_a, f_b, f_S]

theorem RoundTrip.or (S : Bool) (d : BitVec 5) (a : BitVec 5) (b : BitVec 5) : RoundTrip.Statement (.or S d a b) := by
  refine RoundTrip.of_word (wordOf S 0x01 (place d 19 + place a 14 + place b 9 + 0x3)) rfl fun hw next => ?_
  have b_d := d.isLt
  have b_a := a.isLt
  have b_b := b.isLt
  have b_S := S.toNat_le
  refine decode_of (BitVec.ofNat 32 (S.toNat * 2 ^ 31 + 0x01 * 2 ^ 24 + (place d 19 + place a 14 + place b 9 + 0x3))) next ?_ hw
  generalize hx : S.toNat * 2 ^ 31 + 0x01 * 2 ^ 24 + (place d 19 + place a 14 + place b 9 + 0x3) = x
  simp only [place] at hx
  refine raw01 _ _ (field_of x 24 7 0x01 (by omega) (by omega)) ?_
  have c_1 := field_of x 0 9 3 (by omega) (by omega)
  have f_d := field_eq x 19 5 d (by omega) (by omega)
  have f_a := field_eq x 14 5 a (by omega) (by omega)
  have f_b := field_eq x 9 5 b (by omega) (by omega)
  have f_S := top_of x S (by omega)
  simp [decodeOp01, c_1, f_d, f_a, f_b, f_S]

theorem RoundTrip.xor (S : Bool) (d : BitVec 5) (a : BitVec 5) (b : BitVec 5) : RoundTrip.Statement (.xor S d a b) := by
  refine RoundTrip.of_word (wordOf S 0x01 (place d 19 + place a 14 + place b 9 + 0x4)) rfl fun hw next => ?_
  have b_d := d.isLt
  have b_a := a.isLt
  have b_b := b.isLt
  have b_S := S.toNat_le
  refine decode_of (BitVec.ofNat 32 (S.toNat * 2 ^ 31 + 0x01 * 2 ^ 24 + (place d 19 + place a 14 + place b 9 + 0x4))) next ?_ hw
  generalize hx : S.toNat * 2 ^ 31 + 0x01 * 2 ^ 24 + (place d 19 + place a 14 + place b 9 + 0x4) = x
  simp only [place] at hx
  refine raw01 _ _ (field_of x 24 7 0x01 (by omega) (by omega)) ?_
  have c_1 := field_of x 0 9 4 (by omega) (by omega)
  have f_d := field_eq x 19 5 d (by omega) (by omega)
  have f_a := field_eq x 14 5 a (by omega) (by omega)
  have f_b := field_eq x 9 5 b (by omega) (by omega)
  have f_S := top_of x S (by omega)
  simp [decodeOp01, c_1, f_d, f_a, f_b, f_S]

theorem RoundTrip.andn (S : Bool) (d : BitVec 5) (a : BitVec 5) (b : BitVec 5) : RoundTrip.Statement (.andn S d a b) := by
  refine RoundTrip.of_word (wordOf S 0x01 (place d 19 + place a 14 + place b 9 + 0x5)) rfl fun hw next => ?_
  have b_d := d.isLt
  have b_a := a.isLt
  have b_b := b.isLt
  have b_S := S.toNat_le
  refine decode_of (BitVec.ofNat 32 (S.toNat * 2 ^ 31 + 0x01 * 2 ^ 24 + (place d 19 + place a 14 + place b 9 + 0x5))) next ?_ hw
  generalize hx : S.toNat * 2 ^ 31 + 0x01 * 2 ^ 24 + (place d 19 + place a 14 + place b 9 + 0x5) = x
  simp only [place] at hx
  refine raw01 _ _ (field_of x 24 7 0x01 (by omega) (by omega)) ?_
  have c_1 := field_of x 0 9 5 (by omega) (by omega)
  have f_d := field_eq x 19 5 d (by omega) (by omega)
  have f_a := field_eq x 14 5 a (by omega) (by omega)
  have f_b := field_eq x 9 5 b (by omega) (by omega)
  have f_S := top_of x S (by omega)
  simp [decodeOp01, c_1, f_d, f_a, f_b, f_S]

theorem RoundTrip.orn (S : Bool) (d : BitVec 5) (a : BitVec 5) (b : BitVec 5) : RoundTrip.Statement (.orn S d a b) := by
  refine RoundTrip.of_word (wordOf S 0x01 (place d 19 + place a 14 + place b 9 + 0x6)) rfl fun hw next => ?_
  have b_d := d.isLt
  have b_a := a.isLt
  have b_b := b.isLt
  have b_S := S.toNat_le
  refine decode_of (BitVec.ofNat 32 (S.toNat * 2 ^ 31 + 0x01 * 2 ^ 24 + (place d 19 + place a 14 + place b 9 + 0x6))) next ?_ hw
  generalize hx : S.toNat * 2 ^ 31 + 0x01 * 2 ^ 24 + (place d 19 + place a 14 + place b 9 + 0x6) = x
  simp only [place] at hx
  refine raw01 _ _ (field_of x 24 7 0x01 (by omega) (by omega)) ?_
  have c_1 := field_of x 0 9 6 (by omega) (by omega)
  have f_d := field_eq x 19 5 d (by omega) (by omega)
  have f_a := field_eq x 14 5 a (by omega) (by omega)
  have f_b := field_eq x 9 5 b (by omega) (by omega)
  have f_S := top_of x S (by omega)
  simp [decodeOp01, c_1, f_d, f_a, f_b, f_S]

theorem RoundTrip.shl (S : Bool) (d : BitVec 5) (a : BitVec 5) (b : BitVec 5) : RoundTrip.Statement (.shl S d a b) := by
  refine RoundTrip.of_word (wordOf S 0x01 (place d 19 + place a 14 + place b 9 + 0x7)) rfl fun hw next => ?_
  have b_d := d.isLt
  have b_a := a.isLt
  have b_b := b.isLt
  have b_S := S.toNat_le
  refine decode_of (BitVec.ofNat 32 (S.toNat * 2 ^ 31 + 0x01 * 2 ^ 24 + (place d 19 + place a 14 + place b 9 + 0x7))) next ?_ hw
  generalize hx : S.toNat * 2 ^ 31 + 0x01 * 2 ^ 24 + (place d 19 + place a 14 + place b 9 + 0x7) = x
  simp only [place] at hx
  refine raw01 _ _ (field_of x 24 7 0x01 (by omega) (by omega)) ?_
  have c_1 := field_of x 0 9 7 (by omega) (by omega)
  have f_d := field_eq x 19 5 d (by omega) (by omega)
  have f_a := field_eq x 14 5 a (by omega) (by omega)
  have f_b := field_eq x 9 5 b (by omega) (by omega)
  have f_S := top_of x S (by omega)
  simp [decodeOp01, c_1, f_d, f_a, f_b, f_S]

theorem RoundTrip.shr (S : Bool) (d : BitVec 5) (a : BitVec 5) (b : BitVec 5) : RoundTrip.Statement (.shr S d a b) := by
  refine RoundTrip.of_word (wordOf S 0x01 (place d 19 + place a 14 + place b 9 + 0x8)) rfl fun hw next => ?_
  have b_d := d.isLt
  have b_a := a.isLt
  have b_b := b.isLt
  have b_S := S.toNat_le
  refine decode_of (BitVec.ofNat 32 (S.toNat * 2 ^ 31 + 0x01 * 2 ^ 24 + (place d 19 + place a 14 + place b 9 + 0x8))) next ?_ hw
  generalize hx : S.toNat * 2 ^ 31 + 0x01 * 2 ^ 24 + (place d 19 + place a 14 + place b 9 + 0x8) = x
  simp only [place] at hx
  refine raw01 _ _ (field_of x 24 7 0x01 (by omega) (by omega)) ?_
  have c_1 := field_of x 0 9 8 (by omega) (by omega)
  have f_d := field_eq x 19 5 d (by omega) (by omega)
  have f_a := field_eq x 14 5 a (by omega) (by omega)
  have f_b := field_eq x 9 5 b (by omega) (by omega)
  have f_S := top_of x S (by omega)
  simp [decodeOp01, c_1, f_d, f_a, f_b, f_S]

theorem RoundTrip.sra (S : Bool) (d : BitVec 5) (a : BitVec 5) (b : BitVec 5) : RoundTrip.Statement (.sra S d a b) := by
  refine RoundTrip.of_word (wordOf S 0x01 (place d 19 + place a 14 + place b 9 + 0x9)) rfl fun hw next => ?_
  have b_d := d.isLt
  have b_a := a.isLt
  have b_b := b.isLt
  have b_S := S.toNat_le
  refine decode_of (BitVec.ofNat 32 (S.toNat * 2 ^ 31 + 0x01 * 2 ^ 24 + (place d 19 + place a 14 + place b 9 + 0x9))) next ?_ hw
  generalize hx : S.toNat * 2 ^ 31 + 0x01 * 2 ^ 24 + (place d 19 + place a 14 + place b 9 + 0x9) = x
  simp only [place] at hx
  refine raw01 _ _ (field_of x 24 7 0x01 (by omega) (by omega)) ?_
  have c_1 := field_of x 0 9 9 (by omega) (by omega)
  have f_d := field_eq x 19 5 d (by omega) (by omega)
  have f_a := field_eq x 14 5 a (by omega) (by omega)
  have f_b := field_eq x 9 5 b (by omega) (by omega)
  have f_S := top_of x S (by omega)
  simp [decodeOp01, c_1, f_d, f_a, f_b, f_S]

theorem RoundTrip.rol (S : Bool) (d : BitVec 5) (a : BitVec 5) (b : BitVec 5) : RoundTrip.Statement (.rol S d a b) := by
  refine RoundTrip.of_word (wordOf S 0x01 (place d 19 + place a 14 + place b 9 + 0xA)) rfl fun hw next => ?_
  have b_d := d.isLt
  have b_a := a.isLt
  have b_b := b.isLt
  have b_S := S.toNat_le
  refine decode_of (BitVec.ofNat 32 (S.toNat * 2 ^ 31 + 0x01 * 2 ^ 24 + (place d 19 + place a 14 + place b 9 + 0xA))) next ?_ hw
  generalize hx : S.toNat * 2 ^ 31 + 0x01 * 2 ^ 24 + (place d 19 + place a 14 + place b 9 + 0xA) = x
  simp only [place] at hx
  refine raw01 _ _ (field_of x 24 7 0x01 (by omega) (by omega)) ?_
  have c_1 := field_of x 0 9 10 (by omega) (by omega)
  have f_d := field_eq x 19 5 d (by omega) (by omega)
  have f_a := field_eq x 14 5 a (by omega) (by omega)
  have f_b := field_eq x 9 5 b (by omega) (by omega)
  have f_S := top_of x S (by omega)
  simp [decodeOp01, c_1, f_d, f_a, f_b, f_S]

theorem RoundTrip.ror (S : Bool) (d : BitVec 5) (a : BitVec 5) (b : BitVec 5) : RoundTrip.Statement (.ror S d a b) := by
  refine RoundTrip.of_word (wordOf S 0x01 (place d 19 + place a 14 + place b 9 + 0xB)) rfl fun hw next => ?_
  have b_d := d.isLt
  have b_a := a.isLt
  have b_b := b.isLt
  have b_S := S.toNat_le
  refine decode_of (BitVec.ofNat 32 (S.toNat * 2 ^ 31 + 0x01 * 2 ^ 24 + (place d 19 + place a 14 + place b 9 + 0xB))) next ?_ hw
  generalize hx : S.toNat * 2 ^ 31 + 0x01 * 2 ^ 24 + (place d 19 + place a 14 + place b 9 + 0xB) = x
  simp only [place] at hx
  refine raw01 _ _ (field_of x 24 7 0x01 (by omega) (by omega)) ?_
  have c_1 := field_of x 0 9 11 (by omega) (by omega)
  have f_d := field_eq x 19 5 d (by omega) (by omega)
  have f_a := field_eq x 14 5 a (by omega) (by omega)
  have f_b := field_eq x 9 5 b (by omega) (by omega)
  have f_S := top_of x S (by omega)
  simp [decodeOp01, c_1, f_d, f_a, f_b, f_S]

theorem RoundTrip.slt (S : Bool) (d : BitVec 5) (a : BitVec 5) (b : BitVec 5) : RoundTrip.Statement (.slt S d a b) := by
  refine RoundTrip.of_word (wordOf S 0x01 (place d 19 + place a 14 + place b 9 + 0xC)) rfl fun hw next => ?_
  have b_d := d.isLt
  have b_a := a.isLt
  have b_b := b.isLt
  have b_S := S.toNat_le
  refine decode_of (BitVec.ofNat 32 (S.toNat * 2 ^ 31 + 0x01 * 2 ^ 24 + (place d 19 + place a 14 + place b 9 + 0xC))) next ?_ hw
  generalize hx : S.toNat * 2 ^ 31 + 0x01 * 2 ^ 24 + (place d 19 + place a 14 + place b 9 + 0xC) = x
  simp only [place] at hx
  refine raw01 _ _ (field_of x 24 7 0x01 (by omega) (by omega)) ?_
  have c_1 := field_of x 0 9 12 (by omega) (by omega)
  have f_d := field_eq x 19 5 d (by omega) (by omega)
  have f_a := field_eq x 14 5 a (by omega) (by omega)
  have f_b := field_eq x 9 5 b (by omega) (by omega)
  have f_S := top_of x S (by omega)
  simp [decodeOp01, c_1, f_d, f_a, f_b, f_S]

theorem RoundTrip.sltu (S : Bool) (d : BitVec 5) (a : BitVec 5) (b : BitVec 5) : RoundTrip.Statement (.sltu S d a b) := by
  refine RoundTrip.of_word (wordOf S 0x01 (place d 19 + place a 14 + place b 9 + 0xD)) rfl fun hw next => ?_
  have b_d := d.isLt
  have b_a := a.isLt
  have b_b := b.isLt
  have b_S := S.toNat_le
  refine decode_of (BitVec.ofNat 32 (S.toNat * 2 ^ 31 + 0x01 * 2 ^ 24 + (place d 19 + place a 14 + place b 9 + 0xD))) next ?_ hw
  generalize hx : S.toNat * 2 ^ 31 + 0x01 * 2 ^ 24 + (place d 19 + place a 14 + place b 9 + 0xD) = x
  simp only [place] at hx
  refine raw01 _ _ (field_of x 24 7 0x01 (by omega) (by omega)) ?_
  have c_1 := field_of x 0 9 13 (by omega) (by omega)
  have f_d := field_eq x 19 5 d (by omega) (by omega)
  have f_a := field_eq x 14 5 a (by omega) (by omega)
  have f_b := field_eq x 9 5 b (by omega) (by omega)
  have f_S := top_of x S (by omega)
  simp [decodeOp01, c_1, f_d, f_a, f_b, f_S]

theorem RoundTrip.seq (S : Bool) (d : BitVec 5) (a : BitVec 5) (b : BitVec 5) : RoundTrip.Statement (.seq S d a b) := by
  refine RoundTrip.of_word (wordOf S 0x01 (place d 19 + place a 14 + place b 9 + 0xE)) rfl fun hw next => ?_
  have b_d := d.isLt
  have b_a := a.isLt
  have b_b := b.isLt
  have b_S := S.toNat_le
  refine decode_of (BitVec.ofNat 32 (S.toNat * 2 ^ 31 + 0x01 * 2 ^ 24 + (place d 19 + place a 14 + place b 9 + 0xE))) next ?_ hw
  generalize hx : S.toNat * 2 ^ 31 + 0x01 * 2 ^ 24 + (place d 19 + place a 14 + place b 9 + 0xE) = x
  simp only [place] at hx
  refine raw01 _ _ (field_of x 24 7 0x01 (by omega) (by omega)) ?_
  have c_1 := field_of x 0 9 14 (by omega) (by omega)
  have f_d := field_eq x 19 5 d (by omega) (by omega)
  have f_a := field_eq x 14 5 a (by omega) (by omega)
  have f_b := field_eq x 9 5 b (by omega) (by omega)
  have f_S := top_of x S (by omega)
  simp [decodeOp01, c_1, f_d, f_a, f_b, f_S]

theorem RoundTrip.sne (S : Bool) (d : BitVec 5) (a : BitVec 5) (b : BitVec 5) : RoundTrip.Statement (.sne S d a b) := by
  refine RoundTrip.of_word (wordOf S 0x01 (place d 19 + place a 14 + place b 9 + 0xF)) rfl fun hw next => ?_
  have b_d := d.isLt
  have b_a := a.isLt
  have b_b := b.isLt
  have b_S := S.toNat_le
  refine decode_of (BitVec.ofNat 32 (S.toNat * 2 ^ 31 + 0x01 * 2 ^ 24 + (place d 19 + place a 14 + place b 9 + 0xF))) next ?_ hw
  generalize hx : S.toNat * 2 ^ 31 + 0x01 * 2 ^ 24 + (place d 19 + place a 14 + place b 9 + 0xF) = x
  simp only [place] at hx
  refine raw01 _ _ (field_of x 24 7 0x01 (by omega) (by omega)) ?_
  have c_1 := field_of x 0 9 15 (by omega) (by omega)
  have f_d := field_eq x 19 5 d (by omega) (by omega)
  have f_a := field_eq x 14 5 a (by omega) (by omega)
  have f_b := field_eq x 9 5 b (by omega) (by omega)
  have f_S := top_of x S (by omega)
  simp [decodeOp01, c_1, f_d, f_a, f_b, f_S]

theorem RoundTrip.min (S : Bool) (d : BitVec 5) (a : BitVec 5) (b : BitVec 5) : RoundTrip.Statement (.min S d a b) := by
  refine RoundTrip.of_word (wordOf S 0x01 (place d 19 + place a 14 + place b 9 + 0x10)) rfl fun hw next => ?_
  have b_d := d.isLt
  have b_a := a.isLt
  have b_b := b.isLt
  have b_S := S.toNat_le
  refine decode_of (BitVec.ofNat 32 (S.toNat * 2 ^ 31 + 0x01 * 2 ^ 24 + (place d 19 + place a 14 + place b 9 + 0x10))) next ?_ hw
  generalize hx : S.toNat * 2 ^ 31 + 0x01 * 2 ^ 24 + (place d 19 + place a 14 + place b 9 + 0x10) = x
  simp only [place] at hx
  refine raw01 _ _ (field_of x 24 7 0x01 (by omega) (by omega)) ?_
  have c_1 := field_of x 0 9 16 (by omega) (by omega)
  have f_d := field_eq x 19 5 d (by omega) (by omega)
  have f_a := field_eq x 14 5 a (by omega) (by omega)
  have f_b := field_eq x 9 5 b (by omega) (by omega)
  have f_S := top_of x S (by omega)
  simp [decodeOp01, c_1, f_d, f_a, f_b, f_S]

theorem RoundTrip.max (S : Bool) (d : BitVec 5) (a : BitVec 5) (b : BitVec 5) : RoundTrip.Statement (.max S d a b) := by
  refine RoundTrip.of_word (wordOf S 0x01 (place d 19 + place a 14 + place b 9 + 0x11)) rfl fun hw next => ?_
  have b_d := d.isLt
  have b_a := a.isLt
  have b_b := b.isLt
  have b_S := S.toNat_le
  refine decode_of (BitVec.ofNat 32 (S.toNat * 2 ^ 31 + 0x01 * 2 ^ 24 + (place d 19 + place a 14 + place b 9 + 0x11))) next ?_ hw
  generalize hx : S.toNat * 2 ^ 31 + 0x01 * 2 ^ 24 + (place d 19 + place a 14 + place b 9 + 0x11) = x
  simp only [place] at hx
  refine raw01 _ _ (field_of x 24 7 0x01 (by omega) (by omega)) ?_
  have c_1 := field_of x 0 9 17 (by omega) (by omega)
  have f_d := field_eq x 19 5 d (by omega) (by omega)
  have f_a := field_eq x 14 5 a (by omega) (by omega)
  have f_b := field_eq x 9 5 b (by omega) (by omega)
  have f_S := top_of x S (by omega)
  simp [decodeOp01, c_1, f_d, f_a, f_b, f_S]

theorem RoundTrip.minu (S : Bool) (d : BitVec 5) (a : BitVec 5) (b : BitVec 5) : RoundTrip.Statement (.minu S d a b) := by
  refine RoundTrip.of_word (wordOf S 0x01 (place d 19 + place a 14 + place b 9 + 0x12)) rfl fun hw next => ?_
  have b_d := d.isLt
  have b_a := a.isLt
  have b_b := b.isLt
  have b_S := S.toNat_le
  refine decode_of (BitVec.ofNat 32 (S.toNat * 2 ^ 31 + 0x01 * 2 ^ 24 + (place d 19 + place a 14 + place b 9 + 0x12))) next ?_ hw
  generalize hx : S.toNat * 2 ^ 31 + 0x01 * 2 ^ 24 + (place d 19 + place a 14 + place b 9 + 0x12) = x
  simp only [place] at hx
  refine raw01 _ _ (field_of x 24 7 0x01 (by omega) (by omega)) ?_
  have c_1 := field_of x 0 9 18 (by omega) (by omega)
  have f_d := field_eq x 19 5 d (by omega) (by omega)
  have f_a := field_eq x 14 5 a (by omega) (by omega)
  have f_b := field_eq x 9 5 b (by omega) (by omega)
  have f_S := top_of x S (by omega)
  simp [decodeOp01, c_1, f_d, f_a, f_b, f_S]

theorem RoundTrip.maxu (S : Bool) (d : BitVec 5) (a : BitVec 5) (b : BitVec 5) : RoundTrip.Statement (.maxu S d a b) := by
  refine RoundTrip.of_word (wordOf S 0x01 (place d 19 + place a 14 + place b 9 + 0x13)) rfl fun hw next => ?_
  have b_d := d.isLt
  have b_a := a.isLt
  have b_b := b.isLt
  have b_S := S.toNat_le
  refine decode_of (BitVec.ofNat 32 (S.toNat * 2 ^ 31 + 0x01 * 2 ^ 24 + (place d 19 + place a 14 + place b 9 + 0x13))) next ?_ hw
  generalize hx : S.toNat * 2 ^ 31 + 0x01 * 2 ^ 24 + (place d 19 + place a 14 + place b 9 + 0x13) = x
  simp only [place] at hx
  refine raw01 _ _ (field_of x 24 7 0x01 (by omega) (by omega)) ?_
  have c_1 := field_of x 0 9 19 (by omega) (by omega)
  have f_d := field_eq x 19 5 d (by omega) (by omega)
  have f_a := field_eq x 14 5 a (by omega) (by omega)
  have f_b := field_eq x 9 5 b (by omega) (by omega)
  have f_S := top_of x S (by omega)
  simp [decodeOp01, c_1, f_d, f_a, f_b, f_S]

theorem RoundTrip.clz (S : Bool) (d : BitVec 5) (a : BitVec 5) : RoundTrip.Statement (.clz S d a) := by
  refine RoundTrip.of_word (wordOf S 0x01 (place d 19 + place a 14 + 0x14)) rfl fun hw next => ?_
  have b_d := d.isLt
  have b_a := a.isLt
  have b_S := S.toNat_le
  refine decode_of (BitVec.ofNat 32 (S.toNat * 2 ^ 31 + 0x01 * 2 ^ 24 + (place d 19 + place a 14 + 0x14))) next ?_ hw
  generalize hx : S.toNat * 2 ^ 31 + 0x01 * 2 ^ 24 + (place d 19 + place a 14 + 0x14) = x
  simp only [place] at hx
  refine raw01 _ _ (field_of x 24 7 0x01 (by omega) (by omega)) ?_
  have c_1 := field_of x 0 9 20 (by omega) (by omega)
  have c_2 := field_of x 9 5 0 (by omega) (by omega)
  have f_d := field_eq x 19 5 d (by omega) (by omega)
  have f_a := field_eq x 14 5 a (by omega) (by omega)
  have f_S := top_of x S (by omega)
  simp [decodeOp01, c_1, c_2, f_d, f_a, f_S]

theorem RoundTrip.ctz (S : Bool) (d : BitVec 5) (a : BitVec 5) : RoundTrip.Statement (.ctz S d a) := by
  refine RoundTrip.of_word (wordOf S 0x01 (place d 19 + place a 14 + 0x15)) rfl fun hw next => ?_
  have b_d := d.isLt
  have b_a := a.isLt
  have b_S := S.toNat_le
  refine decode_of (BitVec.ofNat 32 (S.toNat * 2 ^ 31 + 0x01 * 2 ^ 24 + (place d 19 + place a 14 + 0x15))) next ?_ hw
  generalize hx : S.toNat * 2 ^ 31 + 0x01 * 2 ^ 24 + (place d 19 + place a 14 + 0x15) = x
  simp only [place] at hx
  refine raw01 _ _ (field_of x 24 7 0x01 (by omega) (by omega)) ?_
  have c_1 := field_of x 0 9 21 (by omega) (by omega)
  have c_2 := field_of x 9 5 0 (by omega) (by omega)
  have f_d := field_eq x 19 5 d (by omega) (by omega)
  have f_a := field_eq x 14 5 a (by omega) (by omega)
  have f_S := top_of x S (by omega)
  simp [decodeOp01, c_1, c_2, f_d, f_a, f_S]

theorem RoundTrip.popc (S : Bool) (d : BitVec 5) (a : BitVec 5) : RoundTrip.Statement (.popc S d a) := by
  refine RoundTrip.of_word (wordOf S 0x01 (place d 19 + place a 14 + 0x16)) rfl fun hw next => ?_
  have b_d := d.isLt
  have b_a := a.isLt
  have b_S := S.toNat_le
  refine decode_of (BitVec.ofNat 32 (S.toNat * 2 ^ 31 + 0x01 * 2 ^ 24 + (place d 19 + place a 14 + 0x16))) next ?_ hw
  generalize hx : S.toNat * 2 ^ 31 + 0x01 * 2 ^ 24 + (place d 19 + place a 14 + 0x16) = x
  simp only [place] at hx
  refine raw01 _ _ (field_of x 24 7 0x01 (by omega) (by omega)) ?_
  have c_1 := field_of x 0 9 22 (by omega) (by omega)
  have c_2 := field_of x 9 5 0 (by omega) (by omega)
  have f_d := field_eq x 19 5 d (by omega) (by omega)
  have f_a := field_eq x 14 5 a (by omega) (by omega)
  have f_S := top_of x S (by omega)
  simp [decodeOp01, c_1, c_2, f_d, f_a, f_S]

theorem RoundTrip.bswap (S : Bool) (d : BitVec 5) (a : BitVec 5) : RoundTrip.Statement (.bswap S d a) := by
  refine RoundTrip.of_word (wordOf S 0x01 (place d 19 + place a 14 + 0x17)) rfl fun hw next => ?_
  have b_d := d.isLt
  have b_a := a.isLt
  have b_S := S.toNat_le
  refine decode_of (BitVec.ofNat 32 (S.toNat * 2 ^ 31 + 0x01 * 2 ^ 24 + (place d 19 + place a 14 + 0x17))) next ?_ hw
  generalize hx : S.toNat * 2 ^ 31 + 0x01 * 2 ^ 24 + (place d 19 + place a 14 + 0x17) = x
  simp only [place] at hx
  refine raw01 _ _ (field_of x 24 7 0x01 (by omega) (by omega)) ?_
  have c_1 := field_of x 0 9 23 (by omega) (by omega)
  have c_2 := field_of x 9 5 0 (by omega) (by omega)
  have f_d := field_eq x 19 5 d (by omega) (by omega)
  have f_a := field_eq x 14 5 a (by omega) (by omega)
  have f_S := top_of x S (by omega)
  simp [decodeOp01, c_1, c_2, f_d, f_a, f_S]

theorem RoundTrip.sextB (S : Bool) (d : BitVec 5) (a : BitVec 5) : RoundTrip.Statement (.sextB S d a) := by
  refine RoundTrip.of_word (wordOf S 0x01 (place d 19 + place a 14 + 0x18)) rfl fun hw next => ?_
  have b_d := d.isLt
  have b_a := a.isLt
  have b_S := S.toNat_le
  refine decode_of (BitVec.ofNat 32 (S.toNat * 2 ^ 31 + 0x01 * 2 ^ 24 + (place d 19 + place a 14 + 0x18))) next ?_ hw
  generalize hx : S.toNat * 2 ^ 31 + 0x01 * 2 ^ 24 + (place d 19 + place a 14 + 0x18) = x
  simp only [place] at hx
  refine raw01 _ _ (field_of x 24 7 0x01 (by omega) (by omega)) ?_
  have c_1 := field_of x 0 9 24 (by omega) (by omega)
  have c_2 := field_of x 9 5 0 (by omega) (by omega)
  have f_d := field_eq x 19 5 d (by omega) (by omega)
  have f_a := field_eq x 14 5 a (by omega) (by omega)
  have f_S := top_of x S (by omega)
  simp [decodeOp01, c_1, c_2, f_d, f_a, f_S]

theorem RoundTrip.sextH (S : Bool) (d : BitVec 5) (a : BitVec 5) : RoundTrip.Statement (.sextH S d a) := by
  refine RoundTrip.of_word (wordOf S 0x01 (place d 19 + place a 14 + 0x19)) rfl fun hw next => ?_
  have b_d := d.isLt
  have b_a := a.isLt
  have b_S := S.toNat_le
  refine decode_of (BitVec.ofNat 32 (S.toNat * 2 ^ 31 + 0x01 * 2 ^ 24 + (place d 19 + place a 14 + 0x19))) next ?_ hw
  generalize hx : S.toNat * 2 ^ 31 + 0x01 * 2 ^ 24 + (place d 19 + place a 14 + 0x19) = x
  simp only [place] at hx
  refine raw01 _ _ (field_of x 24 7 0x01 (by omega) (by omega)) ?_
  have c_1 := field_of x 0 9 25 (by omega) (by omega)
  have c_2 := field_of x 9 5 0 (by omega) (by omega)
  have f_d := field_eq x 19 5 d (by omega) (by omega)
  have f_a := field_eq x 14 5 a (by omega) (by omega)
  have f_S := top_of x S (by omega)
  simp [decodeOp01, c_1, c_2, f_d, f_a, f_S]

theorem RoundTrip.sextW (S : Bool) (d : BitVec 5) (a : BitVec 5) : RoundTrip.Statement (.sextW S d a) := by
  refine RoundTrip.of_word (wordOf S 0x01 (place d 19 + place a 14 + 0x1A)) rfl fun hw next => ?_
  have b_d := d.isLt
  have b_a := a.isLt
  have b_S := S.toNat_le
  refine decode_of (BitVec.ofNat 32 (S.toNat * 2 ^ 31 + 0x01 * 2 ^ 24 + (place d 19 + place a 14 + 0x1A))) next ?_ hw
  generalize hx : S.toNat * 2 ^ 31 + 0x01 * 2 ^ 24 + (place d 19 + place a 14 + 0x1A) = x
  simp only [place] at hx
  refine raw01 _ _ (field_of x 24 7 0x01 (by omega) (by omega)) ?_
  have c_1 := field_of x 0 9 26 (by omega) (by omega)
  have c_2 := field_of x 9 5 0 (by omega) (by omega)
  have f_d := field_eq x 19 5 d (by omega) (by omega)
  have f_a := field_eq x 14 5 a (by omega) (by omega)
  have f_S := top_of x S (by omega)
  simp [decodeOp01, c_1, c_2, f_d, f_a, f_S]

theorem RoundTrip.zextB (S : Bool) (d : BitVec 5) (a : BitVec 5) : RoundTrip.Statement (.zextB S d a) := by
  refine RoundTrip.of_word (wordOf S 0x01 (place d 19 + place a 14 + 0x1B)) rfl fun hw next => ?_
  have b_d := d.isLt
  have b_a := a.isLt
  have b_S := S.toNat_le
  refine decode_of (BitVec.ofNat 32 (S.toNat * 2 ^ 31 + 0x01 * 2 ^ 24 + (place d 19 + place a 14 + 0x1B))) next ?_ hw
  generalize hx : S.toNat * 2 ^ 31 + 0x01 * 2 ^ 24 + (place d 19 + place a 14 + 0x1B) = x
  simp only [place] at hx
  refine raw01 _ _ (field_of x 24 7 0x01 (by omega) (by omega)) ?_
  have c_1 := field_of x 0 9 27 (by omega) (by omega)
  have c_2 := field_of x 9 5 0 (by omega) (by omega)
  have f_d := field_eq x 19 5 d (by omega) (by omega)
  have f_a := field_eq x 14 5 a (by omega) (by omega)
  have f_S := top_of x S (by omega)
  simp [decodeOp01, c_1, c_2, f_d, f_a, f_S]

theorem RoundTrip.zextH (S : Bool) (d : BitVec 5) (a : BitVec 5) : RoundTrip.Statement (.zextH S d a) := by
  refine RoundTrip.of_word (wordOf S 0x01 (place d 19 + place a 14 + 0x1C)) rfl fun hw next => ?_
  have b_d := d.isLt
  have b_a := a.isLt
  have b_S := S.toNat_le
  refine decode_of (BitVec.ofNat 32 (S.toNat * 2 ^ 31 + 0x01 * 2 ^ 24 + (place d 19 + place a 14 + 0x1C))) next ?_ hw
  generalize hx : S.toNat * 2 ^ 31 + 0x01 * 2 ^ 24 + (place d 19 + place a 14 + 0x1C) = x
  simp only [place] at hx
  refine raw01 _ _ (field_of x 24 7 0x01 (by omega) (by omega)) ?_
  have c_1 := field_of x 0 9 28 (by omega) (by omega)
  have c_2 := field_of x 9 5 0 (by omega) (by omega)
  have f_d := field_eq x 19 5 d (by omega) (by omega)
  have f_a := field_eq x 14 5 a (by omega) (by omega)
  have f_S := top_of x S (by omega)
  simp [decodeOp01, c_1, c_2, f_d, f_a, f_S]

theorem RoundTrip.zextW (S : Bool) (d : BitVec 5) (a : BitVec 5) : RoundTrip.Statement (.zextW S d a) := by
  refine RoundTrip.of_word (wordOf S 0x01 (place d 19 + place a 14 + 0x1D)) rfl fun hw next => ?_
  have b_d := d.isLt
  have b_a := a.isLt
  have b_S := S.toNat_le
  refine decode_of (BitVec.ofNat 32 (S.toNat * 2 ^ 31 + 0x01 * 2 ^ 24 + (place d 19 + place a 14 + 0x1D))) next ?_ hw
  generalize hx : S.toNat * 2 ^ 31 + 0x01 * 2 ^ 24 + (place d 19 + place a 14 + 0x1D) = x
  simp only [place] at hx
  refine raw01 _ _ (field_of x 24 7 0x01 (by omega) (by omega)) ?_
  have c_1 := field_of x 0 9 29 (by omega) (by omega)
  have c_2 := field_of x 9 5 0 (by omega) (by omega)
  have f_d := field_eq x 19 5 d (by omega) (by omega)
  have f_a := field_eq x 14 5 a (by omega) (by omega)
  have f_S := top_of x S (by omega)
  simp [decodeOp01, c_1, c_2, f_d, f_a, f_S]

theorem RoundTrip.mul (S : Bool) (d : BitVec 5) (a : BitVec 5) (b : BitVec 5) : RoundTrip.Statement (.mul S d a b) := by
  refine RoundTrip.of_word (wordOf S 0x02 (place d 19 + place a 14 + place b 9)) rfl fun hw next => ?_
  have b_d := d.isLt
  have b_a := a.isLt
  have b_b := b.isLt
  have b_S := S.toNat_le
  refine decode_of (BitVec.ofNat 32 (S.toNat * 2 ^ 31 + 0x02 * 2 ^ 24 + (place d 19 + place a 14 + place b 9))) next ?_ hw
  generalize hx : S.toNat * 2 ^ 31 + 0x02 * 2 ^ 24 + (place d 19 + place a 14 + place b 9) = x
  simp only [place] at hx
  refine raw02 _ _ (field_of x 24 7 0x02 (by omega) (by omega)) ?_
  have c_1 := field_of x 0 9 0 (by omega) (by omega)
  have f_d := field_eq x 19 5 d (by omega) (by omega)
  have f_a := field_eq x 14 5 a (by omega) (by omega)
  have f_b := field_eq x 9 5 b (by omega) (by omega)
  have f_S := top_of x S (by omega)
  simp [decodeOp02, c_1, f_d, f_a, f_b, f_S]

theorem RoundTrip.mulh (S : Bool) (d : BitVec 5) (a : BitVec 5) (b : BitVec 5) : RoundTrip.Statement (.mulh S d a b) := by
  refine RoundTrip.of_word (wordOf S 0x02 (place d 19 + place a 14 + place b 9 + 0x1)) rfl fun hw next => ?_
  have b_d := d.isLt
  have b_a := a.isLt
  have b_b := b.isLt
  have b_S := S.toNat_le
  refine decode_of (BitVec.ofNat 32 (S.toNat * 2 ^ 31 + 0x02 * 2 ^ 24 + (place d 19 + place a 14 + place b 9 + 0x1))) next ?_ hw
  generalize hx : S.toNat * 2 ^ 31 + 0x02 * 2 ^ 24 + (place d 19 + place a 14 + place b 9 + 0x1) = x
  simp only [place] at hx
  refine raw02 _ _ (field_of x 24 7 0x02 (by omega) (by omega)) ?_
  have c_1 := field_of x 0 9 1 (by omega) (by omega)
  have f_d := field_eq x 19 5 d (by omega) (by omega)
  have f_a := field_eq x 14 5 a (by omega) (by omega)
  have f_b := field_eq x 9 5 b (by omega) (by omega)
  have f_S := top_of x S (by omega)
  simp [decodeOp02, c_1, f_d, f_a, f_b, f_S]

theorem RoundTrip.mulhu (S : Bool) (d : BitVec 5) (a : BitVec 5) (b : BitVec 5) : RoundTrip.Statement (.mulhu S d a b) := by
  refine RoundTrip.of_word (wordOf S 0x02 (place d 19 + place a 14 + place b 9 + 0x2)) rfl fun hw next => ?_
  have b_d := d.isLt
  have b_a := a.isLt
  have b_b := b.isLt
  have b_S := S.toNat_le
  refine decode_of (BitVec.ofNat 32 (S.toNat * 2 ^ 31 + 0x02 * 2 ^ 24 + (place d 19 + place a 14 + place b 9 + 0x2))) next ?_ hw
  generalize hx : S.toNat * 2 ^ 31 + 0x02 * 2 ^ 24 + (place d 19 + place a 14 + place b 9 + 0x2) = x
  simp only [place] at hx
  refine raw02 _ _ (field_of x 24 7 0x02 (by omega) (by omega)) ?_
  have c_1 := field_of x 0 9 2 (by omega) (by omega)
  have f_d := field_eq x 19 5 d (by omega) (by omega)
  have f_a := field_eq x 14 5 a (by omega) (by omega)
  have f_b := field_eq x 9 5 b (by omega) (by omega)
  have f_S := top_of x S (by omega)
  simp [decodeOp02, c_1, f_d, f_a, f_b, f_S]

theorem RoundTrip.div (S : Bool) (d : BitVec 5) (a : BitVec 5) (b : BitVec 5) : RoundTrip.Statement (.div S d a b) := by
  refine RoundTrip.of_word (wordOf S 0x02 (place d 19 + place a 14 + place b 9 + 0x3)) rfl fun hw next => ?_
  have b_d := d.isLt
  have b_a := a.isLt
  have b_b := b.isLt
  have b_S := S.toNat_le
  refine decode_of (BitVec.ofNat 32 (S.toNat * 2 ^ 31 + 0x02 * 2 ^ 24 + (place d 19 + place a 14 + place b 9 + 0x3))) next ?_ hw
  generalize hx : S.toNat * 2 ^ 31 + 0x02 * 2 ^ 24 + (place d 19 + place a 14 + place b 9 + 0x3) = x
  simp only [place] at hx
  refine raw02 _ _ (field_of x 24 7 0x02 (by omega) (by omega)) ?_
  have c_1 := field_of x 0 9 3 (by omega) (by omega)
  have f_d := field_eq x 19 5 d (by omega) (by omega)
  have f_a := field_eq x 14 5 a (by omega) (by omega)
  have f_b := field_eq x 9 5 b (by omega) (by omega)
  have f_S := top_of x S (by omega)
  simp [decodeOp02, c_1, f_d, f_a, f_b, f_S]

theorem RoundTrip.divu (S : Bool) (d : BitVec 5) (a : BitVec 5) (b : BitVec 5) : RoundTrip.Statement (.divu S d a b) := by
  refine RoundTrip.of_word (wordOf S 0x02 (place d 19 + place a 14 + place b 9 + 0x4)) rfl fun hw next => ?_
  have b_d := d.isLt
  have b_a := a.isLt
  have b_b := b.isLt
  have b_S := S.toNat_le
  refine decode_of (BitVec.ofNat 32 (S.toNat * 2 ^ 31 + 0x02 * 2 ^ 24 + (place d 19 + place a 14 + place b 9 + 0x4))) next ?_ hw
  generalize hx : S.toNat * 2 ^ 31 + 0x02 * 2 ^ 24 + (place d 19 + place a 14 + place b 9 + 0x4) = x
  simp only [place] at hx
  refine raw02 _ _ (field_of x 24 7 0x02 (by omega) (by omega)) ?_
  have c_1 := field_of x 0 9 4 (by omega) (by omega)
  have f_d := field_eq x 19 5 d (by omega) (by omega)
  have f_a := field_eq x 14 5 a (by omega) (by omega)
  have f_b := field_eq x 9 5 b (by omega) (by omega)
  have f_S := top_of x S (by omega)
  simp [decodeOp02, c_1, f_d, f_a, f_b, f_S]

theorem RoundTrip.rem (S : Bool) (d : BitVec 5) (a : BitVec 5) (b : BitVec 5) : RoundTrip.Statement (.rem S d a b) := by
  refine RoundTrip.of_word (wordOf S 0x02 (place d 19 + place a 14 + place b 9 + 0x5)) rfl fun hw next => ?_
  have b_d := d.isLt
  have b_a := a.isLt
  have b_b := b.isLt
  have b_S := S.toNat_le
  refine decode_of (BitVec.ofNat 32 (S.toNat * 2 ^ 31 + 0x02 * 2 ^ 24 + (place d 19 + place a 14 + place b 9 + 0x5))) next ?_ hw
  generalize hx : S.toNat * 2 ^ 31 + 0x02 * 2 ^ 24 + (place d 19 + place a 14 + place b 9 + 0x5) = x
  simp only [place] at hx
  refine raw02 _ _ (field_of x 24 7 0x02 (by omega) (by omega)) ?_
  have c_1 := field_of x 0 9 5 (by omega) (by omega)
  have f_d := field_eq x 19 5 d (by omega) (by omega)
  have f_a := field_eq x 14 5 a (by omega) (by omega)
  have f_b := field_eq x 9 5 b (by omega) (by omega)
  have f_S := top_of x S (by omega)
  simp [decodeOp02, c_1, f_d, f_a, f_b, f_S]

theorem RoundTrip.remu (S : Bool) (d : BitVec 5) (a : BitVec 5) (b : BitVec 5) : RoundTrip.Statement (.remu S d a b) := by
  refine RoundTrip.of_word (wordOf S 0x02 (place d 19 + place a 14 + place b 9 + 0x6)) rfl fun hw next => ?_
  have b_d := d.isLt
  have b_a := a.isLt
  have b_b := b.isLt
  have b_S := S.toNat_le
  refine decode_of (BitVec.ofNat 32 (S.toNat * 2 ^ 31 + 0x02 * 2 ^ 24 + (place d 19 + place a 14 + place b 9 + 0x6))) next ?_ hw
  generalize hx : S.toNat * 2 ^ 31 + 0x02 * 2 ^ 24 + (place d 19 + place a 14 + place b 9 + 0x6) = x
  simp only [place] at hx
  refine raw02 _ _ (field_of x 24 7 0x02 (by omega) (by omega)) ?_
  have c_1 := field_of x 0 9 6 (by omega) (by omega)
  have f_d := field_eq x 19 5 d (by omega) (by omega)
  have f_a := field_eq x 14 5 a (by omega) (by omega)
  have f_b := field_eq x 9 5 b (by omega) (by omega)
  have f_S := top_of x S (by omega)
  simp [decodeOp02, c_1, f_d, f_a, f_b, f_S]

theorem RoundTrip.csel (S : Bool) (d : BitVec 5) (a : BitVec 5) (b : BitVec 5) (c : BitVec 5) (n : BitVec 4) : RoundTrip.Statement (.csel S d a b c n) := by
  refine RoundTrip.of_word (wordOf S 0x03 (place d 19 + place a 14 + place b 9 + place c 4 + place n 0)) rfl fun hw next => ?_
  have b_d := d.isLt
  have b_a := a.isLt
  have b_b := b.isLt
  have b_c := c.isLt
  have b_n := n.isLt
  have b_S := S.toNat_le
  refine decode_of (BitVec.ofNat 32 (S.toNat * 2 ^ 31 + 0x03 * 2 ^ 24 + (place d 19 + place a 14 + place b 9 + place c 4 + place n 0))) next ?_ hw
  generalize hx : S.toNat * 2 ^ 31 + 0x03 * 2 ^ 24 + (place d 19 + place a 14 + place b 9 + place c 4 + place n 0) = x
  simp only [place] at hx
  refine raw03 _ _ (field_of x 24 7 0x03 (by omega) (by omega)) ?_
  have f_d := field_eq x 19 5 d (by omega) (by omega)
  have f_a := field_eq x 14 5 a (by omega) (by omega)
  have f_b := field_eq x 9 5 b (by omega) (by omega)
  have f_c := field_eq x 4 5 c (by omega) (by omega)
  have f_n := field_eq x 0 4 n (by omega) (by omega)
  have f_S := top_of x S (by omega)
  simp [decodeOp03, f_d, f_a, f_b, f_c, f_n, f_S]

theorem RoundTrip.bfx (S : Bool) (d : BitVec 5) (a : BitVec 5) (l : BitVec 6) (w : BitVec 7) : RoundTrip.Statement (.bfx S d a l w) := by
  refine RoundTrip.of_word (wordOf S 0x04 (place d 19 + place a 14 + place l 8 + place w 0)) rfl fun hw next => ?_
  have b_d := d.isLt
  have b_a := a.isLt
  have b_l := l.isLt
  have b_w := w.isLt
  have b_S := S.toNat_le
  refine decode_of (BitVec.ofNat 32 (S.toNat * 2 ^ 31 + 0x04 * 2 ^ 24 + (place d 19 + place a 14 + place l 8 + place w 0))) next ?_ hw
  generalize hx : S.toNat * 2 ^ 31 + 0x04 * 2 ^ 24 + (place d 19 + place a 14 + place l 8 + place w 0) = x
  simp only [place] at hx
  refine raw04 _ _ (field_of x 24 7 0x04 (by omega) (by omega)) ?_
  have c_1 := field_of x 7 1 0 (by omega) (by omega)
  have f_d := field_eq x 19 5 d (by omega) (by omega)
  have f_a := field_eq x 14 5 a (by omega) (by omega)
  have f_l := field_eq x 8 6 l (by omega) (by omega)
  have f_w := field_eq x 0 7 w (by omega) (by omega)
  have f_S := top_of x S (by omega)
  simp [decodeOp04, c_1, f_d, f_a, f_l, f_w, f_S]

theorem RoundTrip.bfxz (S : Bool) (d : BitVec 5) (a : BitVec 5) (l : BitVec 6) (w : BitVec 7) : RoundTrip.Statement (.bfxz S d a l w) := by
  refine RoundTrip.of_word (wordOf S 0x05 (place d 19 + place a 14 + place l 8 + place w 0)) rfl fun hw next => ?_
  have b_d := d.isLt
  have b_a := a.isLt
  have b_l := l.isLt
  have b_w := w.isLt
  have b_S := S.toNat_le
  refine decode_of (BitVec.ofNat 32 (S.toNat * 2 ^ 31 + 0x05 * 2 ^ 24 + (place d 19 + place a 14 + place l 8 + place w 0))) next ?_ hw
  generalize hx : S.toNat * 2 ^ 31 + 0x05 * 2 ^ 24 + (place d 19 + place a 14 + place l 8 + place w 0) = x
  simp only [place] at hx
  refine raw05 _ _ (field_of x 24 7 0x05 (by omega) (by omega)) ?_
  have c_1 := field_of x 7 1 0 (by omega) (by omega)
  have f_d := field_eq x 19 5 d (by omega) (by omega)
  have f_a := field_eq x 14 5 a (by omega) (by omega)
  have f_l := field_eq x 8 6 l (by omega) (by omega)
  have f_w := field_eq x 0 7 w (by omega) (by omega)
  have f_S := top_of x S (by omega)
  simp [decodeOp05, c_1, f_d, f_a, f_l, f_w, f_S]

theorem RoundTrip.bins (S : Bool) (d : BitVec 5) (a : BitVec 5) (l : BitVec 6) (w : BitVec 7) : RoundTrip.Statement (.bins S d a l w) := by
  refine RoundTrip.of_word (wordOf S 0x06 (place d 19 + place a 14 + place l 8 + place w 0)) rfl fun hw next => ?_
  have b_d := d.isLt
  have b_a := a.isLt
  have b_l := l.isLt
  have b_w := w.isLt
  have b_S := S.toNat_le
  refine decode_of (BitVec.ofNat 32 (S.toNat * 2 ^ 31 + 0x06 * 2 ^ 24 + (place d 19 + place a 14 + place l 8 + place w 0))) next ?_ hw
  generalize hx : S.toNat * 2 ^ 31 + 0x06 * 2 ^ 24 + (place d 19 + place a 14 + place l 8 + place w 0) = x
  simp only [place] at hx
  refine raw06 _ _ (field_of x 24 7 0x06 (by omega) (by omega)) ?_
  have c_1 := field_of x 7 1 0 (by omega) (by omega)
  have f_d := field_eq x 19 5 d (by omega) (by omega)
  have f_a := field_eq x 14 5 a (by omega) (by omega)
  have f_l := field_eq x 8 6 l (by omega) (by omega)
  have f_w := field_eq x 0 7 w (by omega) (by omega)
  have f_S := top_of x S (by omega)
  simp [decodeOp06, c_1, f_d, f_a, f_l, f_w, f_S]

theorem RoundTrip.addi (S : Bool) (d : BitVec 5) (a : BitVec 5) (i : BitVec 14) : RoundTrip.Statement (.addi S d a i) := by
  refine RoundTrip.of_word (wordOf S 0x08 (place d 19 + place a 14 + place i 0)) rfl fun hw next => ?_
  have b_d := d.isLt
  have b_a := a.isLt
  have b_i := i.isLt
  have b_S := S.toNat_le
  refine decode_of (BitVec.ofNat 32 (S.toNat * 2 ^ 31 + 0x08 * 2 ^ 24 + (place d 19 + place a 14 + place i 0))) next ?_ hw
  generalize hx : S.toNat * 2 ^ 31 + 0x08 * 2 ^ 24 + (place d 19 + place a 14 + place i 0) = x
  simp only [place] at hx
  refine raw08 _ _ (field_of x 24 7 0x08 (by omega) (by omega)) ?_
  have f_d := field_eq x 19 5 d (by omega) (by omega)
  have f_a := field_eq x 14 5 a (by omega) (by omega)
  have f_i := field_eq x 0 14 i (by omega) (by omega)
  have f_S := top_of x S (by omega)
  simp [decodeOp08, f_d, f_a, f_i, f_S]

theorem RoundTrip.andi (S : Bool) (d : BitVec 5) (a : BitVec 5) (i : BitVec 14) : RoundTrip.Statement (.andi S d a i) := by
  refine RoundTrip.of_word (wordOf S 0x09 (place d 19 + place a 14 + place i 0)) rfl fun hw next => ?_
  have b_d := d.isLt
  have b_a := a.isLt
  have b_i := i.isLt
  have b_S := S.toNat_le
  refine decode_of (BitVec.ofNat 32 (S.toNat * 2 ^ 31 + 0x09 * 2 ^ 24 + (place d 19 + place a 14 + place i 0))) next ?_ hw
  generalize hx : S.toNat * 2 ^ 31 + 0x09 * 2 ^ 24 + (place d 19 + place a 14 + place i 0) = x
  simp only [place] at hx
  refine raw09 _ _ (field_of x 24 7 0x09 (by omega) (by omega)) ?_
  have f_d := field_eq x 19 5 d (by omega) (by omega)
  have f_a := field_eq x 14 5 a (by omega) (by omega)
  have f_i := field_eq x 0 14 i (by omega) (by omega)
  have f_S := top_of x S (by omega)
  simp [decodeOp09, f_d, f_a, f_i, f_S]

theorem RoundTrip.ori (S : Bool) (d : BitVec 5) (a : BitVec 5) (i : BitVec 14) : RoundTrip.Statement (.ori S d a i) := by
  refine RoundTrip.of_word (wordOf S 0x0A (place d 19 + place a 14 + place i 0)) rfl fun hw next => ?_
  have b_d := d.isLt
  have b_a := a.isLt
  have b_i := i.isLt
  have b_S := S.toNat_le
  refine decode_of (BitVec.ofNat 32 (S.toNat * 2 ^ 31 + 0x0A * 2 ^ 24 + (place d 19 + place a 14 + place i 0))) next ?_ hw
  generalize hx : S.toNat * 2 ^ 31 + 0x0A * 2 ^ 24 + (place d 19 + place a 14 + place i 0) = x
  simp only [place] at hx
  refine raw0A _ _ (field_of x 24 7 0x0A (by omega) (by omega)) ?_
  have f_d := field_eq x 19 5 d (by omega) (by omega)
  have f_a := field_eq x 14 5 a (by omega) (by omega)
  have f_i := field_eq x 0 14 i (by omega) (by omega)
  have f_S := top_of x S (by omega)
  simp [decodeOp0A, f_d, f_a, f_i, f_S]

theorem RoundTrip.xori (S : Bool) (d : BitVec 5) (a : BitVec 5) (i : BitVec 14) : RoundTrip.Statement (.xori S d a i) := by
  refine RoundTrip.of_word (wordOf S 0x0B (place d 19 + place a 14 + place i 0)) rfl fun hw next => ?_
  have b_d := d.isLt
  have b_a := a.isLt
  have b_i := i.isLt
  have b_S := S.toNat_le
  refine decode_of (BitVec.ofNat 32 (S.toNat * 2 ^ 31 + 0x0B * 2 ^ 24 + (place d 19 + place a 14 + place i 0))) next ?_ hw
  generalize hx : S.toNat * 2 ^ 31 + 0x0B * 2 ^ 24 + (place d 19 + place a 14 + place i 0) = x
  simp only [place] at hx
  refine raw0B _ _ (field_of x 24 7 0x0B (by omega) (by omega)) ?_
  have f_d := field_eq x 19 5 d (by omega) (by omega)
  have f_a := field_eq x 14 5 a (by omega) (by omega)
  have f_i := field_eq x 0 14 i (by omega) (by omega)
  have f_S := top_of x S (by omega)
  simp [decodeOp0B, f_d, f_a, f_i, f_S]

theorem RoundTrip.slti (S : Bool) (d : BitVec 5) (a : BitVec 5) (i : BitVec 14) : RoundTrip.Statement (.slti S d a i) := by
  refine RoundTrip.of_word (wordOf S 0x0C (place d 19 + place a 14 + place i 0)) rfl fun hw next => ?_
  have b_d := d.isLt
  have b_a := a.isLt
  have b_i := i.isLt
  have b_S := S.toNat_le
  refine decode_of (BitVec.ofNat 32 (S.toNat * 2 ^ 31 + 0x0C * 2 ^ 24 + (place d 19 + place a 14 + place i 0))) next ?_ hw
  generalize hx : S.toNat * 2 ^ 31 + 0x0C * 2 ^ 24 + (place d 19 + place a 14 + place i 0) = x
  simp only [place] at hx
  refine raw0C _ _ (field_of x 24 7 0x0C (by omega) (by omega)) ?_
  have f_d := field_eq x 19 5 d (by omega) (by omega)
  have f_a := field_eq x 14 5 a (by omega) (by omega)
  have f_i := field_eq x 0 14 i (by omega) (by omega)
  have f_S := top_of x S (by omega)
  simp [decodeOp0C, f_d, f_a, f_i, f_S]

theorem RoundTrip.sltiu (S : Bool) (d : BitVec 5) (a : BitVec 5) (i : BitVec 14) : RoundTrip.Statement (.sltiu S d a i) := by
  refine RoundTrip.of_word (wordOf S 0x0D (place d 19 + place a 14 + place i 0)) rfl fun hw next => ?_
  have b_d := d.isLt
  have b_a := a.isLt
  have b_i := i.isLt
  have b_S := S.toNat_le
  refine decode_of (BitVec.ofNat 32 (S.toNat * 2 ^ 31 + 0x0D * 2 ^ 24 + (place d 19 + place a 14 + place i 0))) next ?_ hw
  generalize hx : S.toNat * 2 ^ 31 + 0x0D * 2 ^ 24 + (place d 19 + place a 14 + place i 0) = x
  simp only [place] at hx
  refine raw0D _ _ (field_of x 24 7 0x0D (by omega) (by omega)) ?_
  have f_d := field_eq x 19 5 d (by omega) (by omega)
  have f_a := field_eq x 14 5 a (by omega) (by omega)
  have f_i := field_eq x 0 14 i (by omega) (by omega)
  have f_S := top_of x S (by omega)
  simp [decodeOp0D, f_d, f_a, f_i, f_S]

theorem RoundTrip.shli (S : Bool) (d : BitVec 5) (a : BitVec 5) (i : BitVec 14) : RoundTrip.Statement (.shli S d a i) := by
  refine RoundTrip.of_word (wordOf S 0x0E (place d 19 + place a 14 + place i 0)) rfl fun hw next => ?_
  have b_d := d.isLt
  have b_a := a.isLt
  have b_i := i.isLt
  have b_S := S.toNat_le
  refine decode_of (BitVec.ofNat 32 (S.toNat * 2 ^ 31 + 0x0E * 2 ^ 24 + (place d 19 + place a 14 + place i 0))) next ?_ hw
  generalize hx : S.toNat * 2 ^ 31 + 0x0E * 2 ^ 24 + (place d 19 + place a 14 + place i 0) = x
  simp only [place] at hx
  refine raw0E _ _ (field_of x 24 7 0x0E (by omega) (by omega)) ?_
  have f_d := field_eq x 19 5 d (by omega) (by omega)
  have f_a := field_eq x 14 5 a (by omega) (by omega)
  have f_i := field_eq x 0 14 i (by omega) (by omega)
  have f_S := top_of x S (by omega)
  simp [decodeOp0E, f_d, f_a, f_i, f_S]

theorem RoundTrip.shri (S : Bool) (d : BitVec 5) (a : BitVec 5) (i : BitVec 14) : RoundTrip.Statement (.shri S d a i) := by
  refine RoundTrip.of_word (wordOf S 0x0F (place d 19 + place a 14 + place i 0)) rfl fun hw next => ?_
  have b_d := d.isLt
  have b_a := a.isLt
  have b_i := i.isLt
  have b_S := S.toNat_le
  refine decode_of (BitVec.ofNat 32 (S.toNat * 2 ^ 31 + 0x0F * 2 ^ 24 + (place d 19 + place a 14 + place i 0))) next ?_ hw
  generalize hx : S.toNat * 2 ^ 31 + 0x0F * 2 ^ 24 + (place d 19 + place a 14 + place i 0) = x
  simp only [place] at hx
  refine raw0F _ _ (field_of x 24 7 0x0F (by omega) (by omega)) ?_
  have f_d := field_eq x 19 5 d (by omega) (by omega)
  have f_a := field_eq x 14 5 a (by omega) (by omega)
  have f_i := field_eq x 0 14 i (by omega) (by omega)
  have f_S := top_of x S (by omega)
  simp [decodeOp0F, f_d, f_a, f_i, f_S]

theorem RoundTrip.srai (S : Bool) (d : BitVec 5) (a : BitVec 5) (i : BitVec 14) : RoundTrip.Statement (.srai S d a i) := by
  refine RoundTrip.of_word (wordOf S 0x10 (place d 19 + place a 14 + place i 0)) rfl fun hw next => ?_
  have b_d := d.isLt
  have b_a := a.isLt
  have b_i := i.isLt
  have b_S := S.toNat_le
  refine decode_of (BitVec.ofNat 32 (S.toNat * 2 ^ 31 + 0x10 * 2 ^ 24 + (place d 19 + place a 14 + place i 0))) next ?_ hw
  generalize hx : S.toNat * 2 ^ 31 + 0x10 * 2 ^ 24 + (place d 19 + place a 14 + place i 0) = x
  simp only [place] at hx
  refine raw10 _ _ (field_of x 24 7 0x10 (by omega) (by omega)) ?_
  have f_d := field_eq x 19 5 d (by omega) (by omega)
  have f_a := field_eq x 14 5 a (by omega) (by omega)
  have f_i := field_eq x 0 14 i (by omega) (by omega)
  have f_S := top_of x S (by omega)
  simp [decodeOp10, f_d, f_a, f_i, f_S]

theorem RoundTrip.lui (S : Bool) (d : BitVec 5) (i : BitVec 19) : RoundTrip.Statement (.lui S d i) := by
  refine RoundTrip.of_word (wordOf S 0x11 (place d 19 + place i 0)) rfl fun hw next => ?_
  have b_d := d.isLt
  have b_i := i.isLt
  have b_S := S.toNat_le
  refine decode_of (BitVec.ofNat 32 (S.toNat * 2 ^ 31 + 0x11 * 2 ^ 24 + (place d 19 + place i 0))) next ?_ hw
  generalize hx : S.toNat * 2 ^ 31 + 0x11 * 2 ^ 24 + (place d 19 + place i 0) = x
  simp only [place] at hx
  refine raw11 _ _ (field_of x 24 7 0x11 (by omega) (by omega)) ?_
  have f_d := field_eq x 19 5 d (by omega) (by omega)
  have f_i := field_eq x 0 19 i (by omega) (by omega)
  have f_S := top_of x S (by omega)
  simp [decodeOp11, f_d, f_i, f_S]

theorem RoundTrip.addpc (S : Bool) (d : BitVec 5) (i : BitVec 19) : RoundTrip.Statement (.addpc S d i) := by
  refine RoundTrip.of_word (wordOf S 0x12 (place d 19 + place i 0)) rfl fun hw next => ?_
  have b_d := d.isLt
  have b_i := i.isLt
  have b_S := S.toNat_le
  refine decode_of (BitVec.ofNat 32 (S.toNat * 2 ^ 31 + 0x12 * 2 ^ 24 + (place d 19 + place i 0))) next ?_ hw
  generalize hx : S.toNat * 2 ^ 31 + 0x12 * 2 ^ 24 + (place d 19 + place i 0) = x
  simp only [place] at hx
  refine raw12 _ _ (field_of x 24 7 0x12 (by omega) (by omega)) ?_
  have f_d := field_eq x 19 5 d (by omega) (by omega)
  have f_i := field_eq x 0 19 i (by omega) (by omega)
  have f_S := top_of x S (by omega)
  simp [decodeOp12, f_d, f_i, f_S]

theorem RoundTrip.br (S : Bool) (a : BitVec 5) (b : BitVec 5) (c : BitVec 4) (o : BitVec 10) : RoundTrip.Statement (.br S a b c o) := by
  refine RoundTrip.of_word (wordOf S 0x18 (place a 19 + place b 14 + place c 10 + place o 0)) rfl fun hw next => ?_
  have b_a := a.isLt
  have b_b := b.isLt
  have b_c := c.isLt
  have b_o := o.isLt
  have b_S := S.toNat_le
  refine decode_of (BitVec.ofNat 32 (S.toNat * 2 ^ 31 + 0x18 * 2 ^ 24 + (place a 19 + place b 14 + place c 10 + place o 0))) next ?_ hw
  generalize hx : S.toNat * 2 ^ 31 + 0x18 * 2 ^ 24 + (place a 19 + place b 14 + place c 10 + place o 0) = x
  simp only [place] at hx
  refine raw18 _ _ (field_of x 24 7 0x18 (by omega) (by omega)) ?_
  have f_a := field_eq x 19 5 a (by omega) (by omega)
  have f_b := field_eq x 14 5 b (by omega) (by omega)
  have f_c := field_eq x 10 4 c (by omega) (by omega)
  have f_o := field_eq x 0 10 o (by omega) (by omega)
  have f_S := top_of x S (by omega)
  simp [decodeOp18, f_a, f_b, f_c, f_o, f_S]

theorem RoundTrip.j (S : Bool) (o : BitVec 24) : RoundTrip.Statement (.j S o) := by
  refine RoundTrip.of_word (wordOf S 0x19 (place o 0)) rfl fun hw next => ?_
  have b_o := o.isLt
  have b_S := S.toNat_le
  refine decode_of (BitVec.ofNat 32 (S.toNat * 2 ^ 31 + 0x19 * 2 ^ 24 + (place o 0))) next ?_ hw
  generalize hx : S.toNat * 2 ^ 31 + 0x19 * 2 ^ 24 + (place o 0) = x
  simp only [place] at hx
  refine raw19 _ _ (field_of x 24 7 0x19 (by omega) (by omega)) ?_
  have f_o := field_eq x 0 24 o (by omega) (by omega)
  have f_S := top_of x S (by omega)
  simp [decodeOp19, f_o, f_S]

theorem RoundTrip.jal (S : Bool) (o : BitVec 24) : RoundTrip.Statement (.jal S o) := by
  refine RoundTrip.of_word (wordOf S 0x1A (place o 0)) rfl fun hw next => ?_
  have b_o := o.isLt
  have b_S := S.toNat_le
  refine decode_of (BitVec.ofNat 32 (S.toNat * 2 ^ 31 + 0x1A * 2 ^ 24 + (place o 0))) next ?_ hw
  generalize hx : S.toNat * 2 ^ 31 + 0x1A * 2 ^ 24 + (place o 0) = x
  simp only [place] at hx
  refine raw1A _ _ (field_of x 24 7 0x1A (by omega) (by omega)) ?_
  have f_o := field_eq x 0 24 o (by omega) (by omega)
  have f_S := top_of x S (by omega)
  simp [decodeOp1A, f_o, f_S]

theorem RoundTrip.jr (S : Bool) (d : BitVec 5) (a : BitVec 5) : RoundTrip.Statement (.jr S d a) := by
  refine RoundTrip.of_word (wordOf S 0x1B (place d 19 + place a 14)) rfl fun hw next => ?_
  have b_d := d.isLt
  have b_a := a.isLt
  have b_S := S.toNat_le
  refine decode_of (BitVec.ofNat 32 (S.toNat * 2 ^ 31 + 0x1B * 2 ^ 24 + (place d 19 + place a 14))) next ?_ hw
  generalize hx : S.toNat * 2 ^ 31 + 0x1B * 2 ^ 24 + (place d 19 + place a 14) = x
  simp only [place] at hx
  refine raw1B _ _ (field_of x 24 7 0x1B (by omega) (by omega)) ?_
  have c_1 := field_of x 0 14 0 (by omega) (by omega)
  have f_d := field_eq x 19 5 d (by omega) (by omega)
  have f_a := field_eq x 14 5 a (by omega) (by omega)
  have f_S := top_of x S (by omega)
  simp [decodeOp1B, c_1, f_d, f_a, f_S]

theorem RoundTrip.skip (S : Bool) (a : BitVec 5) (b : BitVec 5) (c : BitVec 4) (n : BitVec 3) : RoundTrip.Statement (.skip S a b c n) := by
  refine RoundTrip.of_word (wordOf S 0x1C (place a 19 + place b 14 + place c 10 + place n 0)) rfl fun hw next => ?_
  have b_a := a.isLt
  have b_b := b.isLt
  have b_c := c.isLt
  have b_n := n.isLt
  have b_S := S.toNat_le
  refine decode_of (BitVec.ofNat 32 (S.toNat * 2 ^ 31 + 0x1C * 2 ^ 24 + (place a 19 + place b 14 + place c 10 + place n 0))) next ?_ hw
  generalize hx : S.toNat * 2 ^ 31 + 0x1C * 2 ^ 24 + (place a 19 + place b 14 + place c 10 + place n 0) = x
  simp only [place] at hx
  refine raw1C _ _ (field_of x 24 7 0x1C (by omega) (by omega)) ?_
  have c_1 := field_of x 3 7 0 (by omega) (by omega)
  have f_a := field_eq x 19 5 a (by omega) (by omega)
  have f_b := field_eq x 14 5 b (by omega) (by omega)
  have f_c := field_eq x 10 4 c (by omega) (by omega)
  have f_n := field_eq x 0 3 n (by omega) (by omega)
  have f_S := top_of x S (by omega)
  simp [decodeOp1C, c_1, f_a, f_b, f_c, f_n, f_S]

theorem RoundTrip.loop (S : Bool) (a : BitVec 5) (n : BitVec 5) (step : BitVec 32) : RoundTrip.Statement (.loop S a n step) := by
  refine RoundTrip.of_two_words (wordOf S 0x1D (place a 14 + place n 0)) step rfl fun hw => ?_
  have b_a := a.isLt
  have b_n := n.isLt
  have b_S := S.toNat_le
  refine decode_of (BitVec.ofNat 32 (S.toNat * 2 ^ 31 + 0x1D * 2 ^ 24 + (place a 14 + place n 0))) step ?_ hw
  generalize hx : S.toNat * 2 ^ 31 + 0x1D * 2 ^ 24 + (place a 14 + place n 0) = x
  simp only [place] at hx
  refine raw1D _ _ (field_of x 24 7 0x1D (by omega) (by omega)) ?_
  have c_1 := field_of x 5 9 0 (by omega) (by omega)
  have c_2 := field_of x 19 5 0 (by omega) (by omega)
  have f_a := field_eq x 14 5 a (by omega) (by omega)
  have f_n := field_eq x 0 5 n (by omega) (by omega)
  have f_S := top_of x S (by omega)
  simp [decodeOp1D, c_1, c_2, f_a, f_n, f_S]

theorem RoundTrip.endGroup (S : Bool) : RoundTrip.Statement (.endGroup S) := by
  refine RoundTrip.of_word (wordOf S 0x1E (0)) rfl fun hw next => ?_
  have b_S := S.toNat_le
  refine decode_of (BitVec.ofNat 32 (S.toNat * 2 ^ 31 + 0x1E * 2 ^ 24 + (0))) next ?_ hw
  generalize hx : S.toNat * 2 ^ 31 + 0x1E * 2 ^ 24 + (0) = x
  refine raw1E _ _ (field_of x 24 7 0x1E (by omega) (by omega)) ?_
  have c_1 := field_of x 0 24 0 (by omega) (by omega)
  have f_S := top_of x S (by omega)
  simp [decodeOp1E, c_1, f_S]

theorem RoundTrip.trap (S : Bool) (i : BitVec 19) : RoundTrip.Statement (.trap S i) := by
  refine RoundTrip.of_word (wordOf S 0x1F (place i 0)) rfl fun hw next => ?_
  have b_i := i.isLt
  have b_S := S.toNat_le
  refine decode_of (BitVec.ofNat 32 (S.toNat * 2 ^ 31 + 0x1F * 2 ^ 24 + (place i 0))) next ?_ hw
  generalize hx : S.toNat * 2 ^ 31 + 0x1F * 2 ^ 24 + (place i 0) = x
  simp only [place] at hx
  refine raw1F _ _ (field_of x 24 7 0x1F (by omega) (by omega)) ?_
  have c_1 := field_of x 19 5 0 (by omega) (by omega)
  have f_i := field_eq x 0 19 i (by omega) (by omega)
  have f_S := top_of x S (by omega)
  simp [decodeOp1F, c_1, f_i, f_S]

theorem RoundTrip.creadCur (S : Bool) (d : BitVec 5) (a : BitVec 5) : RoundTrip.Statement (.creadCur S d a) := by
  refine RoundTrip.of_word (wordOf S 0x20 (place d 19 + place a 14)) rfl fun hw next => ?_
  have b_d := d.isLt
  have b_a := a.isLt
  have b_S := S.toNat_le
  refine decode_of (BitVec.ofNat 32 (S.toNat * 2 ^ 31 + 0x20 * 2 ^ 24 + (place d 19 + place a 14))) next ?_ hw
  generalize hx : S.toNat * 2 ^ 31 + 0x20 * 2 ^ 24 + (place d 19 + place a 14) = x
  simp only [place] at hx
  refine raw20 _ _ (field_of x 24 7 0x20 (by omega) (by omega)) ?_
  have c_1 := field_of x 0 9 0 (by omega) (by omega)
  have c_2 := field_of x 9 5 0 (by omega) (by omega)
  have f_d := field_eq x 19 5 d (by omega) (by omega)
  have f_a := field_eq x 14 5 a (by omega) (by omega)
  have f_S := top_of x S (by omega)
  simp [decodeOp20, c_1, c_2, f_d, f_a, f_S]

theorem RoundTrip.creadBase (S : Bool) (d : BitVec 5) (a : BitVec 5) : RoundTrip.Statement (.creadBase S d a) := by
  refine RoundTrip.of_word (wordOf S 0x20 (place d 19 + place a 14 + 0x1)) rfl fun hw next => ?_
  have b_d := d.isLt
  have b_a := a.isLt
  have b_S := S.toNat_le
  refine decode_of (BitVec.ofNat 32 (S.toNat * 2 ^ 31 + 0x20 * 2 ^ 24 + (place d 19 + place a 14 + 0x1))) next ?_ hw
  generalize hx : S.toNat * 2 ^ 31 + 0x20 * 2 ^ 24 + (place d 19 + place a 14 + 0x1) = x
  simp only [place] at hx
  refine raw20 _ _ (field_of x 24 7 0x20 (by omega) (by omega)) ?_
  have c_1 := field_of x 0 9 1 (by omega) (by omega)
  have c_2 := field_of x 9 5 0 (by omega) (by omega)
  have f_d := field_eq x 19 5 d (by omega) (by omega)
  have f_a := field_eq x 14 5 a (by omega) (by omega)
  have f_S := top_of x S (by omega)
  simp [decodeOp20, c_1, c_2, f_d, f_a, f_S]

theorem RoundTrip.creadLen (S : Bool) (d : BitVec 5) (a : BitVec 5) : RoundTrip.Statement (.creadLen S d a) := by
  refine RoundTrip.of_word (wordOf S 0x20 (place d 19 + place a 14 + 0x2)) rfl fun hw next => ?_
  have b_d := d.isLt
  have b_a := a.isLt
  have b_S := S.toNat_le
  refine decode_of (BitVec.ofNat 32 (S.toNat * 2 ^ 31 + 0x20 * 2 ^ 24 + (place d 19 + place a 14 + 0x2))) next ?_ hw
  generalize hx : S.toNat * 2 ^ 31 + 0x20 * 2 ^ 24 + (place d 19 + place a 14 + 0x2) = x
  simp only [place] at hx
  refine raw20 _ _ (field_of x 24 7 0x20 (by omega) (by omega)) ?_
  have c_1 := field_of x 0 9 2 (by omega) (by omega)
  have c_2 := field_of x 9 5 0 (by omega) (by omega)
  have f_d := field_eq x 19 5 d (by omega) (by omega)
  have f_a := field_eq x 14 5 a (by omega) (by omega)
  have f_S := top_of x S (by omega)
  simp [decodeOp20, c_1, c_2, f_d, f_a, f_S]

theorem RoundTrip.creadPerm (S : Bool) (d : BitVec 5) (a : BitVec 5) : RoundTrip.Statement (.creadPerm S d a) := by
  refine RoundTrip.of_word (wordOf S 0x20 (place d 19 + place a 14 + 0x3)) rfl fun hw next => ?_
  have b_d := d.isLt
  have b_a := a.isLt
  have b_S := S.toNat_le
  refine decode_of (BitVec.ofNat 32 (S.toNat * 2 ^ 31 + 0x20 * 2 ^ 24 + (place d 19 + place a 14 + 0x3))) next ?_ hw
  generalize hx : S.toNat * 2 ^ 31 + 0x20 * 2 ^ 24 + (place d 19 + place a 14 + 0x3) = x
  simp only [place] at hx
  refine raw20 _ _ (field_of x 24 7 0x20 (by omega) (by omega)) ?_
  have c_1 := field_of x 0 9 3 (by omega) (by omega)
  have c_2 := field_of x 9 5 0 (by omega) (by omega)
  have f_d := field_eq x 19 5 d (by omega) (by omega)
  have f_a := field_eq x 14 5 a (by omega) (by omega)
  have f_S := top_of x S (by omega)
  simp [decodeOp20, c_1, c_2, f_d, f_a, f_S]

theorem RoundTrip.creadSpace (S : Bool) (d : BitVec 5) (a : BitVec 5) : RoundTrip.Statement (.creadSpace S d a) := by
  refine RoundTrip.of_word (wordOf S 0x20 (place d 19 + place a 14 + 0x4)) rfl fun hw next => ?_
  have b_d := d.isLt
  have b_a := a.isLt
  have b_S := S.toNat_le
  refine decode_of (BitVec.ofNat 32 (S.toNat * 2 ^ 31 + 0x20 * 2 ^ 24 + (place d 19 + place a 14 + 0x4))) next ?_ hw
  generalize hx : S.toNat * 2 ^ 31 + 0x20 * 2 ^ 24 + (place d 19 + place a 14 + 0x4) = x
  simp only [place] at hx
  refine raw20 _ _ (field_of x 24 7 0x20 (by omega) (by omega)) ?_
  have c_1 := field_of x 0 9 4 (by omega) (by omega)
  have c_2 := field_of x 9 5 0 (by omega) (by omega)
  have f_d := field_eq x 19 5 d (by omega) (by omega)
  have f_a := field_eq x 14 5 a (by omega) (by omega)
  have f_S := top_of x S (by omega)
  simp [decodeOp20, c_1, c_2, f_d, f_a, f_S]

theorem RoundTrip.creadOwner (S : Bool) (d : BitVec 5) (a : BitVec 5) : RoundTrip.Statement (.creadOwner S d a) := by
  refine RoundTrip.of_word (wordOf S 0x20 (place d 19 + place a 14 + 0x5)) rfl fun hw next => ?_
  have b_d := d.isLt
  have b_a := a.isLt
  have b_S := S.toNat_le
  refine decode_of (BitVec.ofNat 32 (S.toNat * 2 ^ 31 + 0x20 * 2 ^ 24 + (place d 19 + place a 14 + 0x5))) next ?_ hw
  generalize hx : S.toNat * 2 ^ 31 + 0x20 * 2 ^ 24 + (place d 19 + place a 14 + 0x5) = x
  simp only [place] at hx
  refine raw20 _ _ (field_of x 24 7 0x20 (by omega) (by omega)) ?_
  have c_1 := field_of x 0 9 5 (by omega) (by omega)
  have c_2 := field_of x 9 5 0 (by omega) (by omega)
  have f_d := field_eq x 19 5 d (by omega) (by omega)
  have f_a := field_eq x 14 5 a (by omega) (by omega)
  have f_S := top_of x S (by omega)
  simp [decodeOp20, c_1, c_2, f_d, f_a, f_S]

theorem RoundTrip.creadTag (S : Bool) (d : BitVec 5) (a : BitVec 5) : RoundTrip.Statement (.creadTag S d a) := by
  refine RoundTrip.of_word (wordOf S 0x20 (place d 19 + place a 14 + 0x6)) rfl fun hw next => ?_
  have b_d := d.isLt
  have b_a := a.isLt
  have b_S := S.toNat_le
  refine decode_of (BitVec.ofNat 32 (S.toNat * 2 ^ 31 + 0x20 * 2 ^ 24 + (place d 19 + place a 14 + 0x6))) next ?_ hw
  generalize hx : S.toNat * 2 ^ 31 + 0x20 * 2 ^ 24 + (place d 19 + place a 14 + 0x6) = x
  simp only [place] at hx
  refine raw20 _ _ (field_of x 24 7 0x20 (by omega) (by omega)) ?_
  have c_1 := field_of x 0 9 6 (by omega) (by omega)
  have c_2 := field_of x 9 5 0 (by omega) (by omega)
  have f_d := field_eq x 19 5 d (by omega) (by omega)
  have f_a := field_eq x 14 5 a (by omega) (by omega)
  have f_S := top_of x S (by omega)
  simp [decodeOp20, c_1, c_2, f_d, f_a, f_S]

theorem RoundTrip.ccopy (S : Bool) (d : BitVec 5) (a : BitVec 5) : RoundTrip.Statement (.ccopy S d a) := by
  refine RoundTrip.of_word (wordOf S 0x20 (place d 19 + place a 14 + 0x7)) rfl fun hw next => ?_
  have b_d := d.isLt
  have b_a := a.isLt
  have b_S := S.toNat_le
  refine decode_of (BitVec.ofNat 32 (S.toNat * 2 ^ 31 + 0x20 * 2 ^ 24 + (place d 19 + place a 14 + 0x7))) next ?_ hw
  generalize hx : S.toNat * 2 ^ 31 + 0x20 * 2 ^ 24 + (place d 19 + place a 14 + 0x7) = x
  simp only [place] at hx
  refine raw20 _ _ (field_of x 24 7 0x20 (by omega) (by omega)) ?_
  have c_1 := field_of x 0 9 7 (by omega) (by omega)
  have c_2 := field_of x 9 5 0 (by omega) (by omega)
  have f_d := field_eq x 19 5 d (by omega) (by omega)
  have f_a := field_eq x 14 5 a (by omega) (by omega)
  have f_S := top_of x S (by omega)
  simp [decodeOp20, c_1, c_2, f_d, f_a, f_S]

theorem RoundTrip.cstrip (S : Bool) (d : BitVec 5) (a : BitVec 5) : RoundTrip.Statement (.cstrip S d a) := by
  refine RoundTrip.of_word (wordOf S 0x20 (place d 19 + place a 14 + 0x8)) rfl fun hw next => ?_
  have b_d := d.isLt
  have b_a := a.isLt
  have b_S := S.toNat_le
  refine decode_of (BitVec.ofNat 32 (S.toNat * 2 ^ 31 + 0x20 * 2 ^ 24 + (place d 19 + place a 14 + 0x8))) next ?_ hw
  generalize hx : S.toNat * 2 ^ 31 + 0x20 * 2 ^ 24 + (place d 19 + place a 14 + 0x8) = x
  simp only [place] at hx
  refine raw20 _ _ (field_of x 24 7 0x20 (by omega) (by omega)) ?_
  have c_1 := field_of x 0 9 8 (by omega) (by omega)
  have c_2 := field_of x 9 5 0 (by omega) (by omega)
  have f_d := field_eq x 19 5 d (by omega) (by omega)
  have f_a := field_eq x 14 5 a (by omega) (by omega)
  have f_S := top_of x S (by omega)
  simp [decodeOp20, c_1, c_2, f_d, f_a, f_S]

theorem RoundTrip.cshift (S : Bool) (d : BitVec 5) (a : BitVec 5) (b : BitVec 5) : RoundTrip.Statement (.cshift S d a b) := by
  refine RoundTrip.of_word (wordOf S 0x21 (place d 19 + place a 14 + place b 9)) rfl fun hw next => ?_
  have b_d := d.isLt
  have b_a := a.isLt
  have b_b := b.isLt
  have b_S := S.toNat_le
  refine decode_of (BitVec.ofNat 32 (S.toNat * 2 ^ 31 + 0x21 * 2 ^ 24 + (place d 19 + place a 14 + place b 9))) next ?_ hw
  generalize hx : S.toNat * 2 ^ 31 + 0x21 * 2 ^ 24 + (place d 19 + place a 14 + place b 9) = x
  simp only [place] at hx
  refine raw21 _ _ (field_of x 24 7 0x21 (by omega) (by omega)) ?_
  have c_1 := field_of x 0 9 0 (by omega) (by omega)
  have f_d := field_eq x 19 5 d (by omega) (by omega)
  have f_a := field_eq x 14 5 a (by omega) (by omega)
  have f_b := field_eq x 9 5 b (by omega) (by omega)
  have f_S := top_of x S (by omega)
  simp [decodeOp21, c_1, f_d, f_a, f_b, f_S]

theorem RoundTrip.cshifti (S : Bool) (d : BitVec 5) (a : BitVec 5) (i : BitVec 14) : RoundTrip.Statement (.cshifti S d a i) := by
  refine RoundTrip.of_word (wordOf S 0x22 (place d 19 + place a 14 + place i 0)) rfl fun hw next => ?_
  have b_d := d.isLt
  have b_a := a.isLt
  have b_i := i.isLt
  have b_S := S.toNat_le
  refine decode_of (BitVec.ofNat 32 (S.toNat * 2 ^ 31 + 0x22 * 2 ^ 24 + (place d 19 + place a 14 + place i 0))) next ?_ hw
  generalize hx : S.toNat * 2 ^ 31 + 0x22 * 2 ^ 24 + (place d 19 + place a 14 + place i 0) = x
  simp only [place] at hx
  refine raw22 _ _ (field_of x 24 7 0x22 (by omega) (by omega)) ?_
  have f_d := field_eq x 19 5 d (by omega) (by omega)
  have f_a := field_eq x 14 5 a (by omega) (by omega)
  have f_i := field_eq x 0 14 i (by omega) (by omega)
  have f_S := top_of x S (by omega)
  simp [decodeOp22, f_d, f_a, f_i, f_S]

theorem RoundTrip.cnarrow (S : Bool) (d : BitVec 5) (a : BitVec 5) (b : BitVec 5) : RoundTrip.Statement (.cnarrow S d a b) := by
  refine RoundTrip.of_word (wordOf S 0x23 (place d 19 + place a 14 + place b 9)) rfl fun hw next => ?_
  have b_d := d.isLt
  have b_a := a.isLt
  have b_b := b.isLt
  have b_S := S.toNat_le
  refine decode_of (BitVec.ofNat 32 (S.toNat * 2 ^ 31 + 0x23 * 2 ^ 24 + (place d 19 + place a 14 + place b 9))) next ?_ hw
  generalize hx : S.toNat * 2 ^ 31 + 0x23 * 2 ^ 24 + (place d 19 + place a 14 + place b 9) = x
  simp only [place] at hx
  refine raw23 _ _ (field_of x 24 7 0x23 (by omega) (by omega)) ?_
  have c_1 := field_of x 0 9 0 (by omega) (by omega)
  have f_d := field_eq x 19 5 d (by omega) (by omega)
  have f_a := field_eq x 14 5 a (by omega) (by omega)
  have f_b := field_eq x 9 5 b (by omega) (by omega)
  have f_S := top_of x S (by omega)
  simp [decodeOp23, c_1, f_d, f_a, f_b, f_S]

theorem RoundTrip.cmask (S : Bool) (d : BitVec 5) (a : BitVec 5) (m : BitVec 5) : RoundTrip.Statement (.cmask S d a m) := by
  refine RoundTrip.of_word (wordOf S 0x24 (place d 19 + place a 14 + place m 0)) rfl fun hw next => ?_
  have b_d := d.isLt
  have b_a := a.isLt
  have b_m := m.isLt
  have b_S := S.toNat_le
  refine decode_of (BitVec.ofNat 32 (S.toNat * 2 ^ 31 + 0x24 * 2 ^ 24 + (place d 19 + place a 14 + place m 0))) next ?_ hw
  generalize hx : S.toNat * 2 ^ 31 + 0x24 * 2 ^ 24 + (place d 19 + place a 14 + place m 0) = x
  simp only [place] at hx
  refine raw24 _ _ (field_of x 24 7 0x24 (by omega) (by omega)) ?_
  have c_1 := field_of x 5 9 0 (by omega) (by omega)
  have f_d := field_eq x 19 5 d (by omega) (by omega)
  have f_a := field_eq x 14 5 a (by omega) (by omega)
  have f_m := field_eq x 0 5 m (by omega) (by omega)
  have f_S := top_of x S (by omega)
  simp [decodeOp24, c_1, f_d, f_a, f_m, f_S]

theorem RoundTrip.cspace (S : Bool) (d : BitVec 5) (a : BitVec 5) : RoundTrip.Statement (.cspace S d a) := by
  refine RoundTrip.of_word (wordOf S 0x25 (place d 19 + place a 14)) rfl fun hw next => ?_
  have b_d := d.isLt
  have b_a := a.isLt
  have b_S := S.toNat_le
  refine decode_of (BitVec.ofNat 32 (S.toNat * 2 ^ 31 + 0x25 * 2 ^ 24 + (place d 19 + place a 14))) next ?_ hw
  generalize hx : S.toNat * 2 ^ 31 + 0x25 * 2 ^ 24 + (place d 19 + place a 14) = x
  simp only [place] at hx
  refine raw25 _ _ (field_of x 24 7 0x25 (by omega) (by omega)) ?_
  have c_1 := field_of x 0 14 0 (by omega) (by omega)
  have f_d := field_eq x 19 5 d (by omega) (by omega)
  have f_a := field_eq x 14 5 a (by omega) (by omega)
  have f_S := top_of x S (by omega)
  simp [decodeOp25, c_1, f_d, f_a, f_S]

theorem RoundTrip.ccast (S : Bool) (d : BitVec 5) (a : BitVec 5) (t : BitVec 2) : RoundTrip.Statement (.ccast S d a t) := by
  refine RoundTrip.of_word (wordOf S 0x26 (place d 19 + place a 14 + place t 0)) rfl fun hw next => ?_
  have b_d := d.isLt
  have b_a := a.isLt
  have b_t := t.isLt
  have b_S := S.toNat_le
  refine decode_of (BitVec.ofNat 32 (S.toNat * 2 ^ 31 + 0x26 * 2 ^ 24 + (place d 19 + place a 14 + place t 0))) next ?_ hw
  generalize hx : S.toNat * 2 ^ 31 + 0x26 * 2 ^ 24 + (place d 19 + place a 14 + place t 0) = x
  simp only [place] at hx
  refine raw26 _ _ (field_of x 24 7 0x26 (by omega) (by omega)) ?_
  have c_1 := field_of x 2 12 0 (by omega) (by omega)
  have f_d := field_eq x 19 5 d (by omega) (by omega)
  have f_a := field_eq x 14 5 a (by omega) (by omega)
  have f_t := field_eq x 0 2 t (by omega) (by omega)
  have f_S := top_of x S (by omega)
  simp [decodeOp26, c_1, f_d, f_a, f_t, f_S]

theorem RoundTrip.cderive (S : Bool) (d : BitVec 5) (a : BitVec 5) (b : BitVec 5) : RoundTrip.Statement (.cderive S d a b) := by
  refine RoundTrip.of_word (wordOf S 0x27 (place d 19 + place a 14 + place b 9)) rfl fun hw next => ?_
  have b_d := d.isLt
  have b_a := a.isLt
  have b_b := b.isLt
  have b_S := S.toNat_le
  refine decode_of (BitVec.ofNat 32 (S.toNat * 2 ^ 31 + 0x27 * 2 ^ 24 + (place d 19 + place a 14 + place b 9))) next ?_ hw
  generalize hx : S.toNat * 2 ^ 31 + 0x27 * 2 ^ 24 + (place d 19 + place a 14 + place b 9) = x
  simp only [place] at hx
  refine raw27 _ _ (field_of x 24 7 0x27 (by omega) (by omega)) ?_
  have c_1 := field_of x 0 9 0 (by omega) (by omega)
  have f_d := field_eq x 19 5 d (by omega) (by omega)
  have f_a := field_eq x 14 5 a (by omega) (by omega)
  have f_b := field_eq x 9 5 b (by omega) (by omega)
  have f_S := top_of x S (by omega)
  simp [decodeOp27, c_1, f_d, f_a, f_b, f_S]

theorem RoundTrip.ldSb (S : Bool) (d : BitVec 5) (b : BitVec 5) (o : BitVec 14) : RoundTrip.Statement (.ldSb S d b o) := by
  refine RoundTrip.of_word (wordOf S 0x30 (place d 19 + place b 14 + place o 0)) rfl fun hw next => ?_
  have b_d := d.isLt
  have b_b := b.isLt
  have b_o := o.isLt
  have b_S := S.toNat_le
  refine decode_of (BitVec.ofNat 32 (S.toNat * 2 ^ 31 + 0x30 * 2 ^ 24 + (place d 19 + place b 14 + place o 0))) next ?_ hw
  generalize hx : S.toNat * 2 ^ 31 + 0x30 * 2 ^ 24 + (place d 19 + place b 14 + place o 0) = x
  simp only [place] at hx
  refine raw30 _ _ (field_of x 24 7 0x30 (by omega) (by omega)) ?_
  have f_d := field_eq x 19 5 d (by omega) (by omega)
  have f_b := field_eq x 14 5 b (by omega) (by omega)
  have f_o := field_eq x 0 14 o (by omega) (by omega)
  have f_S := top_of x S (by omega)
  simp [decodeOp30, f_d, f_b, f_o, f_S]

theorem RoundTrip.ldZb (S : Bool) (d : BitVec 5) (b : BitVec 5) (o : BitVec 14) : RoundTrip.Statement (.ldZb S d b o) := by
  refine RoundTrip.of_word (wordOf S 0x31 (place d 19 + place b 14 + place o 0)) rfl fun hw next => ?_
  have b_d := d.isLt
  have b_b := b.isLt
  have b_o := o.isLt
  have b_S := S.toNat_le
  refine decode_of (BitVec.ofNat 32 (S.toNat * 2 ^ 31 + 0x31 * 2 ^ 24 + (place d 19 + place b 14 + place o 0))) next ?_ hw
  generalize hx : S.toNat * 2 ^ 31 + 0x31 * 2 ^ 24 + (place d 19 + place b 14 + place o 0) = x
  simp only [place] at hx
  refine raw31 _ _ (field_of x 24 7 0x31 (by omega) (by omega)) ?_
  have f_d := field_eq x 19 5 d (by omega) (by omega)
  have f_b := field_eq x 14 5 b (by omega) (by omega)
  have f_o := field_eq x 0 14 o (by omega) (by omega)
  have f_S := top_of x S (by omega)
  simp [decodeOp31, f_d, f_b, f_o, f_S]

theorem RoundTrip.ldSh (S : Bool) (d : BitVec 5) (b : BitVec 5) (o : BitVec 14) : RoundTrip.Statement (.ldSh S d b o) := by
  refine RoundTrip.of_word (wordOf S 0x32 (place d 19 + place b 14 + place o 0)) rfl fun hw next => ?_
  have b_d := d.isLt
  have b_b := b.isLt
  have b_o := o.isLt
  have b_S := S.toNat_le
  refine decode_of (BitVec.ofNat 32 (S.toNat * 2 ^ 31 + 0x32 * 2 ^ 24 + (place d 19 + place b 14 + place o 0))) next ?_ hw
  generalize hx : S.toNat * 2 ^ 31 + 0x32 * 2 ^ 24 + (place d 19 + place b 14 + place o 0) = x
  simp only [place] at hx
  refine raw32 _ _ (field_of x 24 7 0x32 (by omega) (by omega)) ?_
  have f_d := field_eq x 19 5 d (by omega) (by omega)
  have f_b := field_eq x 14 5 b (by omega) (by omega)
  have f_o := field_eq x 0 14 o (by omega) (by omega)
  have f_S := top_of x S (by omega)
  simp [decodeOp32, f_d, f_b, f_o, f_S]

theorem RoundTrip.ldZh (S : Bool) (d : BitVec 5) (b : BitVec 5) (o : BitVec 14) : RoundTrip.Statement (.ldZh S d b o) := by
  refine RoundTrip.of_word (wordOf S 0x33 (place d 19 + place b 14 + place o 0)) rfl fun hw next => ?_
  have b_d := d.isLt
  have b_b := b.isLt
  have b_o := o.isLt
  have b_S := S.toNat_le
  refine decode_of (BitVec.ofNat 32 (S.toNat * 2 ^ 31 + 0x33 * 2 ^ 24 + (place d 19 + place b 14 + place o 0))) next ?_ hw
  generalize hx : S.toNat * 2 ^ 31 + 0x33 * 2 ^ 24 + (place d 19 + place b 14 + place o 0) = x
  simp only [place] at hx
  refine raw33 _ _ (field_of x 24 7 0x33 (by omega) (by omega)) ?_
  have f_d := field_eq x 19 5 d (by omega) (by omega)
  have f_b := field_eq x 14 5 b (by omega) (by omega)
  have f_o := field_eq x 0 14 o (by omega) (by omega)
  have f_S := top_of x S (by omega)
  simp [decodeOp33, f_d, f_b, f_o, f_S]

theorem RoundTrip.ldSw (S : Bool) (d : BitVec 5) (b : BitVec 5) (o : BitVec 14) : RoundTrip.Statement (.ldSw S d b o) := by
  refine RoundTrip.of_word (wordOf S 0x34 (place d 19 + place b 14 + place o 0)) rfl fun hw next => ?_
  have b_d := d.isLt
  have b_b := b.isLt
  have b_o := o.isLt
  have b_S := S.toNat_le
  refine decode_of (BitVec.ofNat 32 (S.toNat * 2 ^ 31 + 0x34 * 2 ^ 24 + (place d 19 + place b 14 + place o 0))) next ?_ hw
  generalize hx : S.toNat * 2 ^ 31 + 0x34 * 2 ^ 24 + (place d 19 + place b 14 + place o 0) = x
  simp only [place] at hx
  refine raw34 _ _ (field_of x 24 7 0x34 (by omega) (by omega)) ?_
  have f_d := field_eq x 19 5 d (by omega) (by omega)
  have f_b := field_eq x 14 5 b (by omega) (by omega)
  have f_o := field_eq x 0 14 o (by omega) (by omega)
  have f_S := top_of x S (by omega)
  simp [decodeOp34, f_d, f_b, f_o, f_S]

theorem RoundTrip.ldZw (S : Bool) (d : BitVec 5) (b : BitVec 5) (o : BitVec 14) : RoundTrip.Statement (.ldZw S d b o) := by
  refine RoundTrip.of_word (wordOf S 0x35 (place d 19 + place b 14 + place o 0)) rfl fun hw next => ?_
  have b_d := d.isLt
  have b_b := b.isLt
  have b_o := o.isLt
  have b_S := S.toNat_le
  refine decode_of (BitVec.ofNat 32 (S.toNat * 2 ^ 31 + 0x35 * 2 ^ 24 + (place d 19 + place b 14 + place o 0))) next ?_ hw
  generalize hx : S.toNat * 2 ^ 31 + 0x35 * 2 ^ 24 + (place d 19 + place b 14 + place o 0) = x
  simp only [place] at hx
  refine raw35 _ _ (field_of x 24 7 0x35 (by omega) (by omega)) ?_
  have f_d := field_eq x 19 5 d (by omega) (by omega)
  have f_b := field_eq x 14 5 b (by omega) (by omega)
  have f_o := field_eq x 0 14 o (by omega) (by omega)
  have f_S := top_of x S (by omega)
  simp [decodeOp35, f_d, f_b, f_o, f_S]

theorem RoundTrip.ldD (S : Bool) (d : BitVec 5) (b : BitVec 5) (o : BitVec 14) : RoundTrip.Statement (.ldD S d b o) := by
  refine RoundTrip.of_word (wordOf S 0x36 (place d 19 + place b 14 + place o 0)) rfl fun hw next => ?_
  have b_d := d.isLt
  have b_b := b.isLt
  have b_o := o.isLt
  have b_S := S.toNat_le
  refine decode_of (BitVec.ofNat 32 (S.toNat * 2 ^ 31 + 0x36 * 2 ^ 24 + (place d 19 + place b 14 + place o 0))) next ?_ hw
  generalize hx : S.toNat * 2 ^ 31 + 0x36 * 2 ^ 24 + (place d 19 + place b 14 + place o 0) = x
  simp only [place] at hx
  refine raw36 _ _ (field_of x 24 7 0x36 (by omega) (by omega)) ?_
  have f_d := field_eq x 19 5 d (by omega) (by omega)
  have f_b := field_eq x 14 5 b (by omega) (by omega)
  have f_o := field_eq x 0 14 o (by omega) (by omega)
  have f_S := top_of x S (by omega)
  simp [decodeOp36, f_d, f_b, f_o, f_S]

theorem RoundTrip.ldC (S : Bool) (d : BitVec 5) (b : BitVec 5) (o : BitVec 14) : RoundTrip.Statement (.ldC S d b o) := by
  refine RoundTrip.of_word (wordOf S 0x37 (place d 19 + place b 14 + place o 0)) rfl fun hw next => ?_
  have b_d := d.isLt
  have b_b := b.isLt
  have b_o := o.isLt
  have b_S := S.toNat_le
  refine decode_of (BitVec.ofNat 32 (S.toNat * 2 ^ 31 + 0x37 * 2 ^ 24 + (place d 19 + place b 14 + place o 0))) next ?_ hw
  generalize hx : S.toNat * 2 ^ 31 + 0x37 * 2 ^ 24 + (place d 19 + place b 14 + place o 0) = x
  simp only [place] at hx
  refine raw37 _ _ (field_of x 24 7 0x37 (by omega) (by omega)) ?_
  have f_d := field_eq x 19 5 d (by omega) (by omega)
  have f_b := field_eq x 14 5 b (by omega) (by omega)
  have f_o := field_eq x 0 14 o (by omega) (by omega)
  have f_S := top_of x S (by omega)
  simp [decodeOp37, f_d, f_b, f_o, f_S]

theorem RoundTrip.stB (S : Bool) (d : BitVec 5) (b : BitVec 5) (o : BitVec 14) : RoundTrip.Statement (.stB S d b o) := by
  refine RoundTrip.of_word (wordOf S 0x38 (place d 19 + place b 14 + place o 0)) rfl fun hw next => ?_
  have b_d := d.isLt
  have b_b := b.isLt
  have b_o := o.isLt
  have b_S := S.toNat_le
  refine decode_of (BitVec.ofNat 32 (S.toNat * 2 ^ 31 + 0x38 * 2 ^ 24 + (place d 19 + place b 14 + place o 0))) next ?_ hw
  generalize hx : S.toNat * 2 ^ 31 + 0x38 * 2 ^ 24 + (place d 19 + place b 14 + place o 0) = x
  simp only [place] at hx
  refine raw38 _ _ (field_of x 24 7 0x38 (by omega) (by omega)) ?_
  have f_d := field_eq x 19 5 d (by omega) (by omega)
  have f_b := field_eq x 14 5 b (by omega) (by omega)
  have f_o := field_eq x 0 14 o (by omega) (by omega)
  have f_S := top_of x S (by omega)
  simp [decodeOp38, f_d, f_b, f_o, f_S]

theorem RoundTrip.stH (S : Bool) (d : BitVec 5) (b : BitVec 5) (o : BitVec 14) : RoundTrip.Statement (.stH S d b o) := by
  refine RoundTrip.of_word (wordOf S 0x39 (place d 19 + place b 14 + place o 0)) rfl fun hw next => ?_
  have b_d := d.isLt
  have b_b := b.isLt
  have b_o := o.isLt
  have b_S := S.toNat_le
  refine decode_of (BitVec.ofNat 32 (S.toNat * 2 ^ 31 + 0x39 * 2 ^ 24 + (place d 19 + place b 14 + place o 0))) next ?_ hw
  generalize hx : S.toNat * 2 ^ 31 + 0x39 * 2 ^ 24 + (place d 19 + place b 14 + place o 0) = x
  simp only [place] at hx
  refine raw39 _ _ (field_of x 24 7 0x39 (by omega) (by omega)) ?_
  have f_d := field_eq x 19 5 d (by omega) (by omega)
  have f_b := field_eq x 14 5 b (by omega) (by omega)
  have f_o := field_eq x 0 14 o (by omega) (by omega)
  have f_S := top_of x S (by omega)
  simp [decodeOp39, f_d, f_b, f_o, f_S]

theorem RoundTrip.stW (S : Bool) (d : BitVec 5) (b : BitVec 5) (o : BitVec 14) : RoundTrip.Statement (.stW S d b o) := by
  refine RoundTrip.of_word (wordOf S 0x3A (place d 19 + place b 14 + place o 0)) rfl fun hw next => ?_
  have b_d := d.isLt
  have b_b := b.isLt
  have b_o := o.isLt
  have b_S := S.toNat_le
  refine decode_of (BitVec.ofNat 32 (S.toNat * 2 ^ 31 + 0x3A * 2 ^ 24 + (place d 19 + place b 14 + place o 0))) next ?_ hw
  generalize hx : S.toNat * 2 ^ 31 + 0x3A * 2 ^ 24 + (place d 19 + place b 14 + place o 0) = x
  simp only [place] at hx
  refine raw3A _ _ (field_of x 24 7 0x3A (by omega) (by omega)) ?_
  have f_d := field_eq x 19 5 d (by omega) (by omega)
  have f_b := field_eq x 14 5 b (by omega) (by omega)
  have f_o := field_eq x 0 14 o (by omega) (by omega)
  have f_S := top_of x S (by omega)
  simp [decodeOp3A, f_d, f_b, f_o, f_S]

theorem RoundTrip.stD (S : Bool) (d : BitVec 5) (b : BitVec 5) (o : BitVec 14) : RoundTrip.Statement (.stD S d b o) := by
  refine RoundTrip.of_word (wordOf S 0x3B (place d 19 + place b 14 + place o 0)) rfl fun hw next => ?_
  have b_d := d.isLt
  have b_b := b.isLt
  have b_o := o.isLt
  have b_S := S.toNat_le
  refine decode_of (BitVec.ofNat 32 (S.toNat * 2 ^ 31 + 0x3B * 2 ^ 24 + (place d 19 + place b 14 + place o 0))) next ?_ hw
  generalize hx : S.toNat * 2 ^ 31 + 0x3B * 2 ^ 24 + (place d 19 + place b 14 + place o 0) = x
  simp only [place] at hx
  refine raw3B _ _ (field_of x 24 7 0x3B (by omega) (by omega)) ?_
  have f_d := field_eq x 19 5 d (by omega) (by omega)
  have f_b := field_eq x 14 5 b (by omega) (by omega)
  have f_o := field_eq x 0 14 o (by omega) (by omega)
  have f_S := top_of x S (by omega)
  simp [decodeOp3B, f_d, f_b, f_o, f_S]

theorem RoundTrip.stC (S : Bool) (d : BitVec 5) (b : BitVec 5) (o : BitVec 14) : RoundTrip.Statement (.stC S d b o) := by
  refine RoundTrip.of_word (wordOf S 0x3C (place d 19 + place b 14 + place o 0)) rfl fun hw next => ?_
  have b_d := d.isLt
  have b_b := b.isLt
  have b_o := o.isLt
  have b_S := S.toNat_le
  refine decode_of (BitVec.ofNat 32 (S.toNat * 2 ^ 31 + 0x3C * 2 ^ 24 + (place d 19 + place b 14 + place o 0))) next ?_ hw
  generalize hx : S.toNat * 2 ^ 31 + 0x3C * 2 ^ 24 + (place d 19 + place b 14 + place o 0) = x
  simp only [place] at hx
  refine raw3C _ _ (field_of x 24 7 0x3C (by omega) (by omega)) ?_
  have f_d := field_eq x 19 5 d (by omega) (by omega)
  have f_b := field_eq x 14 5 b (by omega) (by omega)
  have f_o := field_eq x 0 14 o (by omega) (by omega)
  have f_S := top_of x S (by omega)
  simp [decodeOp3C, f_d, f_b, f_o, f_S]

theorem RoundTrip.amoAdd (S : Bool) (d : BitVec 5) (a : BitVec 5) (b : BitVec 5) (z : BitVec 1) : RoundTrip.Statement (.amoAdd S d a b z) := by
  refine RoundTrip.of_word (wordOf S 0x3D (place d 19 + place a 14 + place b 9 + place z 8)) rfl fun hw next => ?_
  have b_d := d.isLt
  have b_a := a.isLt
  have b_b := b.isLt
  have b_z := z.isLt
  have b_S := S.toNat_le
  refine decode_of (BitVec.ofNat 32 (S.toNat * 2 ^ 31 + 0x3D * 2 ^ 24 + (place d 19 + place a 14 + place b 9 + place z 8))) next ?_ hw
  generalize hx : S.toNat * 2 ^ 31 + 0x3D * 2 ^ 24 + (place d 19 + place a 14 + place b 9 + place z 8) = x
  simp only [place] at hx
  refine raw3D _ _ (field_of x 24 7 0x3D (by omega) (by omega)) ?_
  have c_1 := field_of x 0 4 0 (by omega) (by omega)
  have c_2 := field_of x 4 4 0 (by omega) (by omega)
  have f_d := field_eq x 19 5 d (by omega) (by omega)
  have f_a := field_eq x 14 5 a (by omega) (by omega)
  have f_b := field_eq x 9 5 b (by omega) (by omega)
  have f_z := field_eq x 8 1 z (by omega) (by omega)
  have f_S := top_of x S (by omega)
  simp [decodeOp3D, c_1, c_2, f_d, f_a, f_b, f_z, f_S]

theorem RoundTrip.amoAnd (S : Bool) (d : BitVec 5) (a : BitVec 5) (b : BitVec 5) (z : BitVec 1) : RoundTrip.Statement (.amoAnd S d a b z) := by
  refine RoundTrip.of_word (wordOf S 0x3D (place d 19 + place a 14 + place b 9 + place z 8 + 0x1)) rfl fun hw next => ?_
  have b_d := d.isLt
  have b_a := a.isLt
  have b_b := b.isLt
  have b_z := z.isLt
  have b_S := S.toNat_le
  refine decode_of (BitVec.ofNat 32 (S.toNat * 2 ^ 31 + 0x3D * 2 ^ 24 + (place d 19 + place a 14 + place b 9 + place z 8 + 0x1))) next ?_ hw
  generalize hx : S.toNat * 2 ^ 31 + 0x3D * 2 ^ 24 + (place d 19 + place a 14 + place b 9 + place z 8 + 0x1) = x
  simp only [place] at hx
  refine raw3D _ _ (field_of x 24 7 0x3D (by omega) (by omega)) ?_
  have c_1 := field_of x 0 4 1 (by omega) (by omega)
  have c_2 := field_of x 4 4 0 (by omega) (by omega)
  have f_d := field_eq x 19 5 d (by omega) (by omega)
  have f_a := field_eq x 14 5 a (by omega) (by omega)
  have f_b := field_eq x 9 5 b (by omega) (by omega)
  have f_z := field_eq x 8 1 z (by omega) (by omega)
  have f_S := top_of x S (by omega)
  simp [decodeOp3D, c_1, c_2, f_d, f_a, f_b, f_z, f_S]

theorem RoundTrip.amoOr (S : Bool) (d : BitVec 5) (a : BitVec 5) (b : BitVec 5) (z : BitVec 1) : RoundTrip.Statement (.amoOr S d a b z) := by
  refine RoundTrip.of_word (wordOf S 0x3D (place d 19 + place a 14 + place b 9 + place z 8 + 0x2)) rfl fun hw next => ?_
  have b_d := d.isLt
  have b_a := a.isLt
  have b_b := b.isLt
  have b_z := z.isLt
  have b_S := S.toNat_le
  refine decode_of (BitVec.ofNat 32 (S.toNat * 2 ^ 31 + 0x3D * 2 ^ 24 + (place d 19 + place a 14 + place b 9 + place z 8 + 0x2))) next ?_ hw
  generalize hx : S.toNat * 2 ^ 31 + 0x3D * 2 ^ 24 + (place d 19 + place a 14 + place b 9 + place z 8 + 0x2) = x
  simp only [place] at hx
  refine raw3D _ _ (field_of x 24 7 0x3D (by omega) (by omega)) ?_
  have c_1 := field_of x 0 4 2 (by omega) (by omega)
  have c_2 := field_of x 4 4 0 (by omega) (by omega)
  have f_d := field_eq x 19 5 d (by omega) (by omega)
  have f_a := field_eq x 14 5 a (by omega) (by omega)
  have f_b := field_eq x 9 5 b (by omega) (by omega)
  have f_z := field_eq x 8 1 z (by omega) (by omega)
  have f_S := top_of x S (by omega)
  simp [decodeOp3D, c_1, c_2, f_d, f_a, f_b, f_z, f_S]

theorem RoundTrip.amoXor (S : Bool) (d : BitVec 5) (a : BitVec 5) (b : BitVec 5) (z : BitVec 1) : RoundTrip.Statement (.amoXor S d a b z) := by
  refine RoundTrip.of_word (wordOf S 0x3D (place d 19 + place a 14 + place b 9 + place z 8 + 0x3)) rfl fun hw next => ?_
  have b_d := d.isLt
  have b_a := a.isLt
  have b_b := b.isLt
  have b_z := z.isLt
  have b_S := S.toNat_le
  refine decode_of (BitVec.ofNat 32 (S.toNat * 2 ^ 31 + 0x3D * 2 ^ 24 + (place d 19 + place a 14 + place b 9 + place z 8 + 0x3))) next ?_ hw
  generalize hx : S.toNat * 2 ^ 31 + 0x3D * 2 ^ 24 + (place d 19 + place a 14 + place b 9 + place z 8 + 0x3) = x
  simp only [place] at hx
  refine raw3D _ _ (field_of x 24 7 0x3D (by omega) (by omega)) ?_
  have c_1 := field_of x 0 4 3 (by omega) (by omega)
  have c_2 := field_of x 4 4 0 (by omega) (by omega)
  have f_d := field_eq x 19 5 d (by omega) (by omega)
  have f_a := field_eq x 14 5 a (by omega) (by omega)
  have f_b := field_eq x 9 5 b (by omega) (by omega)
  have f_z := field_eq x 8 1 z (by omega) (by omega)
  have f_S := top_of x S (by omega)
  simp [decodeOp3D, c_1, c_2, f_d, f_a, f_b, f_z, f_S]

theorem RoundTrip.amoSwap (S : Bool) (d : BitVec 5) (a : BitVec 5) (b : BitVec 5) (z : BitVec 1) : RoundTrip.Statement (.amoSwap S d a b z) := by
  refine RoundTrip.of_word (wordOf S 0x3D (place d 19 + place a 14 + place b 9 + place z 8 + 0x4)) rfl fun hw next => ?_
  have b_d := d.isLt
  have b_a := a.isLt
  have b_b := b.isLt
  have b_z := z.isLt
  have b_S := S.toNat_le
  refine decode_of (BitVec.ofNat 32 (S.toNat * 2 ^ 31 + 0x3D * 2 ^ 24 + (place d 19 + place a 14 + place b 9 + place z 8 + 0x4))) next ?_ hw
  generalize hx : S.toNat * 2 ^ 31 + 0x3D * 2 ^ 24 + (place d 19 + place a 14 + place b 9 + place z 8 + 0x4) = x
  simp only [place] at hx
  refine raw3D _ _ (field_of x 24 7 0x3D (by omega) (by omega)) ?_
  have c_1 := field_of x 0 4 4 (by omega) (by omega)
  have c_2 := field_of x 4 4 0 (by omega) (by omega)
  have f_d := field_eq x 19 5 d (by omega) (by omega)
  have f_a := field_eq x 14 5 a (by omega) (by omega)
  have f_b := field_eq x 9 5 b (by omega) (by omega)
  have f_z := field_eq x 8 1 z (by omega) (by omega)
  have f_S := top_of x S (by omega)
  simp [decodeOp3D, c_1, c_2, f_d, f_a, f_b, f_z, f_S]

theorem RoundTrip.amoSmax (S : Bool) (d : BitVec 5) (a : BitVec 5) (b : BitVec 5) (z : BitVec 1) : RoundTrip.Statement (.amoSmax S d a b z) := by
  refine RoundTrip.of_word (wordOf S 0x3D (place d 19 + place a 14 + place b 9 + place z 8 + 0x5)) rfl fun hw next => ?_
  have b_d := d.isLt
  have b_a := a.isLt
  have b_b := b.isLt
  have b_z := z.isLt
  have b_S := S.toNat_le
  refine decode_of (BitVec.ofNat 32 (S.toNat * 2 ^ 31 + 0x3D * 2 ^ 24 + (place d 19 + place a 14 + place b 9 + place z 8 + 0x5))) next ?_ hw
  generalize hx : S.toNat * 2 ^ 31 + 0x3D * 2 ^ 24 + (place d 19 + place a 14 + place b 9 + place z 8 + 0x5) = x
  simp only [place] at hx
  refine raw3D _ _ (field_of x 24 7 0x3D (by omega) (by omega)) ?_
  have c_1 := field_of x 0 4 5 (by omega) (by omega)
  have c_2 := field_of x 4 4 0 (by omega) (by omega)
  have f_d := field_eq x 19 5 d (by omega) (by omega)
  have f_a := field_eq x 14 5 a (by omega) (by omega)
  have f_b := field_eq x 9 5 b (by omega) (by omega)
  have f_z := field_eq x 8 1 z (by omega) (by omega)
  have f_S := top_of x S (by omega)
  simp [decodeOp3D, c_1, c_2, f_d, f_a, f_b, f_z, f_S]

theorem RoundTrip.amoSmin (S : Bool) (d : BitVec 5) (a : BitVec 5) (b : BitVec 5) (z : BitVec 1) : RoundTrip.Statement (.amoSmin S d a b z) := by
  refine RoundTrip.of_word (wordOf S 0x3D (place d 19 + place a 14 + place b 9 + place z 8 + 0x6)) rfl fun hw next => ?_
  have b_d := d.isLt
  have b_a := a.isLt
  have b_b := b.isLt
  have b_z := z.isLt
  have b_S := S.toNat_le
  refine decode_of (BitVec.ofNat 32 (S.toNat * 2 ^ 31 + 0x3D * 2 ^ 24 + (place d 19 + place a 14 + place b 9 + place z 8 + 0x6))) next ?_ hw
  generalize hx : S.toNat * 2 ^ 31 + 0x3D * 2 ^ 24 + (place d 19 + place a 14 + place b 9 + place z 8 + 0x6) = x
  simp only [place] at hx
  refine raw3D _ _ (field_of x 24 7 0x3D (by omega) (by omega)) ?_
  have c_1 := field_of x 0 4 6 (by omega) (by omega)
  have c_2 := field_of x 4 4 0 (by omega) (by omega)
  have f_d := field_eq x 19 5 d (by omega) (by omega)
  have f_a := field_eq x 14 5 a (by omega) (by omega)
  have f_b := field_eq x 9 5 b (by omega) (by omega)
  have f_z := field_eq x 8 1 z (by omega) (by omega)
  have f_S := top_of x S (by omega)
  simp [decodeOp3D, c_1, c_2, f_d, f_a, f_b, f_z, f_S]

theorem RoundTrip.amoCas (S : Bool) (d : BitVec 5) (a : BitVec 5) (b : BitVec 5) (z : BitVec 1) : RoundTrip.Statement (.amoCas S d a b z) := by
  refine RoundTrip.of_word (wordOf S 0x3D (place d 19 + place a 14 + place b 9 + place z 8 + 0x7)) rfl fun hw next => ?_
  have b_d := d.isLt
  have b_a := a.isLt
  have b_b := b.isLt
  have b_z := z.isLt
  have b_S := S.toNat_le
  refine decode_of (BitVec.ofNat 32 (S.toNat * 2 ^ 31 + 0x3D * 2 ^ 24 + (place d 19 + place a 14 + place b 9 + place z 8 + 0x7))) next ?_ hw
  generalize hx : S.toNat * 2 ^ 31 + 0x3D * 2 ^ 24 + (place d 19 + place a 14 + place b 9 + place z 8 + 0x7) = x
  simp only [place] at hx
  refine raw3D _ _ (field_of x 24 7 0x3D (by omega) (by omega)) ?_
  have c_1 := field_of x 0 4 7 (by omega) (by omega)
  have c_2 := field_of x 4 4 0 (by omega) (by omega)
  have f_d := field_eq x 19 5 d (by omega) (by omega)
  have f_a := field_eq x 14 5 a (by omega) (by omega)
  have f_b := field_eq x 9 5 b (by omega) (by omega)
  have f_z := field_eq x 8 1 z (by omega) (by omega)
  have f_S := top_of x S (by omega)
  simp [decodeOp3D, c_1, c_2, f_d, f_a, f_b, f_z, f_S]

theorem RoundTrip.ldAcq (S : Bool) (d : BitVec 5) (a : BitVec 5) (z : BitVec 1) (p : BitVec 4) : RoundTrip.Statement (.ldAcq S d a z p) := by
  refine RoundTrip.of_word (wordOf S 0x3D (place d 19 + place a 14 + place z 8 + place p 4 + 0x8)) rfl fun hw next => ?_
  have b_d := d.isLt
  have b_a := a.isLt
  have b_z := z.isLt
  have b_p := p.isLt
  have b_S := S.toNat_le
  refine decode_of (BitVec.ofNat 32 (S.toNat * 2 ^ 31 + 0x3D * 2 ^ 24 + (place d 19 + place a 14 + place z 8 + place p 4 + 0x8))) next ?_ hw
  generalize hx : S.toNat * 2 ^ 31 + 0x3D * 2 ^ 24 + (place d 19 + place a 14 + place z 8 + place p 4 + 0x8) = x
  simp only [place] at hx
  refine raw3D _ _ (field_of x 24 7 0x3D (by omega) (by omega)) ?_
  have c_1 := field_of x 0 4 8 (by omega) (by omega)
  have c_2 := field_of x 9 5 0 (by omega) (by omega)
  have f_d := field_eq x 19 5 d (by omega) (by omega)
  have f_a := field_eq x 14 5 a (by omega) (by omega)
  have f_z := field_eq x 8 1 z (by omega) (by omega)
  have f_p := field_eq x 4 4 p (by omega) (by omega)
  have f_S := top_of x S (by omega)
  simp [decodeOp3D, c_1, c_2, f_d, f_a, f_z, f_p, f_S]

theorem RoundTrip.stRel (S : Bool) (a : BitVec 5) (b : BitVec 5) (z : BitVec 1) (p : BitVec 4) : RoundTrip.Statement (.stRel S a b z p) := by
  refine RoundTrip.of_word (wordOf S 0x3D (place a 14 + place b 9 + place z 8 + place p 4 + 0x9)) rfl fun hw next => ?_
  have b_a := a.isLt
  have b_b := b.isLt
  have b_z := z.isLt
  have b_p := p.isLt
  have b_S := S.toNat_le
  refine decode_of (BitVec.ofNat 32 (S.toNat * 2 ^ 31 + 0x3D * 2 ^ 24 + (place a 14 + place b 9 + place z 8 + place p 4 + 0x9))) next ?_ hw
  generalize hx : S.toNat * 2 ^ 31 + 0x3D * 2 ^ 24 + (place a 14 + place b 9 + place z 8 + place p 4 + 0x9) = x
  simp only [place] at hx
  refine raw3D _ _ (field_of x 24 7 0x3D (by omega) (by omega)) ?_
  have c_1 := field_of x 0 4 9 (by omega) (by omega)
  have c_2 := field_of x 19 5 0 (by omega) (by omega)
  have f_a := field_eq x 14 5 a (by omega) (by omega)
  have f_b := field_eq x 9 5 b (by omega) (by omega)
  have f_z := field_eq x 8 1 z (by omega) (by omega)
  have f_p := field_eq x 4 4 p (by omega) (by omega)
  have f_S := top_of x S (by omega)
  simp [decodeOp3D, c_1, c_2, f_a, f_b, f_z, f_p, f_S]

theorem RoundTrip.fenceSl (S : Bool) : RoundTrip.Statement (.fenceSl S) := by
  refine RoundTrip.of_word (wordOf S 0x3E (0)) rfl fun hw next => ?_
  have b_S := S.toNat_le
  refine decode_of (BitVec.ofNat 32 (S.toNat * 2 ^ 31 + 0x3E * 2 ^ 24 + (0))) next ?_ hw
  generalize hx : S.toNat * 2 ^ 31 + 0x3E * 2 ^ 24 + (0) = x
  refine raw3E _ _ (field_of x 24 7 0x3E (by omega) (by omega)) ?_
  have c_1 := field_of x 0 4 0 (by omega) (by omega)
  have c_2 := field_of x 4 4 0 (by omega) (by omega)
  have c_3 := field_of x 8 16 0 (by omega) (by omega)
  have f_S := top_of x S (by omega)
  simp [decodeOp3E, c_1, c_2, c_3, f_S]

theorem RoundTrip.fenceAcq (S : Bool) (p : BitVec 4) : RoundTrip.Statement (.fenceAcq S p) := by
  refine RoundTrip.of_word (wordOf S 0x3E (place p 4 + 0x1)) rfl fun hw next => ?_
  have b_p := p.isLt
  have b_S := S.toNat_le
  refine decode_of (BitVec.ofNat 32 (S.toNat * 2 ^ 31 + 0x3E * 2 ^ 24 + (place p 4 + 0x1))) next ?_ hw
  generalize hx : S.toNat * 2 ^ 31 + 0x3E * 2 ^ 24 + (place p 4 + 0x1) = x
  simp only [place] at hx
  refine raw3E _ _ (field_of x 24 7 0x3E (by omega) (by omega)) ?_
  have c_1 := field_of x 0 4 1 (by omega) (by omega)
  have c_2 := field_of x 8 16 0 (by omega) (by omega)
  have f_p := field_eq x 4 4 p (by omega) (by omega)
  have f_S := top_of x S (by omega)
  simp [decodeOp3E, c_1, c_2, f_p, f_S]

theorem RoundTrip.fenceRel (S : Bool) (p : BitVec 4) : RoundTrip.Statement (.fenceRel S p) := by
  refine RoundTrip.of_word (wordOf S 0x3E (place p 4 + 0x2)) rfl fun hw next => ?_
  have b_p := p.isLt
  have b_S := S.toNat_le
  refine decode_of (BitVec.ofNat 32 (S.toNat * 2 ^ 31 + 0x3E * 2 ^ 24 + (place p 4 + 0x2))) next ?_ hw
  generalize hx : S.toNat * 2 ^ 31 + 0x3E * 2 ^ 24 + (place p 4 + 0x2) = x
  simp only [place] at hx
  refine raw3E _ _ (field_of x 24 7 0x3E (by omega) (by omega)) ?_
  have c_1 := field_of x 0 4 2 (by omega) (by omega)
  have c_2 := field_of x 8 16 0 (by omega) (by omega)
  have f_p := field_eq x 4 4 p (by omega) (by omega)
  have f_S := top_of x S (by omega)
  simp [decodeOp3E, c_1, c_2, f_p, f_S]

theorem RoundTrip.fenceFull (S : Bool) (p : BitVec 4) : RoundTrip.Statement (.fenceFull S p) := by
  refine RoundTrip.of_word (wordOf S 0x3E (place p 4 + 0x3)) rfl fun hw next => ?_
  have b_p := p.isLt
  have b_S := S.toNat_le
  refine decode_of (BitVec.ofNat 32 (S.toNat * 2 ^ 31 + 0x3E * 2 ^ 24 + (place p 4 + 0x3))) next ?_ hw
  generalize hx : S.toNat * 2 ^ 31 + 0x3E * 2 ^ 24 + (place p 4 + 0x3) = x
  simp only [place] at hx
  refine raw3E _ _ (field_of x 24 7 0x3E (by omega) (by omega)) ?_
  have c_1 := field_of x 0 4 3 (by omega) (by omega)
  have c_2 := field_of x 8 16 0 (by omega) (by omega)
  have f_p := field_eq x 4 4 p (by omega) (by omega)
  have f_S := top_of x S (by omega)
  simp [decodeOp3E, c_1, c_2, f_p, f_S]

theorem RoundTrip.sbind (S : Bool) (d : BitVec 5) (a : BitVec 5) (b : BitVec 5) (n : BitVec 2) (r : BitVec 1) (z : BitVec 2) : RoundTrip.Statement (.sbind S d a b n r z) := by
  refine RoundTrip.of_word (wordOf S 0x3F (place d 19 + place a 14 + place b 9 + place n 3 + place r 2 + place z 0)) rfl fun hw next => ?_
  have b_d := d.isLt
  have b_a := a.isLt
  have b_b := b.isLt
  have b_n := n.isLt
  have b_r := r.isLt
  have b_z := z.isLt
  have b_S := S.toNat_le
  refine decode_of (BitVec.ofNat 32 (S.toNat * 2 ^ 31 + 0x3F * 2 ^ 24 + (place d 19 + place a 14 + place b 9 + place n 3 + place r 2 + place z 0))) next ?_ hw
  generalize hx : S.toNat * 2 ^ 31 + 0x3F * 2 ^ 24 + (place d 19 + place a 14 + place b 9 + place n 3 + place r 2 + place z 0) = x
  simp only [place] at hx
  refine raw3F _ _ (field_of x 24 7 0x3F (by omega) (by omega)) ?_
  have c_1 := field_of x 5 3 0 (by omega) (by omega)
  have c_2 := field_of x 8 1 0 (by omega) (by omega)
  have f_d := field_eq x 19 5 d (by omega) (by omega)
  have f_a := field_eq x 14 5 a (by omega) (by omega)
  have f_b := field_eq x 9 5 b (by omega) (by omega)
  have f_n := field_eq x 3 2 n (by omega) (by omega)
  have f_r := field_eq x 2 1 r (by omega) (by omega)
  have f_z := field_eq x 0 2 z (by omega) (by omega)
  have f_S := top_of x S (by omega)
  simp [decodeOp3F, c_1, c_2, f_d, f_a, f_b, f_n, f_r, f_z, f_S]

theorem RoundTrip.sunbind (S : Bool) (d : BitVec 5) (n : BitVec 2) : RoundTrip.Statement (.sunbind S d n) := by
  refine RoundTrip.of_word (wordOf S 0x3F (place d 19 + 0x100 + place n 3)) rfl fun hw next => ?_
  have b_d := d.isLt
  have b_n := n.isLt
  have b_S := S.toNat_le
  refine decode_of (BitVec.ofNat 32 (S.toNat * 2 ^ 31 + 0x3F * 2 ^ 24 + (place d 19 + 0x100 + place n 3))) next ?_ hw
  generalize hx : S.toNat * 2 ^ 31 + 0x3F * 2 ^ 24 + (place d 19 + 0x100 + place n 3) = x
  simp only [place] at hx
  refine raw3F _ _ (field_of x 24 7 0x3F (by omega) (by omega)) ?_
  have c_1 := field_of x 0 3 0 (by omega) (by omega)
  have c_2 := field_of x 5 3 0 (by omega) (by omega)
  have c_3 := field_of x 8 1 1 (by omega) (by omega)
  have c_4 := field_of x 9 10 0 (by omega) (by omega)
  have f_d := field_eq x 19 5 d (by omega) (by omega)
  have f_n := field_eq x 3 2 n (by omega) (by omega)
  have f_S := top_of x S (by omega)
  simp [decodeOp3F, c_1, c_2, c_3, c_4, f_d, f_n, f_S]

theorem RoundTrip.vintAdd (S : Bool) (d : BitVec 4) (a : BitVec 4) (b : BitVec 4) (m : BitVec 5) (t : BitVec 2) : RoundTrip.Statement (.vintAdd S d a b m t) := by
  refine RoundTrip.of_word (wordOf S 0x40 (place d 20 + place a 16 + place b 12 + place m 7 + place t 5)) rfl fun hw next => ?_
  have b_d := d.isLt
  have b_a := a.isLt
  have b_b := b.isLt
  have b_m := m.isLt
  have b_t := t.isLt
  have b_S := S.toNat_le
  refine decode_of (BitVec.ofNat 32 (S.toNat * 2 ^ 31 + 0x40 * 2 ^ 24 + (place d 20 + place a 16 + place b 12 + place m 7 + place t 5))) next ?_ hw
  generalize hx : S.toNat * 2 ^ 31 + 0x40 * 2 ^ 24 + (place d 20 + place a 16 + place b 12 + place m 7 + place t 5) = x
  simp only [place] at hx
  refine raw40 _ _ (field_of x 24 7 0x40 (by omega) (by omega)) ?_
  have c_1 := field_of x 0 5 0 (by omega) (by omega)
  have f_d := field_eq x 20 4 d (by omega) (by omega)
  have f_a := field_eq x 16 4 a (by omega) (by omega)
  have f_b := field_eq x 12 4 b (by omega) (by omega)
  have f_m := field_eq x 7 5 m (by omega) (by omega)
  have f_t := field_eq x 5 2 t (by omega) (by omega)
  have f_S := top_of x S (by omega)
  simp [decodeOp40, c_1, f_d, f_a, f_b, f_m, f_t, f_S]

theorem RoundTrip.vintSub (S : Bool) (d : BitVec 4) (a : BitVec 4) (b : BitVec 4) (m : BitVec 5) (t : BitVec 2) : RoundTrip.Statement (.vintSub S d a b m t) := by
  refine RoundTrip.of_word (wordOf S 0x40 (place d 20 + place a 16 + place b 12 + place m 7 + place t 5 + 0x1)) rfl fun hw next => ?_
  have b_d := d.isLt
  have b_a := a.isLt
  have b_b := b.isLt
  have b_m := m.isLt
  have b_t := t.isLt
  have b_S := S.toNat_le
  refine decode_of (BitVec.ofNat 32 (S.toNat * 2 ^ 31 + 0x40 * 2 ^ 24 + (place d 20 + place a 16 + place b 12 + place m 7 + place t 5 + 0x1))) next ?_ hw
  generalize hx : S.toNat * 2 ^ 31 + 0x40 * 2 ^ 24 + (place d 20 + place a 16 + place b 12 + place m 7 + place t 5 + 0x1) = x
  simp only [place] at hx
  refine raw40 _ _ (field_of x 24 7 0x40 (by omega) (by omega)) ?_
  have c_1 := field_of x 0 5 1 (by omega) (by omega)
  have f_d := field_eq x 20 4 d (by omega) (by omega)
  have f_a := field_eq x 16 4 a (by omega) (by omega)
  have f_b := field_eq x 12 4 b (by omega) (by omega)
  have f_m := field_eq x 7 5 m (by omega) (by omega)
  have f_t := field_eq x 5 2 t (by omega) (by omega)
  have f_S := top_of x S (by omega)
  simp [decodeOp40, c_1, f_d, f_a, f_b, f_m, f_t, f_S]

theorem RoundTrip.vintAdds (S : Bool) (d : BitVec 4) (a : BitVec 4) (b : BitVec 4) (m : BitVec 5) (t : BitVec 2) : RoundTrip.Statement (.vintAdds S d a b m t) := by
  refine RoundTrip.of_word (wordOf S 0x40 (place d 20 + place a 16 + place b 12 + place m 7 + place t 5 + 0x2)) rfl fun hw next => ?_
  have b_d := d.isLt
  have b_a := a.isLt
  have b_b := b.isLt
  have b_m := m.isLt
  have b_t := t.isLt
  have b_S := S.toNat_le
  refine decode_of (BitVec.ofNat 32 (S.toNat * 2 ^ 31 + 0x40 * 2 ^ 24 + (place d 20 + place a 16 + place b 12 + place m 7 + place t 5 + 0x2))) next ?_ hw
  generalize hx : S.toNat * 2 ^ 31 + 0x40 * 2 ^ 24 + (place d 20 + place a 16 + place b 12 + place m 7 + place t 5 + 0x2) = x
  simp only [place] at hx
  refine raw40 _ _ (field_of x 24 7 0x40 (by omega) (by omega)) ?_
  have c_1 := field_of x 0 5 2 (by omega) (by omega)
  have f_d := field_eq x 20 4 d (by omega) (by omega)
  have f_a := field_eq x 16 4 a (by omega) (by omega)
  have f_b := field_eq x 12 4 b (by omega) (by omega)
  have f_m := field_eq x 7 5 m (by omega) (by omega)
  have f_t := field_eq x 5 2 t (by omega) (by omega)
  have f_S := top_of x S (by omega)
  simp [decodeOp40, c_1, f_d, f_a, f_b, f_m, f_t, f_S]

theorem RoundTrip.vintSubs (S : Bool) (d : BitVec 4) (a : BitVec 4) (b : BitVec 4) (m : BitVec 5) (t : BitVec 2) : RoundTrip.Statement (.vintSubs S d a b m t) := by
  refine RoundTrip.of_word (wordOf S 0x40 (place d 20 + place a 16 + place b 12 + place m 7 + place t 5 + 0x3)) rfl fun hw next => ?_
  have b_d := d.isLt
  have b_a := a.isLt
  have b_b := b.isLt
  have b_m := m.isLt
  have b_t := t.isLt
  have b_S := S.toNat_le
  refine decode_of (BitVec.ofNat 32 (S.toNat * 2 ^ 31 + 0x40 * 2 ^ 24 + (place d 20 + place a 16 + place b 12 + place m 7 + place t 5 + 0x3))) next ?_ hw
  generalize hx : S.toNat * 2 ^ 31 + 0x40 * 2 ^ 24 + (place d 20 + place a 16 + place b 12 + place m 7 + place t 5 + 0x3) = x
  simp only [place] at hx
  refine raw40 _ _ (field_of x 24 7 0x40 (by omega) (by omega)) ?_
  have c_1 := field_of x 0 5 3 (by omega) (by omega)
  have f_d := field_eq x 20 4 d (by omega) (by omega)
  have f_a := field_eq x 16 4 a (by omega) (by omega)
  have f_b := field_eq x 12 4 b (by omega) (by omega)
  have f_m := field_eq x 7 5 m (by omega) (by omega)
  have f_t := field_eq x 5 2 t (by omega) (by omega)
  have f_S := top_of x S (by omega)
  simp [decodeOp40, c_1, f_d, f_a, f_b, f_m, f_t, f_S]

theorem RoundTrip.vintMul (S : Bool) (d : BitVec 4) (a : BitVec 4) (b : BitVec 4) (m : BitVec 5) (t : BitVec 2) : RoundTrip.Statement (.vintMul S d a b m t) := by
  refine RoundTrip.of_word (wordOf S 0x40 (place d 20 + place a 16 + place b 12 + place m 7 + place t 5 + 0x4)) rfl fun hw next => ?_
  have b_d := d.isLt
  have b_a := a.isLt
  have b_b := b.isLt
  have b_m := m.isLt
  have b_t := t.isLt
  have b_S := S.toNat_le
  refine decode_of (BitVec.ofNat 32 (S.toNat * 2 ^ 31 + 0x40 * 2 ^ 24 + (place d 20 + place a 16 + place b 12 + place m 7 + place t 5 + 0x4))) next ?_ hw
  generalize hx : S.toNat * 2 ^ 31 + 0x40 * 2 ^ 24 + (place d 20 + place a 16 + place b 12 + place m 7 + place t 5 + 0x4) = x
  simp only [place] at hx
  refine raw40 _ _ (field_of x 24 7 0x40 (by omega) (by omega)) ?_
  have c_1 := field_of x 0 5 4 (by omega) (by omega)
  have f_d := field_eq x 20 4 d (by omega) (by omega)
  have f_a := field_eq x 16 4 a (by omega) (by omega)
  have f_b := field_eq x 12 4 b (by omega) (by omega)
  have f_m := field_eq x 7 5 m (by omega) (by omega)
  have f_t := field_eq x 5 2 t (by omega) (by omega)
  have f_S := top_of x S (by omega)
  simp [decodeOp40, c_1, f_d, f_a, f_b, f_m, f_t, f_S]

theorem RoundTrip.vintMulh (S : Bool) (d : BitVec 4) (a : BitVec 4) (b : BitVec 4) (m : BitVec 5) (t : BitVec 2) : RoundTrip.Statement (.vintMulh S d a b m t) := by
  refine RoundTrip.of_word (wordOf S 0x40 (place d 20 + place a 16 + place b 12 + place m 7 + place t 5 + 0x5)) rfl fun hw next => ?_
  have b_d := d.isLt
  have b_a := a.isLt
  have b_b := b.isLt
  have b_m := m.isLt
  have b_t := t.isLt
  have b_S := S.toNat_le
  refine decode_of (BitVec.ofNat 32 (S.toNat * 2 ^ 31 + 0x40 * 2 ^ 24 + (place d 20 + place a 16 + place b 12 + place m 7 + place t 5 + 0x5))) next ?_ hw
  generalize hx : S.toNat * 2 ^ 31 + 0x40 * 2 ^ 24 + (place d 20 + place a 16 + place b 12 + place m 7 + place t 5 + 0x5) = x
  simp only [place] at hx
  refine raw40 _ _ (field_of x 24 7 0x40 (by omega) (by omega)) ?_
  have c_1 := field_of x 0 5 5 (by omega) (by omega)
  have f_d := field_eq x 20 4 d (by omega) (by omega)
  have f_a := field_eq x 16 4 a (by omega) (by omega)
  have f_b := field_eq x 12 4 b (by omega) (by omega)
  have f_m := field_eq x 7 5 m (by omega) (by omega)
  have f_t := field_eq x 5 2 t (by omega) (by omega)
  have f_S := top_of x S (by omega)
  simp [decodeOp40, c_1, f_d, f_a, f_b, f_m, f_t, f_S]

theorem RoundTrip.vintMin (S : Bool) (d : BitVec 4) (a : BitVec 4) (b : BitVec 4) (m : BitVec 5) (t : BitVec 2) : RoundTrip.Statement (.vintMin S d a b m t) := by
  refine RoundTrip.of_word (wordOf S 0x40 (place d 20 + place a 16 + place b 12 + place m 7 + place t 5 + 0x6)) rfl fun hw next => ?_
  have b_d := d.isLt
  have b_a := a.isLt
  have b_b := b.isLt
  have b_m := m.isLt
  have b_t := t.isLt
  have b_S := S.toNat_le
  refine decode_of (BitVec.ofNat 32 (S.toNat * 2 ^ 31 + 0x40 * 2 ^ 24 + (place d 20 + place a 16 + place b 12 + place m 7 + place t 5 + 0x6))) next ?_ hw
  generalize hx : S.toNat * 2 ^ 31 + 0x40 * 2 ^ 24 + (place d 20 + place a 16 + place b 12 + place m 7 + place t 5 + 0x6) = x
  simp only [place] at hx
  refine raw40 _ _ (field_of x 24 7 0x40 (by omega) (by omega)) ?_
  have c_1 := field_of x 0 5 6 (by omega) (by omega)
  have f_d := field_eq x 20 4 d (by omega) (by omega)
  have f_a := field_eq x 16 4 a (by omega) (by omega)
  have f_b := field_eq x 12 4 b (by omega) (by omega)
  have f_m := field_eq x 7 5 m (by omega) (by omega)
  have f_t := field_eq x 5 2 t (by omega) (by omega)
  have f_S := top_of x S (by omega)
  simp [decodeOp40, c_1, f_d, f_a, f_b, f_m, f_t, f_S]

theorem RoundTrip.vintMax (S : Bool) (d : BitVec 4) (a : BitVec 4) (b : BitVec 4) (m : BitVec 5) (t : BitVec 2) : RoundTrip.Statement (.vintMax S d a b m t) := by
  refine RoundTrip.of_word (wordOf S 0x40 (place d 20 + place a 16 + place b 12 + place m 7 + place t 5 + 0x7)) rfl fun hw next => ?_
  have b_d := d.isLt
  have b_a := a.isLt
  have b_b := b.isLt
  have b_m := m.isLt
  have b_t := t.isLt
  have b_S := S.toNat_le
  refine decode_of (BitVec.ofNat 32 (S.toNat * 2 ^ 31 + 0x40 * 2 ^ 24 + (place d 20 + place a 16 + place b 12 + place m 7 + place t 5 + 0x7))) next ?_ hw
  generalize hx : S.toNat * 2 ^ 31 + 0x40 * 2 ^ 24 + (place d 20 + place a 16 + place b 12 + place m 7 + place t 5 + 0x7) = x
  simp only [place] at hx
  refine raw40 _ _ (field_of x 24 7 0x40 (by omega) (by omega)) ?_
  have c_1 := field_of x 0 5 7 (by omega) (by omega)
  have f_d := field_eq x 20 4 d (by omega) (by omega)
  have f_a := field_eq x 16 4 a (by omega) (by omega)
  have f_b := field_eq x 12 4 b (by omega) (by omega)
  have f_m := field_eq x 7 5 m (by omega) (by omega)
  have f_t := field_eq x 5 2 t (by omega) (by omega)
  have f_S := top_of x S (by omega)
  simp [decodeOp40, c_1, f_d, f_a, f_b, f_m, f_t, f_S]

theorem RoundTrip.vintMinu (S : Bool) (d : BitVec 4) (a : BitVec 4) (b : BitVec 4) (m : BitVec 5) (t : BitVec 2) : RoundTrip.Statement (.vintMinu S d a b m t) := by
  refine RoundTrip.of_word (wordOf S 0x40 (place d 20 + place a 16 + place b 12 + place m 7 + place t 5 + 0x8)) rfl fun hw next => ?_
  have b_d := d.isLt
  have b_a := a.isLt
  have b_b := b.isLt
  have b_m := m.isLt
  have b_t := t.isLt
  have b_S := S.toNat_le
  refine decode_of (BitVec.ofNat 32 (S.toNat * 2 ^ 31 + 0x40 * 2 ^ 24 + (place d 20 + place a 16 + place b 12 + place m 7 + place t 5 + 0x8))) next ?_ hw
  generalize hx : S.toNat * 2 ^ 31 + 0x40 * 2 ^ 24 + (place d 20 + place a 16 + place b 12 + place m 7 + place t 5 + 0x8) = x
  simp only [place] at hx
  refine raw40 _ _ (field_of x 24 7 0x40 (by omega) (by omega)) ?_
  have c_1 := field_of x 0 5 8 (by omega) (by omega)
  have f_d := field_eq x 20 4 d (by omega) (by omega)
  have f_a := field_eq x 16 4 a (by omega) (by omega)
  have f_b := field_eq x 12 4 b (by omega) (by omega)
  have f_m := field_eq x 7 5 m (by omega) (by omega)
  have f_t := field_eq x 5 2 t (by omega) (by omega)
  have f_S := top_of x S (by omega)
  simp [decodeOp40, c_1, f_d, f_a, f_b, f_m, f_t, f_S]

theorem RoundTrip.vintMaxu (S : Bool) (d : BitVec 4) (a : BitVec 4) (b : BitVec 4) (m : BitVec 5) (t : BitVec 2) : RoundTrip.Statement (.vintMaxu S d a b m t) := by
  refine RoundTrip.of_word (wordOf S 0x40 (place d 20 + place a 16 + place b 12 + place m 7 + place t 5 + 0x9)) rfl fun hw next => ?_
  have b_d := d.isLt
  have b_a := a.isLt
  have b_b := b.isLt
  have b_m := m.isLt
  have b_t := t.isLt
  have b_S := S.toNat_le
  refine decode_of (BitVec.ofNat 32 (S.toNat * 2 ^ 31 + 0x40 * 2 ^ 24 + (place d 20 + place a 16 + place b 12 + place m 7 + place t 5 + 0x9))) next ?_ hw
  generalize hx : S.toNat * 2 ^ 31 + 0x40 * 2 ^ 24 + (place d 20 + place a 16 + place b 12 + place m 7 + place t 5 + 0x9) = x
  simp only [place] at hx
  refine raw40 _ _ (field_of x 24 7 0x40 (by omega) (by omega)) ?_
  have c_1 := field_of x 0 5 9 (by omega) (by omega)
  have f_d := field_eq x 20 4 d (by omega) (by omega)
  have f_a := field_eq x 16 4 a (by omega) (by omega)
  have f_b := field_eq x 12 4 b (by omega) (by omega)
  have f_m := field_eq x 7 5 m (by omega) (by omega)
  have f_t := field_eq x 5 2 t (by omega) (by omega)
  have f_S := top_of x S (by omega)
  simp [decodeOp40, c_1, f_d, f_a, f_b, f_m, f_t, f_S]

theorem RoundTrip.vintAnd (S : Bool) (d : BitVec 4) (a : BitVec 4) (b : BitVec 4) (m : BitVec 5) (t : BitVec 2) : RoundTrip.Statement (.vintAnd S d a b m t) := by
  refine RoundTrip.of_word (wordOf S 0x40 (place d 20 + place a 16 + place b 12 + place m 7 + place t 5 + 0xA)) rfl fun hw next => ?_
  have b_d := d.isLt
  have b_a := a.isLt
  have b_b := b.isLt
  have b_m := m.isLt
  have b_t := t.isLt
  have b_S := S.toNat_le
  refine decode_of (BitVec.ofNat 32 (S.toNat * 2 ^ 31 + 0x40 * 2 ^ 24 + (place d 20 + place a 16 + place b 12 + place m 7 + place t 5 + 0xA))) next ?_ hw
  generalize hx : S.toNat * 2 ^ 31 + 0x40 * 2 ^ 24 + (place d 20 + place a 16 + place b 12 + place m 7 + place t 5 + 0xA) = x
  simp only [place] at hx
  refine raw40 _ _ (field_of x 24 7 0x40 (by omega) (by omega)) ?_
  have c_1 := field_of x 0 5 10 (by omega) (by omega)
  have f_d := field_eq x 20 4 d (by omega) (by omega)
  have f_a := field_eq x 16 4 a (by omega) (by omega)
  have f_b := field_eq x 12 4 b (by omega) (by omega)
  have f_m := field_eq x 7 5 m (by omega) (by omega)
  have f_t := field_eq x 5 2 t (by omega) (by omega)
  have f_S := top_of x S (by omega)
  simp [decodeOp40, c_1, f_d, f_a, f_b, f_m, f_t, f_S]

theorem RoundTrip.vintOr (S : Bool) (d : BitVec 4) (a : BitVec 4) (b : BitVec 4) (m : BitVec 5) (t : BitVec 2) : RoundTrip.Statement (.vintOr S d a b m t) := by
  refine RoundTrip.of_word (wordOf S 0x40 (place d 20 + place a 16 + place b 12 + place m 7 + place t 5 + 0xB)) rfl fun hw next => ?_
  have b_d := d.isLt
  have b_a := a.isLt
  have b_b := b.isLt
  have b_m := m.isLt
  have b_t := t.isLt
  have b_S := S.toNat_le
  refine decode_of (BitVec.ofNat 32 (S.toNat * 2 ^ 31 + 0x40 * 2 ^ 24 + (place d 20 + place a 16 + place b 12 + place m 7 + place t 5 + 0xB))) next ?_ hw
  generalize hx : S.toNat * 2 ^ 31 + 0x40 * 2 ^ 24 + (place d 20 + place a 16 + place b 12 + place m 7 + place t 5 + 0xB) = x
  simp only [place] at hx
  refine raw40 _ _ (field_of x 24 7 0x40 (by omega) (by omega)) ?_
  have c_1 := field_of x 0 5 11 (by omega) (by omega)
  have f_d := field_eq x 20 4 d (by omega) (by omega)
  have f_a := field_eq x 16 4 a (by omega) (by omega)
  have f_b := field_eq x 12 4 b (by omega) (by omega)
  have f_m := field_eq x 7 5 m (by omega) (by omega)
  have f_t := field_eq x 5 2 t (by omega) (by omega)
  have f_S := top_of x S (by omega)
  simp [decodeOp40, c_1, f_d, f_a, f_b, f_m, f_t, f_S]

theorem RoundTrip.vintXor (S : Bool) (d : BitVec 4) (a : BitVec 4) (b : BitVec 4) (m : BitVec 5) (t : BitVec 2) : RoundTrip.Statement (.vintXor S d a b m t) := by
  refine RoundTrip.of_word (wordOf S 0x40 (place d 20 + place a 16 + place b 12 + place m 7 + place t 5 + 0xC)) rfl fun hw next => ?_
  have b_d := d.isLt
  have b_a := a.isLt
  have b_b := b.isLt
  have b_m := m.isLt
  have b_t := t.isLt
  have b_S := S.toNat_le
  refine decode_of (BitVec.ofNat 32 (S.toNat * 2 ^ 31 + 0x40 * 2 ^ 24 + (place d 20 + place a 16 + place b 12 + place m 7 + place t 5 + 0xC))) next ?_ hw
  generalize hx : S.toNat * 2 ^ 31 + 0x40 * 2 ^ 24 + (place d 20 + place a 16 + place b 12 + place m 7 + place t 5 + 0xC) = x
  simp only [place] at hx
  refine raw40 _ _ (field_of x 24 7 0x40 (by omega) (by omega)) ?_
  have c_1 := field_of x 0 5 12 (by omega) (by omega)
  have f_d := field_eq x 20 4 d (by omega) (by omega)
  have f_a := field_eq x 16 4 a (by omega) (by omega)
  have f_b := field_eq x 12 4 b (by omega) (by omega)
  have f_m := field_eq x 7 5 m (by omega) (by omega)
  have f_t := field_eq x 5 2 t (by omega) (by omega)
  have f_S := top_of x S (by omega)
  simp [decodeOp40, c_1, f_d, f_a, f_b, f_m, f_t, f_S]

theorem RoundTrip.vintShl (S : Bool) (d : BitVec 4) (a : BitVec 4) (b : BitVec 4) (m : BitVec 5) (t : BitVec 2) : RoundTrip.Statement (.vintShl S d a b m t) := by
  refine RoundTrip.of_word (wordOf S 0x40 (place d 20 + place a 16 + place b 12 + place m 7 + place t 5 + 0xD)) rfl fun hw next => ?_
  have b_d := d.isLt
  have b_a := a.isLt
  have b_b := b.isLt
  have b_m := m.isLt
  have b_t := t.isLt
  have b_S := S.toNat_le
  refine decode_of (BitVec.ofNat 32 (S.toNat * 2 ^ 31 + 0x40 * 2 ^ 24 + (place d 20 + place a 16 + place b 12 + place m 7 + place t 5 + 0xD))) next ?_ hw
  generalize hx : S.toNat * 2 ^ 31 + 0x40 * 2 ^ 24 + (place d 20 + place a 16 + place b 12 + place m 7 + place t 5 + 0xD) = x
  simp only [place] at hx
  refine raw40 _ _ (field_of x 24 7 0x40 (by omega) (by omega)) ?_
  have c_1 := field_of x 0 5 13 (by omega) (by omega)
  have f_d := field_eq x 20 4 d (by omega) (by omega)
  have f_a := field_eq x 16 4 a (by omega) (by omega)
  have f_b := field_eq x 12 4 b (by omega) (by omega)
  have f_m := field_eq x 7 5 m (by omega) (by omega)
  have f_t := field_eq x 5 2 t (by omega) (by omega)
  have f_S := top_of x S (by omega)
  simp [decodeOp40, c_1, f_d, f_a, f_b, f_m, f_t, f_S]

theorem RoundTrip.vintShr (S : Bool) (d : BitVec 4) (a : BitVec 4) (b : BitVec 4) (m : BitVec 5) (t : BitVec 2) : RoundTrip.Statement (.vintShr S d a b m t) := by
  refine RoundTrip.of_word (wordOf S 0x40 (place d 20 + place a 16 + place b 12 + place m 7 + place t 5 + 0xE)) rfl fun hw next => ?_
  have b_d := d.isLt
  have b_a := a.isLt
  have b_b := b.isLt
  have b_m := m.isLt
  have b_t := t.isLt
  have b_S := S.toNat_le
  refine decode_of (BitVec.ofNat 32 (S.toNat * 2 ^ 31 + 0x40 * 2 ^ 24 + (place d 20 + place a 16 + place b 12 + place m 7 + place t 5 + 0xE))) next ?_ hw
  generalize hx : S.toNat * 2 ^ 31 + 0x40 * 2 ^ 24 + (place d 20 + place a 16 + place b 12 + place m 7 + place t 5 + 0xE) = x
  simp only [place] at hx
  refine raw40 _ _ (field_of x 24 7 0x40 (by omega) (by omega)) ?_
  have c_1 := field_of x 0 5 14 (by omega) (by omega)
  have f_d := field_eq x 20 4 d (by omega) (by omega)
  have f_a := field_eq x 16 4 a (by omega) (by omega)
  have f_b := field_eq x 12 4 b (by omega) (by omega)
  have f_m := field_eq x 7 5 m (by omega) (by omega)
  have f_t := field_eq x 5 2 t (by omega) (by omega)
  have f_S := top_of x S (by omega)
  simp [decodeOp40, c_1, f_d, f_a, f_b, f_m, f_t, f_S]

theorem RoundTrip.vintSra (S : Bool) (d : BitVec 4) (a : BitVec 4) (b : BitVec 4) (m : BitVec 5) (t : BitVec 2) : RoundTrip.Statement (.vintSra S d a b m t) := by
  refine RoundTrip.of_word (wordOf S 0x40 (place d 20 + place a 16 + place b 12 + place m 7 + place t 5 + 0xF)) rfl fun hw next => ?_
  have b_d := d.isLt
  have b_a := a.isLt
  have b_b := b.isLt
  have b_m := m.isLt
  have b_t := t.isLt
  have b_S := S.toNat_le
  refine decode_of (BitVec.ofNat 32 (S.toNat * 2 ^ 31 + 0x40 * 2 ^ 24 + (place d 20 + place a 16 + place b 12 + place m 7 + place t 5 + 0xF))) next ?_ hw
  generalize hx : S.toNat * 2 ^ 31 + 0x40 * 2 ^ 24 + (place d 20 + place a 16 + place b 12 + place m 7 + place t 5 + 0xF) = x
  simp only [place] at hx
  refine raw40 _ _ (field_of x 24 7 0x40 (by omega) (by omega)) ?_
  have c_1 := field_of x 0 5 15 (by omega) (by omega)
  have f_d := field_eq x 20 4 d (by omega) (by omega)
  have f_a := field_eq x 16 4 a (by omega) (by omega)
  have f_b := field_eq x 12 4 b (by omega) (by omega)
  have f_m := field_eq x 7 5 m (by omega) (by omega)
  have f_t := field_eq x 5 2 t (by omega) (by omega)
  have f_S := top_of x S (by omega)
  simp [decodeOp40, c_1, f_d, f_a, f_b, f_m, f_t, f_S]

theorem RoundTrip.vintAbs (S : Bool) (d : BitVec 4) (a : BitVec 4) (m : BitVec 5) (t : BitVec 2) : RoundTrip.Statement (.vintAbs S d a m t) := by
  refine RoundTrip.of_word (wordOf S 0x40 (place d 20 + place a 16 + place m 7 + place t 5 + 0x10)) rfl fun hw next => ?_
  have b_d := d.isLt
  have b_a := a.isLt
  have b_m := m.isLt
  have b_t := t.isLt
  have b_S := S.toNat_le
  refine decode_of (BitVec.ofNat 32 (S.toNat * 2 ^ 31 + 0x40 * 2 ^ 24 + (place d 20 + place a 16 + place m 7 + place t 5 + 0x10))) next ?_ hw
  generalize hx : S.toNat * 2 ^ 31 + 0x40 * 2 ^ 24 + (place d 20 + place a 16 + place m 7 + place t 5 + 0x10) = x
  simp only [place] at hx
  refine raw40 _ _ (field_of x 24 7 0x40 (by omega) (by omega)) ?_
  have c_1 := field_of x 0 5 16 (by omega) (by omega)
  have c_2 := field_of x 12 4 0 (by omega) (by omega)
  have f_d := field_eq x 20 4 d (by omega) (by omega)
  have f_a := field_eq x 16 4 a (by omega) (by omega)
  have f_m := field_eq x 7 5 m (by omega) (by omega)
  have f_t := field_eq x 5 2 t (by omega) (by omega)
  have f_S := top_of x S (by omega)
  simp [decodeOp40, c_1, c_2, f_d, f_a, f_m, f_t, f_S]

theorem RoundTrip.vintNeg (S : Bool) (d : BitVec 4) (a : BitVec 4) (m : BitVec 5) (t : BitVec 2) : RoundTrip.Statement (.vintNeg S d a m t) := by
  refine RoundTrip.of_word (wordOf S 0x40 (place d 20 + place a 16 + place m 7 + place t 5 + 0x11)) rfl fun hw next => ?_
  have b_d := d.isLt
  have b_a := a.isLt
  have b_m := m.isLt
  have b_t := t.isLt
  have b_S := S.toNat_le
  refine decode_of (BitVec.ofNat 32 (S.toNat * 2 ^ 31 + 0x40 * 2 ^ 24 + (place d 20 + place a 16 + place m 7 + place t 5 + 0x11))) next ?_ hw
  generalize hx : S.toNat * 2 ^ 31 + 0x40 * 2 ^ 24 + (place d 20 + place a 16 + place m 7 + place t 5 + 0x11) = x
  simp only [place] at hx
  refine raw40 _ _ (field_of x 24 7 0x40 (by omega) (by omega)) ?_
  have c_1 := field_of x 0 5 17 (by omega) (by omega)
  have c_2 := field_of x 12 4 0 (by omega) (by omega)
  have f_d := field_eq x 20 4 d (by omega) (by omega)
  have f_a := field_eq x 16 4 a (by omega) (by omega)
  have f_m := field_eq x 7 5 m (by omega) (by omega)
  have f_t := field_eq x 5 2 t (by omega) (by omega)
  have f_S := top_of x S (by omega)
  simp [decodeOp40, c_1, c_2, f_d, f_a, f_m, f_t, f_S]

theorem RoundTrip.vfpAdd (S : Bool) (d : BitVec 4) (a : BitVec 4) (b : BitVec 4) (m : BitVec 5) : RoundTrip.Statement (.vfpAdd S d a b m) := by
  refine RoundTrip.of_word (wordOf S 0x41 (place d 20 + place a 16 + place b 12 + place m 7)) rfl fun hw next => ?_
  have b_d := d.isLt
  have b_a := a.isLt
  have b_b := b.isLt
  have b_m := m.isLt
  have b_S := S.toNat_le
  refine decode_of (BitVec.ofNat 32 (S.toNat * 2 ^ 31 + 0x41 * 2 ^ 24 + (place d 20 + place a 16 + place b 12 + place m 7))) next ?_ hw
  generalize hx : S.toNat * 2 ^ 31 + 0x41 * 2 ^ 24 + (place d 20 + place a 16 + place b 12 + place m 7) = x
  simp only [place] at hx
  refine raw41 _ _ (field_of x 24 7 0x41 (by omega) (by omega)) ?_
  have c_1 := field_of x 0 7 0 (by omega) (by omega)
  have f_d := field_eq x 20 4 d (by omega) (by omega)
  have f_a := field_eq x 16 4 a (by omega) (by omega)
  have f_b := field_eq x 12 4 b (by omega) (by omega)
  have f_m := field_eq x 7 5 m (by omega) (by omega)
  have f_S := top_of x S (by omega)
  simp [decodeOp41, c_1, f_d, f_a, f_b, f_m, f_S]

theorem RoundTrip.vfpSub (S : Bool) (d : BitVec 4) (a : BitVec 4) (b : BitVec 4) (m : BitVec 5) : RoundTrip.Statement (.vfpSub S d a b m) := by
  refine RoundTrip.of_word (wordOf S 0x41 (place d 20 + place a 16 + place b 12 + place m 7 + 0x1)) rfl fun hw next => ?_
  have b_d := d.isLt
  have b_a := a.isLt
  have b_b := b.isLt
  have b_m := m.isLt
  have b_S := S.toNat_le
  refine decode_of (BitVec.ofNat 32 (S.toNat * 2 ^ 31 + 0x41 * 2 ^ 24 + (place d 20 + place a 16 + place b 12 + place m 7 + 0x1))) next ?_ hw
  generalize hx : S.toNat * 2 ^ 31 + 0x41 * 2 ^ 24 + (place d 20 + place a 16 + place b 12 + place m 7 + 0x1) = x
  simp only [place] at hx
  refine raw41 _ _ (field_of x 24 7 0x41 (by omega) (by omega)) ?_
  have c_1 := field_of x 0 7 1 (by omega) (by omega)
  have f_d := field_eq x 20 4 d (by omega) (by omega)
  have f_a := field_eq x 16 4 a (by omega) (by omega)
  have f_b := field_eq x 12 4 b (by omega) (by omega)
  have f_m := field_eq x 7 5 m (by omega) (by omega)
  have f_S := top_of x S (by omega)
  simp [decodeOp41, c_1, f_d, f_a, f_b, f_m, f_S]

theorem RoundTrip.vfpMul (S : Bool) (d : BitVec 4) (a : BitVec 4) (b : BitVec 4) (m : BitVec 5) : RoundTrip.Statement (.vfpMul S d a b m) := by
  refine RoundTrip.of_word (wordOf S 0x41 (place d 20 + place a 16 + place b 12 + place m 7 + 0x2)) rfl fun hw next => ?_
  have b_d := d.isLt
  have b_a := a.isLt
  have b_b := b.isLt
  have b_m := m.isLt
  have b_S := S.toNat_le
  refine decode_of (BitVec.ofNat 32 (S.toNat * 2 ^ 31 + 0x41 * 2 ^ 24 + (place d 20 + place a 16 + place b 12 + place m 7 + 0x2))) next ?_ hw
  generalize hx : S.toNat * 2 ^ 31 + 0x41 * 2 ^ 24 + (place d 20 + place a 16 + place b 12 + place m 7 + 0x2) = x
  simp only [place] at hx
  refine raw41 _ _ (field_of x 24 7 0x41 (by omega) (by omega)) ?_
  have c_1 := field_of x 0 7 2 (by omega) (by omega)
  have f_d := field_eq x 20 4 d (by omega) (by omega)
  have f_a := field_eq x 16 4 a (by omega) (by omega)
  have f_b := field_eq x 12 4 b (by omega) (by omega)
  have f_m := field_eq x 7 5 m (by omega) (by omega)
  have f_S := top_of x S (by omega)
  simp [decodeOp41, c_1, f_d, f_a, f_b, f_m, f_S]

theorem RoundTrip.vfpFma (S : Bool) (d : BitVec 4) (a : BitVec 4) (b : BitVec 4) (m : BitVec 5) : RoundTrip.Statement (.vfpFma S d a b m) := by
  refine RoundTrip.of_word (wordOf S 0x41 (place d 20 + place a 16 + place b 12 + place m 7 + 0x3)) rfl fun hw next => ?_
  have b_d := d.isLt
  have b_a := a.isLt
  have b_b := b.isLt
  have b_m := m.isLt
  have b_S := S.toNat_le
  refine decode_of (BitVec.ofNat 32 (S.toNat * 2 ^ 31 + 0x41 * 2 ^ 24 + (place d 20 + place a 16 + place b 12 + place m 7 + 0x3))) next ?_ hw
  generalize hx : S.toNat * 2 ^ 31 + 0x41 * 2 ^ 24 + (place d 20 + place a 16 + place b 12 + place m 7 + 0x3) = x
  simp only [place] at hx
  refine raw41 _ _ (field_of x 24 7 0x41 (by omega) (by omega)) ?_
  have c_1 := field_of x 0 7 3 (by omega) (by omega)
  have f_d := field_eq x 20 4 d (by omega) (by omega)
  have f_a := field_eq x 16 4 a (by omega) (by omega)
  have f_b := field_eq x 12 4 b (by omega) (by omega)
  have f_m := field_eq x 7 5 m (by omega) (by omega)
  have f_S := top_of x S (by omega)
  simp [decodeOp41, c_1, f_d, f_a, f_b, f_m, f_S]

theorem RoundTrip.vfpMin (S : Bool) (d : BitVec 4) (a : BitVec 4) (b : BitVec 4) (m : BitVec 5) : RoundTrip.Statement (.vfpMin S d a b m) := by
  refine RoundTrip.of_word (wordOf S 0x41 (place d 20 + place a 16 + place b 12 + place m 7 + 0x4)) rfl fun hw next => ?_
  have b_d := d.isLt
  have b_a := a.isLt
  have b_b := b.isLt
  have b_m := m.isLt
  have b_S := S.toNat_le
  refine decode_of (BitVec.ofNat 32 (S.toNat * 2 ^ 31 + 0x41 * 2 ^ 24 + (place d 20 + place a 16 + place b 12 + place m 7 + 0x4))) next ?_ hw
  generalize hx : S.toNat * 2 ^ 31 + 0x41 * 2 ^ 24 + (place d 20 + place a 16 + place b 12 + place m 7 + 0x4) = x
  simp only [place] at hx
  refine raw41 _ _ (field_of x 24 7 0x41 (by omega) (by omega)) ?_
  have c_1 := field_of x 0 7 4 (by omega) (by omega)
  have f_d := field_eq x 20 4 d (by omega) (by omega)
  have f_a := field_eq x 16 4 a (by omega) (by omega)
  have f_b := field_eq x 12 4 b (by omega) (by omega)
  have f_m := field_eq x 7 5 m (by omega) (by omega)
  have f_S := top_of x S (by omega)
  simp [decodeOp41, c_1, f_d, f_a, f_b, f_m, f_S]

theorem RoundTrip.vfpMax (S : Bool) (d : BitVec 4) (a : BitVec 4) (b : BitVec 4) (m : BitVec 5) : RoundTrip.Statement (.vfpMax S d a b m) := by
  refine RoundTrip.of_word (wordOf S 0x41 (place d 20 + place a 16 + place b 12 + place m 7 + 0x5)) rfl fun hw next => ?_
  have b_d := d.isLt
  have b_a := a.isLt
  have b_b := b.isLt
  have b_m := m.isLt
  have b_S := S.toNat_le
  refine decode_of (BitVec.ofNat 32 (S.toNat * 2 ^ 31 + 0x41 * 2 ^ 24 + (place d 20 + place a 16 + place b 12 + place m 7 + 0x5))) next ?_ hw
  generalize hx : S.toNat * 2 ^ 31 + 0x41 * 2 ^ 24 + (place d 20 + place a 16 + place b 12 + place m 7 + 0x5) = x
  simp only [place] at hx
  refine raw41 _ _ (field_of x 24 7 0x41 (by omega) (by omega)) ?_
  have c_1 := field_of x 0 7 5 (by omega) (by omega)
  have f_d := field_eq x 20 4 d (by omega) (by omega)
  have f_a := field_eq x 16 4 a (by omega) (by omega)
  have f_b := field_eq x 12 4 b (by omega) (by omega)
  have f_m := field_eq x 7 5 m (by omega) (by omega)
  have f_S := top_of x S (by omega)
  simp [decodeOp41, c_1, f_d, f_a, f_b, f_m, f_S]

theorem RoundTrip.vfpAbs (S : Bool) (d : BitVec 4) (a : BitVec 4) (m : BitVec 5) : RoundTrip.Statement (.vfpAbs S d a m) := by
  refine RoundTrip.of_word (wordOf S 0x41 (place d 20 + place a 16 + place m 7 + 0x6)) rfl fun hw next => ?_
  have b_d := d.isLt
  have b_a := a.isLt
  have b_m := m.isLt
  have b_S := S.toNat_le
  refine decode_of (BitVec.ofNat 32 (S.toNat * 2 ^ 31 + 0x41 * 2 ^ 24 + (place d 20 + place a 16 + place m 7 + 0x6))) next ?_ hw
  generalize hx : S.toNat * 2 ^ 31 + 0x41 * 2 ^ 24 + (place d 20 + place a 16 + place m 7 + 0x6) = x
  simp only [place] at hx
  refine raw41 _ _ (field_of x 24 7 0x41 (by omega) (by omega)) ?_
  have c_1 := field_of x 0 7 6 (by omega) (by omega)
  have c_2 := field_of x 12 4 0 (by omega) (by omega)
  have f_d := field_eq x 20 4 d (by omega) (by omega)
  have f_a := field_eq x 16 4 a (by omega) (by omega)
  have f_m := field_eq x 7 5 m (by omega) (by omega)
  have f_S := top_of x S (by omega)
  simp [decodeOp41, c_1, c_2, f_d, f_a, f_m, f_S]

theorem RoundTrip.vfpNeg (S : Bool) (d : BitVec 4) (a : BitVec 4) (m : BitVec 5) : RoundTrip.Statement (.vfpNeg S d a m) := by
  refine RoundTrip.of_word (wordOf S 0x41 (place d 20 + place a 16 + place m 7 + 0x7)) rfl fun hw next => ?_
  have b_d := d.isLt
  have b_a := a.isLt
  have b_m := m.isLt
  have b_S := S.toNat_le
  refine decode_of (BitVec.ofNat 32 (S.toNat * 2 ^ 31 + 0x41 * 2 ^ 24 + (place d 20 + place a 16 + place m 7 + 0x7))) next ?_ hw
  generalize hx : S.toNat * 2 ^ 31 + 0x41 * 2 ^ 24 + (place d 20 + place a 16 + place m 7 + 0x7) = x
  simp only [place] at hx
  refine raw41 _ _ (field_of x 24 7 0x41 (by omega) (by omega)) ?_
  have c_1 := field_of x 0 7 7 (by omega) (by omega)
  have c_2 := field_of x 12 4 0 (by omega) (by omega)
  have f_d := field_eq x 20 4 d (by omega) (by omega)
  have f_a := field_eq x 16 4 a (by omega) (by omega)
  have f_m := field_eq x 7 5 m (by omega) (by omega)
  have f_S := top_of x S (by omega)
  simp [decodeOp41, c_1, c_2, f_d, f_a, f_m, f_S]

theorem RoundTrip.vfpExp2 (S : Bool) (d : BitVec 4) (a : BitVec 4) (m : BitVec 5) : RoundTrip.Statement (.vfpExp2 S d a m) := by
  refine RoundTrip.of_word (wordOf S 0x41 (place d 20 + place a 16 + place m 7 + 0x8)) rfl fun hw next => ?_
  have b_d := d.isLt
  have b_a := a.isLt
  have b_m := m.isLt
  have b_S := S.toNat_le
  refine decode_of (BitVec.ofNat 32 (S.toNat * 2 ^ 31 + 0x41 * 2 ^ 24 + (place d 20 + place a 16 + place m 7 + 0x8))) next ?_ hw
  generalize hx : S.toNat * 2 ^ 31 + 0x41 * 2 ^ 24 + (place d 20 + place a 16 + place m 7 + 0x8) = x
  simp only [place] at hx
  refine raw41 _ _ (field_of x 24 7 0x41 (by omega) (by omega)) ?_
  have c_1 := field_of x 0 7 8 (by omega) (by omega)
  have c_2 := field_of x 12 4 0 (by omega) (by omega)
  have f_d := field_eq x 20 4 d (by omega) (by omega)
  have f_a := field_eq x 16 4 a (by omega) (by omega)
  have f_m := field_eq x 7 5 m (by omega) (by omega)
  have f_S := top_of x S (by omega)
  simp [decodeOp41, c_1, c_2, f_d, f_a, f_m, f_S]

theorem RoundTrip.vfpLog2 (S : Bool) (d : BitVec 4) (a : BitVec 4) (m : BitVec 5) : RoundTrip.Statement (.vfpLog2 S d a m) := by
  refine RoundTrip.of_word (wordOf S 0x41 (place d 20 + place a 16 + place m 7 + 0x9)) rfl fun hw next => ?_
  have b_d := d.isLt
  have b_a := a.isLt
  have b_m := m.isLt
  have b_S := S.toNat_le
  refine decode_of (BitVec.ofNat 32 (S.toNat * 2 ^ 31 + 0x41 * 2 ^ 24 + (place d 20 + place a 16 + place m 7 + 0x9))) next ?_ hw
  generalize hx : S.toNat * 2 ^ 31 + 0x41 * 2 ^ 24 + (place d 20 + place a 16 + place m 7 + 0x9) = x
  simp only [place] at hx
  refine raw41 _ _ (field_of x 24 7 0x41 (by omega) (by omega)) ?_
  have c_1 := field_of x 0 7 9 (by omega) (by omega)
  have c_2 := field_of x 12 4 0 (by omega) (by omega)
  have f_d := field_eq x 20 4 d (by omega) (by omega)
  have f_a := field_eq x 16 4 a (by omega) (by omega)
  have f_m := field_eq x 7 5 m (by omega) (by omega)
  have f_S := top_of x S (by omega)
  simp [decodeOp41, c_1, c_2, f_d, f_a, f_m, f_S]

theorem RoundTrip.vfpRecip (S : Bool) (d : BitVec 4) (a : BitVec 4) (m : BitVec 5) : RoundTrip.Statement (.vfpRecip S d a m) := by
  refine RoundTrip.of_word (wordOf S 0x41 (place d 20 + place a 16 + place m 7 + 0xA)) rfl fun hw next => ?_
  have b_d := d.isLt
  have b_a := a.isLt
  have b_m := m.isLt
  have b_S := S.toNat_le
  refine decode_of (BitVec.ofNat 32 (S.toNat * 2 ^ 31 + 0x41 * 2 ^ 24 + (place d 20 + place a 16 + place m 7 + 0xA))) next ?_ hw
  generalize hx : S.toNat * 2 ^ 31 + 0x41 * 2 ^ 24 + (place d 20 + place a 16 + place m 7 + 0xA) = x
  simp only [place] at hx
  refine raw41 _ _ (field_of x 24 7 0x41 (by omega) (by omega)) ?_
  have c_1 := field_of x 0 7 10 (by omega) (by omega)
  have c_2 := field_of x 12 4 0 (by omega) (by omega)
  have f_d := field_eq x 20 4 d (by omega) (by omega)
  have f_a := field_eq x 16 4 a (by omega) (by omega)
  have f_m := field_eq x 7 5 m (by omega) (by omega)
  have f_S := top_of x S (by omega)
  simp [decodeOp41, c_1, c_2, f_d, f_a, f_m, f_S]

theorem RoundTrip.vfpRsqrt (S : Bool) (d : BitVec 4) (a : BitVec 4) (m : BitVec 5) : RoundTrip.Statement (.vfpRsqrt S d a m) := by
  refine RoundTrip.of_word (wordOf S 0x41 (place d 20 + place a 16 + place m 7 + 0xB)) rfl fun hw next => ?_
  have b_d := d.isLt
  have b_a := a.isLt
  have b_m := m.isLt
  have b_S := S.toNat_le
  refine decode_of (BitVec.ofNat 32 (S.toNat * 2 ^ 31 + 0x41 * 2 ^ 24 + (place d 20 + place a 16 + place m 7 + 0xB))) next ?_ hw
  generalize hx : S.toNat * 2 ^ 31 + 0x41 * 2 ^ 24 + (place d 20 + place a 16 + place m 7 + 0xB) = x
  simp only [place] at hx
  refine raw41 _ _ (field_of x 24 7 0x41 (by omega) (by omega)) ?_
  have c_1 := field_of x 0 7 11 (by omega) (by omega)
  have c_2 := field_of x 12 4 0 (by omega) (by omega)
  have f_d := field_eq x 20 4 d (by omega) (by omega)
  have f_a := field_eq x 16 4 a (by omega) (by omega)
  have f_m := field_eq x 7 5 m (by omega) (by omega)
  have f_S := top_of x S (by omega)
  simp [decodeOp41, c_1, c_2, f_d, f_a, f_m, f_S]

theorem RoundTrip.vcmp (S : Bool) (a : BitVec 4) (b : BitVec 4) (d : BitVec 5) (t : BitVec 2) (c : BitVec 5) : RoundTrip.Statement (.vcmp S a b d t c) := by
  refine RoundTrip.of_word (wordOf S 0x42 (place a 16 + place b 12 + place d 7 + place t 5 + place c 0)) rfl fun hw next => ?_
  have b_a := a.isLt
  have b_b := b.isLt
  have b_d := d.isLt
  have b_t := t.isLt
  have b_c := c.isLt
  have b_S := S.toNat_le
  refine decode_of (BitVec.ofNat 32 (S.toNat * 2 ^ 31 + 0x42 * 2 ^ 24 + (place a 16 + place b 12 + place d 7 + place t 5 + place c 0))) next ?_ hw
  generalize hx : S.toNat * 2 ^ 31 + 0x42 * 2 ^ 24 + (place a 16 + place b 12 + place d 7 + place t 5 + place c 0) = x
  simp only [place] at hx
  refine raw42 _ _ (field_of x 24 7 0x42 (by omega) (by omega)) ?_
  have c_1 := field_of x 20 4 0 (by omega) (by omega)
  have f_a := field_eq x 16 4 a (by omega) (by omega)
  have f_b := field_eq x 12 4 b (by omega) (by omega)
  have f_d := field_eq x 7 5 d (by omega) (by omega)
  have f_t := field_eq x 5 2 t (by omega) (by omega)
  have f_c := field_eq x 0 5 c (by omega) (by omega)
  have f_S := top_of x S (by omega)
  simp [decodeOp42, c_1, f_a, f_b, f_d, f_t, f_c, f_S]

theorem RoundTrip.vsel (S : Bool) (d : BitVec 4) (a : BitVec 4) (b : BitVec 4) (m : BitVec 5) : RoundTrip.Statement (.vsel S d a b m) := by
  refine RoundTrip.of_word (wordOf S 0x43 (place d 20 + place a 16 + place b 12 + place m 7)) rfl fun hw next => ?_
  have b_d := d.isLt
  have b_a := a.isLt
  have b_b := b.isLt
  have b_m := m.isLt
  have b_S := S.toNat_le
  refine decode_of (BitVec.ofNat 32 (S.toNat * 2 ^ 31 + 0x43 * 2 ^ 24 + (place d 20 + place a 16 + place b 12 + place m 7))) next ?_ hw
  generalize hx : S.toNat * 2 ^ 31 + 0x43 * 2 ^ 24 + (place d 20 + place a 16 + place b 12 + place m 7) = x
  simp only [place] at hx
  refine raw43 _ _ (field_of x 24 7 0x43 (by omega) (by omega)) ?_
  have c_1 := field_of x 0 4 0 (by omega) (by omega)
  have c_2 := field_of x 4 1 0 (by omega) (by omega)
  have c_3 := field_of x 5 2 0 (by omega) (by omega)
  have f_d := field_eq x 20 4 d (by omega) (by omega)
  have f_a := field_eq x 16 4 a (by omega) (by omega)
  have f_b := field_eq x 12 4 b (by omega) (by omega)
  have f_m := field_eq x 7 5 m (by omega) (by omega)
  have f_S := top_of x S (by omega)
  simp [decodeOp43, c_1, c_2, c_3, f_d, f_a, f_b, f_m, f_S]

theorem RoundTrip.vperm (S : Bool) (d : BitVec 4) (a : BitVec 4) (b : BitVec 4) (m : BitVec 5) : RoundTrip.Statement (.vperm S d a b m) := by
  refine RoundTrip.of_word (wordOf S 0x43 (place d 20 + place a 16 + place b 12 + place m 7 + 0x20)) rfl fun hw next => ?_
  have b_d := d.isLt
  have b_a := a.isLt
  have b_b := b.isLt
  have b_m := m.isLt
  have b_S := S.toNat_le
  refine decode_of (BitVec.ofNat 32 (S.toNat * 2 ^ 31 + 0x43 * 2 ^ 24 + (place d 20 + place a 16 + place b 12 + place m 7 + 0x20))) next ?_ hw
  generalize hx : S.toNat * 2 ^ 31 + 0x43 * 2 ^ 24 + (place d 20 + place a 16 + place b 12 + place m 7 + 0x20) = x
  simp only [place] at hx
  refine raw43 _ _ (field_of x 24 7 0x43 (by omega) (by omega)) ?_
  have c_1 := field_of x 0 4 0 (by omega) (by omega)
  have c_2 := field_of x 4 1 0 (by omega) (by omega)
  have c_3 := field_of x 5 2 1 (by omega) (by omega)
  have f_d := field_eq x 20 4 d (by omega) (by omega)
  have f_a := field_eq x 16 4 a (by omega) (by omega)
  have f_b := field_eq x 12 4 b (by omega) (by omega)
  have f_m := field_eq x 7 5 m (by omega) (by omega)
  have f_S := top_of x S (by omega)
  simp [decodeOp43, c_1, c_2, c_3, f_d, f_a, f_b, f_m, f_S]

theorem RoundTrip.vbcast (S : Bool) (d : BitVec 4) (g : BitVec 5) : RoundTrip.Statement (.vbcast S d g) := by
  refine RoundTrip.of_word (wordOf S 0x43 (place d 20 + place g 7 + 0x40)) rfl fun hw next => ?_
  have b_d := d.isLt
  have b_g := g.isLt
  have b_S := S.toNat_le
  refine decode_of (BitVec.ofNat 32 (S.toNat * 2 ^ 31 + 0x43 * 2 ^ 24 + (place d 20 + place g 7 + 0x40))) next ?_ hw
  generalize hx : S.toNat * 2 ^ 31 + 0x43 * 2 ^ 24 + (place d 20 + place g 7 + 0x40) = x
  simp only [place] at hx
  refine raw43 _ _ (field_of x 24 7 0x43 (by omega) (by omega)) ?_
  have c_1 := field_of x 0 4 0 (by omega) (by omega)
  have c_2 := field_of x 4 1 0 (by omega) (by omega)
  have c_3 := field_of x 5 2 2 (by omega) (by omega)
  have c_4 := field_of x 12 8 0 (by omega) (by omega)
  have f_d := field_eq x 20 4 d (by omega) (by omega)
  have f_g := field_eq x 7 5 g (by omega) (by omega)
  have f_S := top_of x S (by omega)
  simp [decodeOp43, c_1, c_2, c_3, c_4, f_d, f_g, f_S]

theorem RoundTrip.vslide (S : Bool) (d : BitVec 4) (a : BitVec 4) (g : BitVec 5) (u : BitVec 1) : RoundTrip.Statement (.vslide S d a g u) := by
  refine RoundTrip.of_word (wordOf S 0x43 (place d 20 + place a 16 + place g 7 + 0x60 + place u 4)) rfl fun hw next => ?_
  have b_d := d.isLt
  have b_a := a.isLt
  have b_g := g.isLt
  have b_u := u.isLt
  have b_S := S.toNat_le
  refine decode_of (BitVec.ofNat 32 (S.toNat * 2 ^ 31 + 0x43 * 2 ^ 24 + (place d 20 + place a 16 + place g 7 + 0x60 + place u 4))) next ?_ hw
  generalize hx : S.toNat * 2 ^ 31 + 0x43 * 2 ^ 24 + (place d 20 + place a 16 + place g 7 + 0x60 + place u 4) = x
  simp only [place] at hx
  refine raw43 _ _ (field_of x 24 7 0x43 (by omega) (by omega)) ?_
  have c_1 := field_of x 0 4 0 (by omega) (by omega)
  have c_2 := field_of x 5 2 3 (by omega) (by omega)
  have c_3 := field_of x 12 4 0 (by omega) (by omega)
  have f_d := field_eq x 20 4 d (by omega) (by omega)
  have f_a := field_eq x 16 4 a (by omega) (by omega)
  have f_g := field_eq x 7 5 g (by omega) (by omega)
  have f_u := field_eq x 4 1 u (by omega) (by omega)
  have f_S := top_of x S (by omega)
  simp [decodeOp43, c_1, c_2, c_3, f_d, f_a, f_g, f_u, f_S]

theorem RoundTrip.vredSumI32 (S : Bool) (d : BitVec 4) (a : BitVec 4) (m : BitVec 5) : RoundTrip.Statement (.vredSumI32 S d a m) := by
  refine RoundTrip.of_word (wordOf S 0x44 (place d 20 + place a 16 + place m 7)) rfl fun hw next => ?_
  have b_d := d.isLt
  have b_a := a.isLt
  have b_m := m.isLt
  have b_S := S.toNat_le
  refine decode_of (BitVec.ofNat 32 (S.toNat * 2 ^ 31 + 0x44 * 2 ^ 24 + (place d 20 + place a 16 + place m 7))) next ?_ hw
  generalize hx : S.toNat * 2 ^ 31 + 0x44 * 2 ^ 24 + (place d 20 + place a 16 + place m 7) = x
  simp only [place] at hx
  refine raw44 _ _ (field_of x 24 7 0x44 (by omega) (by omega)) ?_
  have c_1 := field_of x 0 5 0 (by omega) (by omega)
  have c_2 := field_of x 5 2 0 (by omega) (by omega)
  have c_3 := field_of x 12 4 0 (by omega) (by omega)
  have f_d := field_eq x 20 4 d (by omega) (by omega)
  have f_a := field_eq x 16 4 a (by omega) (by omega)
  have f_m := field_eq x 7 5 m (by omega) (by omega)
  have f_S := top_of x S (by omega)
  simp [decodeOp44, c_1, c_2, c_3, f_d, f_a, f_m, f_S]

theorem RoundTrip.vredMinI32 (S : Bool) (d : BitVec 4) (a : BitVec 4) (m : BitVec 5) : RoundTrip.Statement (.vredMinI32 S d a m) := by
  refine RoundTrip.of_word (wordOf S 0x44 (place d 20 + place a 16 + place m 7 + 0x4)) rfl fun hw next => ?_
  have b_d := d.isLt
  have b_a := a.isLt
  have b_m := m.isLt
  have b_S := S.toNat_le
  refine decode_of (BitVec.ofNat 32 (S.toNat * 2 ^ 31 + 0x44 * 2 ^ 24 + (place d 20 + place a 16 + place m 7 + 0x4))) next ?_ hw
  generalize hx : S.toNat * 2 ^ 31 + 0x44 * 2 ^ 24 + (place d 20 + place a 16 + place m 7 + 0x4) = x
  simp only [place] at hx
  refine raw44 _ _ (field_of x 24 7 0x44 (by omega) (by omega)) ?_
  have c_1 := field_of x 0 5 4 (by omega) (by omega)
  have c_2 := field_of x 5 2 0 (by omega) (by omega)
  have c_3 := field_of x 12 4 0 (by omega) (by omega)
  have f_d := field_eq x 20 4 d (by omega) (by omega)
  have f_a := field_eq x 16 4 a (by omega) (by omega)
  have f_m := field_eq x 7 5 m (by omega) (by omega)
  have f_S := top_of x S (by omega)
  simp [decodeOp44, c_1, c_2, c_3, f_d, f_a, f_m, f_S]

theorem RoundTrip.vredMaxI32 (S : Bool) (d : BitVec 4) (a : BitVec 4) (m : BitVec 5) : RoundTrip.Statement (.vredMaxI32 S d a m) := by
  refine RoundTrip.of_word (wordOf S 0x44 (place d 20 + place a 16 + place m 7 + 0x8)) rfl fun hw next => ?_
  have b_d := d.isLt
  have b_a := a.isLt
  have b_m := m.isLt
  have b_S := S.toNat_le
  refine decode_of (BitVec.ofNat 32 (S.toNat * 2 ^ 31 + 0x44 * 2 ^ 24 + (place d 20 + place a 16 + place m 7 + 0x8))) next ?_ hw
  generalize hx : S.toNat * 2 ^ 31 + 0x44 * 2 ^ 24 + (place d 20 + place a 16 + place m 7 + 0x8) = x
  simp only [place] at hx
  refine raw44 _ _ (field_of x 24 7 0x44 (by omega) (by omega)) ?_
  have c_1 := field_of x 0 5 8 (by omega) (by omega)
  have c_2 := field_of x 5 2 0 (by omega) (by omega)
  have c_3 := field_of x 12 4 0 (by omega) (by omega)
  have f_d := field_eq x 20 4 d (by omega) (by omega)
  have f_a := field_eq x 16 4 a (by omega) (by omega)
  have f_m := field_eq x 7 5 m (by omega) (by omega)
  have f_S := top_of x S (by omega)
  simp [decodeOp44, c_1, c_2, c_3, f_d, f_a, f_m, f_S]

theorem RoundTrip.vredSumF32 (S : Bool) (d : BitVec 4) (a : BitVec 4) (m : BitVec 5) : RoundTrip.Statement (.vredSumF32 S d a m) := by
  refine RoundTrip.of_word (wordOf S 0x44 (place d 20 + place a 16 + place m 7 + 0xD)) rfl fun hw next => ?_
  have b_d := d.isLt
  have b_a := a.isLt
  have b_m := m.isLt
  have b_S := S.toNat_le
  refine decode_of (BitVec.ofNat 32 (S.toNat * 2 ^ 31 + 0x44 * 2 ^ 24 + (place d 20 + place a 16 + place m 7 + 0xD))) next ?_ hw
  generalize hx : S.toNat * 2 ^ 31 + 0x44 * 2 ^ 24 + (place d 20 + place a 16 + place m 7 + 0xD) = x
  simp only [place] at hx
  refine raw44 _ _ (field_of x 24 7 0x44 (by omega) (by omega)) ?_
  have c_1 := field_of x 0 5 13 (by omega) (by omega)
  have c_2 := field_of x 5 2 0 (by omega) (by omega)
  have c_3 := field_of x 12 4 0 (by omega) (by omega)
  have f_d := field_eq x 20 4 d (by omega) (by omega)
  have f_a := field_eq x 16 4 a (by omega) (by omega)
  have f_m := field_eq x 7 5 m (by omega) (by omega)
  have f_S := top_of x S (by omega)
  simp [decodeOp44, c_1, c_2, c_3, f_d, f_a, f_m, f_S]

theorem RoundTrip.vredMinF32 (S : Bool) (d : BitVec 4) (a : BitVec 4) (m : BitVec 5) : RoundTrip.Statement (.vredMinF32 S d a m) := by
  refine RoundTrip.of_word (wordOf S 0x44 (place d 20 + place a 16 + place m 7 + 0x11)) rfl fun hw next => ?_
  have b_d := d.isLt
  have b_a := a.isLt
  have b_m := m.isLt
  have b_S := S.toNat_le
  refine decode_of (BitVec.ofNat 32 (S.toNat * 2 ^ 31 + 0x44 * 2 ^ 24 + (place d 20 + place a 16 + place m 7 + 0x11))) next ?_ hw
  generalize hx : S.toNat * 2 ^ 31 + 0x44 * 2 ^ 24 + (place d 20 + place a 16 + place m 7 + 0x11) = x
  simp only [place] at hx
  refine raw44 _ _ (field_of x 24 7 0x44 (by omega) (by omega)) ?_
  have c_1 := field_of x 0 5 17 (by omega) (by omega)
  have c_2 := field_of x 5 2 0 (by omega) (by omega)
  have c_3 := field_of x 12 4 0 (by omega) (by omega)
  have f_d := field_eq x 20 4 d (by omega) (by omega)
  have f_a := field_eq x 16 4 a (by omega) (by omega)
  have f_m := field_eq x 7 5 m (by omega) (by omega)
  have f_S := top_of x S (by omega)
  simp [decodeOp44, c_1, c_2, c_3, f_d, f_a, f_m, f_S]

theorem RoundTrip.vredMaxF32 (S : Bool) (d : BitVec 4) (a : BitVec 4) (m : BitVec 5) : RoundTrip.Statement (.vredMaxF32 S d a m) := by
  refine RoundTrip.of_word (wordOf S 0x44 (place d 20 + place a 16 + place m 7 + 0x15)) rfl fun hw next => ?_
  have b_d := d.isLt
  have b_a := a.isLt
  have b_m := m.isLt
  have b_S := S.toNat_le
  refine decode_of (BitVec.ofNat 32 (S.toNat * 2 ^ 31 + 0x44 * 2 ^ 24 + (place d 20 + place a 16 + place m 7 + 0x15))) next ?_ hw
  generalize hx : S.toNat * 2 ^ 31 + 0x44 * 2 ^ 24 + (place d 20 + place a 16 + place m 7 + 0x15) = x
  simp only [place] at hx
  refine raw44 _ _ (field_of x 24 7 0x44 (by omega) (by omega)) ?_
  have c_1 := field_of x 0 5 21 (by omega) (by omega)
  have c_2 := field_of x 5 2 0 (by omega) (by omega)
  have c_3 := field_of x 12 4 0 (by omega) (by omega)
  have f_d := field_eq x 20 4 d (by omega) (by omega)
  have f_a := field_eq x 16 4 a (by omega) (by omega)
  have f_m := field_eq x 7 5 m (by omega) (by omega)
  have f_S := top_of x S (by omega)
  simp [decodeOp44, c_1, c_2, c_3, f_d, f_a, f_m, f_S]

theorem RoundTrip.vtopk (S : Bool) (d : BitVec 4) (a : BitVec 4) (k : BitVec 5) (u : BitVec 1) (t : BitVec 4) : RoundTrip.Statement (.vtopk S d a k u t) := by
  refine RoundTrip.of_word (wordOf S 0x44 (place d 20 + place a 16 + place k 7 + 0x20 + place u 4 + place t 0)) rfl fun hw next => ?_
  have b_d := d.isLt
  have b_a := a.isLt
  have b_k := k.isLt
  have b_u := u.isLt
  have b_t := t.isLt
  have b_S := S.toNat_le
  refine decode_of (BitVec.ofNat 32 (S.toNat * 2 ^ 31 + 0x44 * 2 ^ 24 + (place d 20 + place a 16 + place k 7 + 0x20 + place u 4 + place t 0))) next ?_ hw
  generalize hx : S.toNat * 2 ^ 31 + 0x44 * 2 ^ 24 + (place d 20 + place a 16 + place k 7 + 0x20 + place u 4 + place t 0) = x
  simp only [place] at hx
  refine raw44 _ _ (field_of x 24 7 0x44 (by omega) (by omega)) ?_
  have c_1 := field_of x 5 2 1 (by omega) (by omega)
  have c_2 := field_of x 12 4 0 (by omega) (by omega)
  have f_d := field_eq x 20 4 d (by omega) (by omega)
  have f_a := field_eq x 16 4 a (by omega) (by omega)
  have f_k := field_eq x 7 5 k (by omega) (by omega)
  have f_u := field_eq x 4 1 u (by omega) (by omega)
  have f_t := field_eq x 0 4 t (by omega) (by omega)
  have f_S := top_of x S (by omega)
  simp [decodeOp44, c_1, c_2, f_d, f_a, f_k, f_u, f_t, f_S]

theorem RoundTrip.vcvtTobf (S : Bool) (d : BitVec 4) (a : BitVec 4) (m : BitVec 5) : RoundTrip.Statement (.vcvtTobf S d a m) := by
  refine RoundTrip.of_word (wordOf S 0x45 (place d 20 + place a 16 + place m 7)) rfl fun hw next => ?_
  have b_d := d.isLt
  have b_a := a.isLt
  have b_m := m.isLt
  have b_S := S.toNat_le
  refine decode_of (BitVec.ofNat 32 (S.toNat * 2 ^ 31 + 0x45 * 2 ^ 24 + (place d 20 + place a 16 + place m 7))) next ?_ hw
  generalize hx : S.toNat * 2 ^ 31 + 0x45 * 2 ^ 24 + (place d 20 + place a 16 + place m 7) = x
  simp only [place] at hx
  refine raw45 _ _ (field_of x 24 7 0x45 (by omega) (by omega)) ?_
  have c_1 := field_of x 0 7 0 (by omega) (by omega)
  have c_2 := field_of x 12 4 0 (by omega) (by omega)
  have f_d := field_eq x 20 4 d (by omega) (by omega)
  have f_a := field_eq x 16 4 a (by omega) (by omega)
  have f_m := field_eq x 7 5 m (by omega) (by omega)
  have f_S := top_of x S (by omega)
  simp [decodeOp45, c_1, c_2, f_d, f_a, f_m, f_S]

theorem RoundTrip.vcvtFrombf (S : Bool) (d : BitVec 4) (a : BitVec 4) (m : BitVec 5) : RoundTrip.Statement (.vcvtFrombf S d a m) := by
  refine RoundTrip.of_word (wordOf S 0x45 (place d 20 + place a 16 + place m 7 + 0x1)) rfl fun hw next => ?_
  have b_d := d.isLt
  have b_a := a.isLt
  have b_m := m.isLt
  have b_S := S.toNat_le
  refine decode_of (BitVec.ofNat 32 (S.toNat * 2 ^ 31 + 0x45 * 2 ^ 24 + (place d 20 + place a 16 + place m 7 + 0x1))) next ?_ hw
  generalize hx : S.toNat * 2 ^ 31 + 0x45 * 2 ^ 24 + (place d 20 + place a 16 + place m 7 + 0x1) = x
  simp only [place] at hx
  refine raw45 _ _ (field_of x 24 7 0x45 (by omega) (by omega)) ?_
  have c_1 := field_of x 0 7 1 (by omega) (by omega)
  have c_2 := field_of x 12 4 0 (by omega) (by omega)
  have f_d := field_eq x 20 4 d (by omega) (by omega)
  have f_a := field_eq x 16 4 a (by omega) (by omega)
  have f_m := field_eq x 7 5 m (by omega) (by omega)
  have f_S := top_of x S (by omega)
  simp [decodeOp45, c_1, c_2, f_d, f_a, f_m, f_S]

theorem RoundTrip.vcvtItof (S : Bool) (d : BitVec 4) (a : BitVec 4) (m : BitVec 5) : RoundTrip.Statement (.vcvtItof S d a m) := by
  refine RoundTrip.of_word (wordOf S 0x45 (place d 20 + place a 16 + place m 7 + 0x2)) rfl fun hw next => ?_
  have b_d := d.isLt
  have b_a := a.isLt
  have b_m := m.isLt
  have b_S := S.toNat_le
  refine decode_of (BitVec.ofNat 32 (S.toNat * 2 ^ 31 + 0x45 * 2 ^ 24 + (place d 20 + place a 16 + place m 7 + 0x2))) next ?_ hw
  generalize hx : S.toNat * 2 ^ 31 + 0x45 * 2 ^ 24 + (place d 20 + place a 16 + place m 7 + 0x2) = x
  simp only [place] at hx
  refine raw45 _ _ (field_of x 24 7 0x45 (by omega) (by omega)) ?_
  have c_1 := field_of x 0 7 2 (by omega) (by omega)
  have c_2 := field_of x 12 4 0 (by omega) (by omega)
  have f_d := field_eq x 20 4 d (by omega) (by omega)
  have f_a := field_eq x 16 4 a (by omega) (by omega)
  have f_m := field_eq x 7 5 m (by omega) (by omega)
  have f_S := top_of x S (by omega)
  simp [decodeOp45, c_1, c_2, f_d, f_a, f_m, f_S]

theorem RoundTrip.vcvtFtoi (S : Bool) (d : BitVec 4) (a : BitVec 4) (m : BitVec 5) : RoundTrip.Statement (.vcvtFtoi S d a m) := by
  refine RoundTrip.of_word (wordOf S 0x45 (place d 20 + place a 16 + place m 7 + 0x3)) rfl fun hw next => ?_
  have b_d := d.isLt
  have b_a := a.isLt
  have b_m := m.isLt
  have b_S := S.toNat_le
  refine decode_of (BitVec.ofNat 32 (S.toNat * 2 ^ 31 + 0x45 * 2 ^ 24 + (place d 20 + place a 16 + place m 7 + 0x3))) next ?_ hw
  generalize hx : S.toNat * 2 ^ 31 + 0x45 * 2 ^ 24 + (place d 20 + place a 16 + place m 7 + 0x3) = x
  simp only [place] at hx
  refine raw45 _ _ (field_of x 24 7 0x45 (by omega) (by omega)) ?_
  have c_1 := field_of x 0 7 3 (by omega) (by omega)
  have c_2 := field_of x 12 4 0 (by omega) (by omega)
  have f_d := field_eq x 20 4 d (by omega) (by omega)
  have f_a := field_eq x 16 4 a (by omega) (by omega)
  have f_m := field_eq x 7 5 m (by omega) (by omega)
  have f_S := top_of x S (by omega)
  simp [decodeOp45, c_1, c_2, f_d, f_a, f_m, f_S]

theorem RoundTrip.vcvtSat8 (S : Bool) (d : BitVec 4) (a : BitVec 4) (m : BitVec 5) : RoundTrip.Statement (.vcvtSat8 S d a m) := by
  refine RoundTrip.of_word (wordOf S 0x45 (place d 20 + place a 16 + place m 7 + 0x4)) rfl fun hw next => ?_
  have b_d := d.isLt
  have b_a := a.isLt
  have b_m := m.isLt
  have b_S := S.toNat_le
  refine decode_of (BitVec.ofNat 32 (S.toNat * 2 ^ 31 + 0x45 * 2 ^ 24 + (place d 20 + place a 16 + place m 7 + 0x4))) next ?_ hw
  generalize hx : S.toNat * 2 ^ 31 + 0x45 * 2 ^ 24 + (place d 20 + place a 16 + place m 7 + 0x4) = x
  simp only [place] at hx
  refine raw45 _ _ (field_of x 24 7 0x45 (by omega) (by omega)) ?_
  have c_1 := field_of x 0 7 4 (by omega) (by omega)
  have c_2 := field_of x 12 4 0 (by omega) (by omega)
  have f_d := field_eq x 20 4 d (by omega) (by omega)
  have f_a := field_eq x 16 4 a (by omega) (by omega)
  have f_m := field_eq x 7 5 m (by omega) (by omega)
  have f_S := top_of x S (by omega)
  simp [decodeOp45, c_1, c_2, f_d, f_a, f_m, f_S]

theorem RoundTrip.vcvtSat16 (S : Bool) (d : BitVec 4) (a : BitVec 4) (m : BitVec 5) : RoundTrip.Statement (.vcvtSat16 S d a m) := by
  refine RoundTrip.of_word (wordOf S 0x45 (place d 20 + place a 16 + place m 7 + 0x5)) rfl fun hw next => ?_
  have b_d := d.isLt
  have b_a := a.isLt
  have b_m := m.isLt
  have b_S := S.toNat_le
  refine decode_of (BitVec.ofNat 32 (S.toNat * 2 ^ 31 + 0x45 * 2 ^ 24 + (place d 20 + place a 16 + place m 7 + 0x5))) next ?_ hw
  generalize hx : S.toNat * 2 ^ 31 + 0x45 * 2 ^ 24 + (place d 20 + place a 16 + place m 7 + 0x5) = x
  simp only [place] at hx
  refine raw45 _ _ (field_of x 24 7 0x45 (by omega) (by omega)) ?_
  have c_1 := field_of x 0 7 5 (by omega) (by omega)
  have c_2 := field_of x 12 4 0 (by omega) (by omega)
  have f_d := field_eq x 20 4 d (by omega) (by omega)
  have f_a := field_eq x 16 4 a (by omega) (by omega)
  have f_m := field_eq x 7 5 m (by omega) (by omega)
  have f_S := top_of x S (by omega)
  simp [decodeOp45, c_1, c_2, f_d, f_a, f_m, f_S]

theorem RoundTrip.vcvtMxq (S : Bool) (d : BitVec 4) (a : BitVec 4) (b : BitVec 4) : RoundTrip.Statement (.vcvtMxq S d a b) := by
  refine RoundTrip.of_word (wordOf S 0x45 (place d 20 + place a 16 + place b 12 + 0x6)) rfl fun hw next => ?_
  have b_d := d.isLt
  have b_a := a.isLt
  have b_b := b.isLt
  have b_S := S.toNat_le
  refine decode_of (BitVec.ofNat 32 (S.toNat * 2 ^ 31 + 0x45 * 2 ^ 24 + (place d 20 + place a 16 + place b 12 + 0x6))) next ?_ hw
  generalize hx : S.toNat * 2 ^ 31 + 0x45 * 2 ^ 24 + (place d 20 + place a 16 + place b 12 + 0x6) = x
  simp only [place] at hx
  refine raw45 _ _ (field_of x 24 7 0x45 (by omega) (by omega)) ?_
  have c_1 := field_of x 0 7 6 (by omega) (by omega)
  have c_2 := field_of x 0 12 6 (by omega) (by omega)
  have f_d := field_eq x 20 4 d (by omega) (by omega)
  have f_a := field_eq x 16 4 a (by omega) (by omega)
  have f_b := field_eq x 12 4 b (by omega) (by omega)
  have f_S := top_of x S (by omega)
  simp [decodeOp45, c_1, c_2, f_d, f_a, f_b, f_S]

theorem RoundTrip.vcvtMxd (S : Bool) (d : BitVec 4) (a : BitVec 4) (b : BitVec 4) : RoundTrip.Statement (.vcvtMxd S d a b) := by
  refine RoundTrip.of_word (wordOf S 0x45 (place d 20 + place a 16 + place b 12 + 0x7)) rfl fun hw next => ?_
  have b_d := d.isLt
  have b_a := a.isLt
  have b_b := b.isLt
  have b_S := S.toNat_le
  refine decode_of (BitVec.ofNat 32 (S.toNat * 2 ^ 31 + 0x45 * 2 ^ 24 + (place d 20 + place a 16 + place b 12 + 0x7))) next ?_ hw
  generalize hx : S.toNat * 2 ^ 31 + 0x45 * 2 ^ 24 + (place d 20 + place a 16 + place b 12 + 0x7) = x
  simp only [place] at hx
  refine raw45 _ _ (field_of x 24 7 0x45 (by omega) (by omega)) ?_
  have c_1 := field_of x 0 7 7 (by omega) (by omega)
  have c_2 := field_of x 0 12 7 (by omega) (by omega)
  have f_d := field_eq x 20 4 d (by omega) (by omega)
  have f_a := field_eq x 16 4 a (by omega) (by omega)
  have f_b := field_eq x 12 4 b (by omega) (by omega)
  have f_S := top_of x S (by omega)
  simp [decodeOp45, c_1, c_2, f_d, f_a, f_b, f_S]

theorem RoundTrip.vcvtTdec (S : Bool) (d : BitVec 4) (a : BitVec 4) (m : BitVec 5) : RoundTrip.Statement (.vcvtTdec S d a m) := by
  refine RoundTrip.of_word (wordOf S 0x45 (place d 20 + place a 16 + place m 7 + 0x8)) rfl fun hw next => ?_
  have b_d := d.isLt
  have b_a := a.isLt
  have b_m := m.isLt
  have b_S := S.toNat_le
  refine decode_of (BitVec.ofNat 32 (S.toNat * 2 ^ 31 + 0x45 * 2 ^ 24 + (place d 20 + place a 16 + place m 7 + 0x8))) next ?_ hw
  generalize hx : S.toNat * 2 ^ 31 + 0x45 * 2 ^ 24 + (place d 20 + place a 16 + place m 7 + 0x8) = x
  simp only [place] at hx
  refine raw45 _ _ (field_of x 24 7 0x45 (by omega) (by omega)) ?_
  have c_1 := field_of x 0 7 8 (by omega) (by omega)
  have c_2 := field_of x 12 4 0 (by omega) (by omega)
  have f_d := field_eq x 20 4 d (by omega) (by omega)
  have f_a := field_eq x 16 4 a (by omega) (by omega)
  have f_m := field_eq x 7 5 m (by omega) (by omega)
  have n_6 := field_ne x 0 12 6 (by omega) (by omega)
  have n_7 := field_ne x 0 12 7 (by omega) (by omega)
  have f_S := top_of x S (by omega)
  simp [decodeOp45, c_1, c_2, f_d, f_a, f_m, n_6, n_7, f_S]

theorem RoundTrip.vcvtTenc (S : Bool) (d : BitVec 4) (a : BitVec 4) (m : BitVec 5) : RoundTrip.Statement (.vcvtTenc S d a m) := by
  refine RoundTrip.of_word (wordOf S 0x45 (place d 20 + place a 16 + place m 7 + 0x9)) rfl fun hw next => ?_
  have b_d := d.isLt
  have b_a := a.isLt
  have b_m := m.isLt
  have b_S := S.toNat_le
  refine decode_of (BitVec.ofNat 32 (S.toNat * 2 ^ 31 + 0x45 * 2 ^ 24 + (place d 20 + place a 16 + place m 7 + 0x9))) next ?_ hw
  generalize hx : S.toNat * 2 ^ 31 + 0x45 * 2 ^ 24 + (place d 20 + place a 16 + place m 7 + 0x9) = x
  simp only [place] at hx
  refine raw45 _ _ (field_of x 24 7 0x45 (by omega) (by omega)) ?_
  have c_1 := field_of x 0 7 9 (by omega) (by omega)
  have c_2 := field_of x 12 4 0 (by omega) (by omega)
  have f_d := field_eq x 20 4 d (by omega) (by omega)
  have f_a := field_eq x 16 4 a (by omega) (by omega)
  have f_m := field_eq x 7 5 m (by omega) (by omega)
  have n_6 := field_ne x 0 12 6 (by omega) (by omega)
  have n_7 := field_ne x 0 12 7 (by omega) (by omega)
  have f_S := top_of x S (by omega)
  simp [decodeOp45, c_1, c_2, f_d, f_a, f_m, n_6, n_7, f_S]

theorem RoundTrip.vld (S : Bool) (d : BitVec 4) (b : BitVec 5) (m : BitVec 5) (z : BitVec 2) : RoundTrip.Statement (.vld S d b m z) := by
  refine RoundTrip.of_word (wordOf S 0x46 (place d 20 + place b 15 + place m 7 + place z 4)) rfl fun hw next => ?_
  have b_d := d.isLt
  have b_b := b.isLt
  have b_m := m.isLt
  have b_z := z.isLt
  have b_S := S.toNat_le
  refine decode_of (BitVec.ofNat 32 (S.toNat * 2 ^ 31 + 0x46 * 2 ^ 24 + (place d 20 + place b 15 + place m 7 + place z 4))) next ?_ hw
  generalize hx : S.toNat * 2 ^ 31 + 0x46 * 2 ^ 24 + (place d 20 + place b 15 + place m 7 + place z 4) = x
  simp only [place] at hx
  refine raw46 _ _ (field_of x 24 7 0x46 (by omega) (by omega)) ?_
  have c_1 := field_of x 0 4 0 (by omega) (by omega)
  have c_2 := field_of x 6 1 0 (by omega) (by omega)
  have c_3 := field_of x 12 3 0 (by omega) (by omega)
  have f_d := field_eq x 20 4 d (by omega) (by omega)
  have f_b := field_eq x 15 5 b (by omega) (by omega)
  have f_m := field_eq x 7 5 m (by omega) (by omega)
  have f_z := field_eq x 4 2 z (by omega) (by omega)
  have f_S := top_of x S (by omega)
  simp [decodeOp46, c_1, c_2, c_3, f_d, f_b, f_m, f_z, f_S]

theorem RoundTrip.vst (S : Bool) (d : BitVec 4) (b : BitVec 5) (m : BitVec 5) (z : BitVec 2) : RoundTrip.Statement (.vst S d b m z) := by
  refine RoundTrip.of_word (wordOf S 0x46 (place d 20 + place b 15 + place m 7 + 0x40 + place z 4)) rfl fun hw next => ?_
  have b_d := d.isLt
  have b_b := b.isLt
  have b_m := m.isLt
  have b_z := z.isLt
  have b_S := S.toNat_le
  refine decode_of (BitVec.ofNat 32 (S.toNat * 2 ^ 31 + 0x46 * 2 ^ 24 + (place d 20 + place b 15 + place m 7 + 0x40 + place z 4))) next ?_ hw
  generalize hx : S.toNat * 2 ^ 31 + 0x46 * 2 ^ 24 + (place d 20 + place b 15 + place m 7 + 0x40 + place z 4) = x
  simp only [place] at hx
  refine raw46 _ _ (field_of x 24 7 0x46 (by omega) (by omega)) ?_
  have c_1 := field_of x 0 4 0 (by omega) (by omega)
  have c_2 := field_of x 6 1 1 (by omega) (by omega)
  have c_3 := field_of x 12 3 0 (by omega) (by omega)
  have f_d := field_eq x 20 4 d (by omega) (by omega)
  have f_b := field_eq x 15 5 b (by omega) (by omega)
  have f_m := field_eq x 7 5 m (by omega) (by omega)
  have f_z := field_eq x 4 2 z (by omega) (by omega)
  have f_S := top_of x S (by omega)
  simp [decodeOp46, c_1, c_2, c_3, f_d, f_b, f_m, f_z, f_S]

theorem RoundTrip.vsetvl (S : Bool) (d : BitVec 5) (a : BitVec 5) : RoundTrip.Statement (.vsetvl S d a) := by
  refine RoundTrip.of_word (wordOf S 0x47 (place d 19 + place a 14)) rfl fun hw next => ?_
  have b_d := d.isLt
  have b_a := a.isLt
  have b_S := S.toNat_le
  refine decode_of (BitVec.ofNat 32 (S.toNat * 2 ^ 31 + 0x47 * 2 ^ 24 + (place d 19 + place a 14))) next ?_ hw
  generalize hx : S.toNat * 2 ^ 31 + 0x47 * 2 ^ 24 + (place d 19 + place a 14) = x
  simp only [place] at hx
  refine raw47 _ _ (field_of x 24 7 0x47 (by omega) (by omega)) ?_
  have c_1 := field_of x 0 9 0 (by omega) (by omega)
  have c_2 := field_of x 9 5 0 (by omega) (by omega)
  have f_d := field_eq x 19 5 d (by omega) (by omega)
  have f_a := field_eq x 14 5 a (by omega) (by omega)
  have f_S := top_of x S (by omega)
  simp [decodeOp47, c_1, c_2, f_d, f_a, f_S]

theorem RoundTrip.vmovgToG (S : Bool) (d : BitVec 5) (v : BitVec 4) (b : BitVec 5) : RoundTrip.Statement (.vmovgToG S d v b) := by
  refine RoundTrip.of_word (wordOf S 0x47 (place d 19 + place v 14 + place b 9 + 0x1)) rfl fun hw next => ?_
  have b_d := d.isLt
  have b_v := v.isLt
  have b_b := b.isLt
  have b_S := S.toNat_le
  refine decode_of (BitVec.ofNat 32 (S.toNat * 2 ^ 31 + 0x47 * 2 ^ 24 + (place d 19 + place v 14 + place b 9 + 0x1))) next ?_ hw
  generalize hx : S.toNat * 2 ^ 31 + 0x47 * 2 ^ 24 + (place d 19 + place v 14 + place b 9 + 0x1) = x
  simp only [place] at hx
  refine raw47 _ _ (field_of x 24 7 0x47 (by omega) (by omega)) ?_
  have c_1 := field_of x 0 9 1 (by omega) (by omega)
  have c_2 := field_of x 18 1 0 (by omega) (by omega)
  have f_d := field_eq x 19 5 d (by omega) (by omega)
  have f_v := field_eq x 14 4 v (by omega) (by omega)
  have f_b := field_eq x 9 5 b (by omega) (by omega)
  have f_S := top_of x S (by omega)
  simp [decodeOp47, c_1, c_2, f_d, f_v, f_b, f_S]

theorem RoundTrip.vmovgToV (S : Bool) (v : BitVec 4) (a : BitVec 5) (b : BitVec 5) : RoundTrip.Statement (.vmovgToV S v a b) := by
  refine RoundTrip.of_word (wordOf S 0x47 (place v 19 + place a 14 + place b 9 + 0x2)) rfl fun hw next => ?_
  have b_v := v.isLt
  have b_a := a.isLt
  have b_b := b.isLt
  have b_S := S.toNat_le
  refine decode_of (BitVec.ofNat 32 (S.toNat * 2 ^ 31 + 0x47 * 2 ^ 24 + (place v 19 + place a 14 + place b 9 + 0x2))) next ?_ hw
  generalize hx : S.toNat * 2 ^ 31 + 0x47 * 2 ^ 24 + (place v 19 + place a 14 + place b 9 + 0x2) = x
  simp only [place] at hx
  refine raw47 _ _ (field_of x 24 7 0x47 (by omega) (by omega)) ?_
  have c_1 := field_of x 0 9 2 (by omega) (by omega)
  have c_2 := field_of x 23 1 0 (by omega) (by omega)
  have f_v := field_eq x 19 4 v (by omega) (by omega)
  have f_a := field_eq x 14 5 a (by omega) (by omega)
  have f_b := field_eq x 9 5 b (by omega) (by omega)
  have f_S := top_of x S (by omega)
  simp [decodeOp47, c_1, c_2, f_v, f_a, f_b, f_S]

theorem RoundTrip.vectorBind (q : Nat) (l : Nat) : RoundTrip.Statement (.vectorBind q l) := by
  intro _ _ h; exact nomatch h

theorem RoundTrip.kclr (S : Bool) (k : BitVec 3) : RoundTrip.Statement (.kclr S k) := by
  refine RoundTrip.of_word (wordOf S 0x50 (place k 21)) rfl fun hw next => ?_
  have b_k := k.isLt
  have b_S := S.toNat_le
  refine decode_of (BitVec.ofNat 32 (S.toNat * 2 ^ 31 + 0x50 * 2 ^ 24 + (place k 21))) next ?_ hw
  generalize hx : S.toNat * 2 ^ 31 + 0x50 * 2 ^ 24 + (place k 21) = x
  simp only [place] at hx
  refine raw50 _ _ (field_of x 24 7 0x50 (by omega) (by omega)) ?_
  have c_1 := field_of x 0 21 0 (by omega) (by omega)
  have f_k := field_eq x 21 3 k (by omega) (by omega)
  have f_S := top_of x S (by omega)
  simp [decodeOp50, c_1, f_k, f_S]

theorem RoundTrip.kset (S : Bool) (k : BitVec 3) (a : BitVec 5) (f : BitVec 6) (i : BitVec 10) : RoundTrip.Statement (.kset S k a f i) := by
  refine RoundTrip.of_word (wordOf S 0x51 (place k 21 + place a 16 + place f 10 + place i 0)) rfl fun hw next => ?_
  have b_k := k.isLt
  have b_a := a.isLt
  have b_f := f.isLt
  have b_i := i.isLt
  have b_S := S.toNat_le
  refine decode_of (BitVec.ofNat 32 (S.toNat * 2 ^ 31 + 0x51 * 2 ^ 24 + (place k 21 + place a 16 + place f 10 + place i 0))) next ?_ hw
  generalize hx : S.toNat * 2 ^ 31 + 0x51 * 2 ^ 24 + (place k 21 + place a 16 + place f 10 + place i 0) = x
  simp only [place] at hx
  refine raw51 _ _ (field_of x 24 7 0x51 (by omega) (by omega)) ?_
  have f_k := field_eq x 21 3 k (by omega) (by omega)
  have f_a := field_eq x 16 5 a (by omega) (by omega)
  have f_f := field_eq x 10 6 f (by omega) (by omega)
  have f_i := field_eq x 0 10 i (by omega) (by omega)
  have f_S := top_of x S (by omega)
  simp [decodeOp51, f_k, f_a, f_f, f_i, f_S]

theorem RoundTrip.kcap (S : Bool) (k : BitVec 3) (a : BitVec 5) (w : BitVec 3) (i : BitVec 10) : RoundTrip.Statement (.kcap S k a w i) := by
  refine RoundTrip.of_word (wordOf S 0x52 (place k 21 + place a 16 + place w 13 + place i 0)) rfl fun hw next => ?_
  have b_k := k.isLt
  have b_a := a.isLt
  have b_w := w.isLt
  have b_i := i.isLt
  have b_S := S.toNat_le
  refine decode_of (BitVec.ofNat 32 (S.toNat * 2 ^ 31 + 0x52 * 2 ^ 24 + (place k 21 + place a 16 + place w 13 + place i 0))) next ?_ hw
  generalize hx : S.toNat * 2 ^ 31 + 0x52 * 2 ^ 24 + (place k 21 + place a 16 + place w 13 + place i 0) = x
  simp only [place] at hx
  refine raw52 _ _ (field_of x 24 7 0x52 (by omega) (by omega)) ?_
  have c_1 := field_of x 10 3 0 (by omega) (by omega)
  have f_k := field_eq x 21 3 k (by omega) (by omega)
  have f_a := field_eq x 16 5 a (by omega) (by omega)
  have f_w := field_eq x 13 3 w (by omega) (by omega)
  have f_i := field_eq x 0 10 i (by omega) (by omega)
  have f_S := top_of x S (by omega)
  simp [decodeOp52, c_1, f_k, f_a, f_w, f_i, f_S]

theorem RoundTrip.push (S : Bool) (k : BitVec 3) (a : BitVec 5) : RoundTrip.Statement (.push S k a) := by
  refine RoundTrip.of_word (wordOf S 0x53 (place k 21 + place a 16)) rfl fun hw next => ?_
  have b_k := k.isLt
  have b_a := a.isLt
  have b_S := S.toNat_le
  refine decode_of (BitVec.ofNat 32 (S.toNat * 2 ^ 31 + 0x53 * 2 ^ 24 + (place k 21 + place a 16))) next ?_ hw
  generalize hx : S.toNat * 2 ^ 31 + 0x53 * 2 ^ 24 + (place k 21 + place a 16) = x
  simp only [place] at hx
  refine raw53 _ _ (field_of x 24 7 0x53 (by omega) (by omega)) ?_
  have c_1 := field_of x 0 16 0 (by omega) (by omega)
  have f_k := field_eq x 21 3 k (by omega) (by omega)
  have f_a := field_eq x 16 5 a (by omega) (by omega)
  have f_S := top_of x S (by omega)
  simp [decodeOp53, c_1, f_k, f_a, f_S]

theorem RoundTrip.gissueWide (S : Bool) (k : BitVec 3) : RoundTrip.Statement (.gissueWide S k) := by
  refine RoundTrip.of_word (wordOf S 0x54 (place k 21)) rfl fun hw next => ?_
  have b_k := k.isLt
  have b_S := S.toNat_le
  refine decode_of (BitVec.ofNat 32 (S.toNat * 2 ^ 31 + 0x54 * 2 ^ 24 + (place k 21))) next ?_ hw
  generalize hx : S.toNat * 2 ^ 31 + 0x54 * 2 ^ 24 + (place k 21) = x
  simp only [place] at hx
  refine raw54 _ _ (field_of x 24 7 0x54 (by omega) (by omega)) ?_
  have c_1 := field_of x 0 10 0 (by omega) (by omega)
  have c_2 := field_of x 10 6 0 (by omega) (by omega)
  have c_3 := field_of x 16 5 0 (by omega) (by omega)
  have f_k := field_eq x 21 3 k (by omega) (by omega)
  have f_S := top_of x S (by omega)
  simp [decodeOp54, c_1, c_2, c_3, f_k, f_S]

theorem RoundTrip.gissueDeep (S : Bool) (k : BitVec 3) : RoundTrip.Statement (.gissueDeep S k) := by
  refine RoundTrip.of_word (wordOf S 0x54 (place k 21 + 0x400)) rfl fun hw next => ?_
  have b_k := k.isLt
  have b_S := S.toNat_le
  refine decode_of (BitVec.ofNat 32 (S.toNat * 2 ^ 31 + 0x54 * 2 ^ 24 + (place k 21 + 0x400))) next ?_ hw
  generalize hx : S.toNat * 2 ^ 31 + 0x54 * 2 ^ 24 + (place k 21 + 0x400) = x
  simp only [place] at hx
  refine raw54 _ _ (field_of x 24 7 0x54 (by omega) (by omega)) ?_
  have c_1 := field_of x 0 10 0 (by omega) (by omega)
  have c_2 := field_of x 10 6 1 (by omega) (by omega)
  have c_3 := field_of x 16 5 0 (by omega) (by omega)
  have f_k := field_eq x 21 3 k (by omega) (by omega)
  have f_S := top_of x S (by omega)
  simp [decodeOp54, c_1, c_2, c_3, f_k, f_S]

theorem RoundTrip.jointOperation (q : Nat) : RoundTrip.Statement (.jointOperation q) := by
  intro _ _ h; exact nomatch h

theorem RoundTrip.cascade (S : Bool) (a : BitVec 5) : RoundTrip.Statement (.cascade S a) := by
  refine RoundTrip.of_word (wordOf S 0x55 (place a 14)) rfl fun hw next => ?_
  have b_a := a.isLt
  have b_S := S.toNat_le
  refine decode_of (BitVec.ofNat 32 (S.toNat * 2 ^ 31 + 0x55 * 2 ^ 24 + (place a 14))) next ?_ hw
  generalize hx : S.toNat * 2 ^ 31 + 0x55 * 2 ^ 24 + (place a 14) = x
  simp only [place] at hx
  refine raw55 _ _ (field_of x 24 7 0x55 (by omega) (by omega)) ?_
  have c_1 := field_of x 0 14 0 (by omega) (by omega)
  have c_2 := field_of x 19 5 0 (by omega) (by omega)
  have f_a := field_eq x 14 5 a (by omega) (by omega)
  have f_S := top_of x S (by omega)
  simp [decodeOp55, c_1, c_2, f_a, f_S]

theorem RoundTrip.qsave (S : Bool) : RoundTrip.Statement (.qsave S) := by
  refine RoundTrip.of_word (wordOf S 0x56 (0)) rfl fun hw next => ?_
  have b_S := S.toNat_le
  refine decode_of (BitVec.ofNat 32 (S.toNat * 2 ^ 31 + 0x56 * 2 ^ 24 + (0))) next ?_ hw
  generalize hx : S.toNat * 2 ^ 31 + 0x56 * 2 ^ 24 + (0) = x
  refine raw56 _ _ (field_of x 24 7 0x56 (by omega) (by omega)) ?_
  have c_1 := field_of x 0 24 0 (by omega) (by omega)
  have f_S := top_of x S (by omega)
  simp [decodeOp56, c_1, f_S]

theorem RoundTrip.qload (S : Bool) : RoundTrip.Statement (.qload S) := by
  refine RoundTrip.of_word (wordOf S 0x57 (0)) rfl fun hw next => ?_
  have b_S := S.toNat_le
  refine decode_of (BitVec.ofNat 32 (S.toNat * 2 ^ 31 + 0x57 * 2 ^ 24 + (0))) next ?_ hw
  generalize hx : S.toNat * 2 ^ 31 + 0x57 * 2 ^ 24 + (0) = x
  refine raw57 _ _ (field_of x 24 7 0x57 (by omega) (by omega)) ?_
  have c_1 := field_of x 0 24 0 (by omega) (by omega)
  have f_S := top_of x S (by omega)
  simp [decodeOp57, c_1, f_S]

theorem RoundTrip.evset (S : Bool) (e : BitVec 8) : RoundTrip.Statement (.evset S e) := by
  refine RoundTrip.of_word (wordOf S 0x58 (place e 0)) rfl fun hw next => ?_
  have b_e := e.isLt
  have b_S := S.toNat_le
  refine decode_of (BitVec.ofNat 32 (S.toNat * 2 ^ 31 + 0x58 * 2 ^ 24 + (place e 0))) next ?_ hw
  generalize hx : S.toNat * 2 ^ 31 + 0x58 * 2 ^ 24 + (place e 0) = x
  simp only [place] at hx
  refine raw58 _ _ (field_of x 24 7 0x58 (by omega) (by omega)) ?_
  have c_1 := field_of x 8 6 0 (by omega) (by omega)
  have c_2 := field_of x 14 5 0 (by omega) (by omega)
  have c_3 := field_of x 19 5 0 (by omega) (by omega)
  have f_e := field_eq x 0 8 e (by omega) (by omega)
  have f_S := top_of x S (by omega)
  simp [decodeOp58, c_1, c_2, c_3, f_e, f_S]

theorem RoundTrip.evclr (S : Bool) (e : BitVec 8) : RoundTrip.Statement (.evclr S e) := by
  refine RoundTrip.of_word (wordOf S 0x58 (0x1000 + place e 0)) rfl fun hw next => ?_
  have b_e := e.isLt
  have b_S := S.toNat_le
  refine decode_of (BitVec.ofNat 32 (S.toNat * 2 ^ 31 + 0x58 * 2 ^ 24 + (0x1000 + place e 0))) next ?_ hw
  generalize hx : S.toNat * 2 ^ 31 + 0x58 * 2 ^ 24 + (0x1000 + place e 0) = x
  simp only [place] at hx
  refine raw58 _ _ (field_of x 24 7 0x58 (by omega) (by omega)) ?_
  have c_1 := field_of x 8 6 16 (by omega) (by omega)
  have c_2 := field_of x 14 5 0 (by omega) (by omega)
  have c_3 := field_of x 19 5 0 (by omega) (by omega)
  have f_e := field_eq x 0 8 e (by omega) (by omega)
  have f_S := top_of x S (by omega)
  simp [decodeOp58, c_1, c_2, c_3, f_e, f_S]

theorem RoundTrip.evpost (S : Bool) (a : BitVec 5) (e : BitVec 8) : RoundTrip.Statement (.evpost S a e) := by
  refine RoundTrip.of_word (wordOf S 0x58 (place a 14 + 0x2000 + place e 0)) rfl fun hw next => ?_
  have b_a := a.isLt
  have b_e := e.isLt
  have b_S := S.toNat_le
  refine decode_of (BitVec.ofNat 32 (S.toNat * 2 ^ 31 + 0x58 * 2 ^ 24 + (place a 14 + 0x2000 + place e 0))) next ?_ hw
  generalize hx : S.toNat * 2 ^ 31 + 0x58 * 2 ^ 24 + (place a 14 + 0x2000 + place e 0) = x
  simp only [place] at hx
  refine raw58 _ _ (field_of x 24 7 0x58 (by omega) (by omega)) ?_
  have c_1 := field_of x 8 6 32 (by omega) (by omega)
  have c_2 := field_of x 19 5 0 (by omega) (by omega)
  have f_a := field_eq x 14 5 a (by omega) (by omega)
  have f_e := field_eq x 0 8 e (by omega) (by omega)
  have f_S := top_of x S (by omega)
  simp [decodeOp58, c_1, c_2, f_a, f_e, f_S]

theorem RoundTrip.eventBitUpdate (q : Nat) : RoundTrip.Statement (.eventBitUpdate q) := by
  intro _ _ h; exact nomatch h

theorem RoundTrip.evwait (S : Bool) (e : BitVec 8) : RoundTrip.Statement (.evwait S e) := by
  refine RoundTrip.of_word (wordOf S 0x59 (place e 0)) rfl fun hw next => ?_
  have b_e := e.isLt
  have b_S := S.toNat_le
  refine decode_of (BitVec.ofNat 32 (S.toNat * 2 ^ 31 + 0x59 * 2 ^ 24 + (place e 0))) next ?_ hw
  generalize hx : S.toNat * 2 ^ 31 + 0x59 * 2 ^ 24 + (place e 0) = x
  simp only [place] at hx
  refine raw59 _ _ (field_of x 24 7 0x59 (by omega) (by omega)) ?_
  have c_1 := field_of x 8 16 0 (by omega) (by omega)
  have f_e := field_eq x 0 8 e (by omega) (by omega)
  have f_S := top_of x S (by omega)
  simp [decodeOp59, c_1, f_e, f_S]

theorem RoundTrip.wsync (S : Bool) (p : BitVec 4) : RoundTrip.Statement (.wsync S p) := by
  refine RoundTrip.of_word (wordOf S 0x5A (place p 0)) rfl fun hw next => ?_
  have b_p := p.isLt
  have b_S := S.toNat_le
  refine decode_of (BitVec.ofNat 32 (S.toNat * 2 ^ 31 + 0x5A * 2 ^ 24 + (place p 0))) next ?_ hw
  generalize hx : S.toNat * 2 ^ 31 + 0x5A * 2 ^ 24 + (place p 0) = x
  simp only [place] at hx
  refine raw5A _ _ (field_of x 24 7 0x5A (by omega) (by omega)) ?_
  have c_1 := field_of x 4 20 0 (by omega) (by omega)
  have f_p := field_eq x 0 4 p (by omega) (by omega)
  have f_S := top_of x S (by omega)
  simp [decodeOp5A, c_1, f_p, f_S]

theorem RoundTrip.weirRelease (gang : Nat) (w : Weir) : RoundTrip.Statement (.weirRelease gang w) := by
  intro _ _ h; exact nomatch h

theorem RoundTrip.tbegin (S : Bool) : RoundTrip.Statement (.tbegin S) := by
  refine RoundTrip.of_word (wordOf S 0x5B (0)) rfl fun hw next => ?_
  have b_S := S.toNat_le
  refine decode_of (BitVec.ofNat 32 (S.toNat * 2 ^ 31 + 0x5B * 2 ^ 24 + (0))) next ?_ hw
  generalize hx : S.toNat * 2 ^ 31 + 0x5B * 2 ^ 24 + (0) = x
  refine raw5B _ _ (field_of x 24 7 0x5B (by omega) (by omega)) ?_
  have c_1 := field_of x 0 9 0 (by omega) (by omega)
  have c_2 := field_of x 9 15 0 (by omega) (by omega)
  have f_S := top_of x S (by omega)
  simp [decodeOp5B, c_1, c_2, f_S]

theorem RoundTrip.tend (S : Bool) : RoundTrip.Statement (.tend S) := by
  refine RoundTrip.of_word (wordOf S 0x5B (0x1)) rfl fun hw next => ?_
  have b_S := S.toNat_le
  refine decode_of (BitVec.ofNat 32 (S.toNat * 2 ^ 31 + 0x5B * 2 ^ 24 + (0x1))) next ?_ hw
  generalize hx : S.toNat * 2 ^ 31 + 0x5B * 2 ^ 24 + (0x1) = x
  refine raw5B _ _ (field_of x 24 7 0x5B (by omega) (by omega)) ?_
  have c_1 := field_of x 0 9 1 (by omega) (by omega)
  have c_2 := field_of x 9 15 0 (by omega) (by omega)
  have f_S := top_of x S (by omega)
  simp [decodeOp5B, c_1, c_2, f_S]

theorem RoundTrip.tsend (S : Bool) (a : BitVec 5) (c : BitVec 4) (n : BitVec 7) : RoundTrip.Statement (.tsend S a c n) := by
  refine RoundTrip.of_word (wordOf S 0x5C (place a 14 + place c 7 + place n 0)) rfl fun hw next => ?_
  have b_a := a.isLt
  have b_c := c.isLt
  have b_n := n.isLt
  have b_S := S.toNat_le
  refine decode_of (BitVec.ofNat 32 (S.toNat * 2 ^ 31 + 0x5C * 2 ^ 24 + (place a 14 + place c 7 + place n 0))) next ?_ hw
  generalize hx : S.toNat * 2 ^ 31 + 0x5C * 2 ^ 24 + (place a 14 + place c 7 + place n 0) = x
  simp only [place] at hx
  refine raw5C _ _ (field_of x 24 7 0x5C (by omega) (by omega)) ?_
  have c_1 := field_of x 11 3 0 (by omega) (by omega)
  have c_2 := field_of x 19 5 0 (by omega) (by omega)
  have f_a := field_eq x 14 5 a (by omega) (by omega)
  have f_c := field_eq x 7 4 c (by omega) (by omega)
  have f_n := field_eq x 0 7 n (by omega) (by omega)
  have f_S := top_of x S (by omega)
  simp [decodeOp5C, c_1, c_2, f_a, f_c, f_n, f_S]

theorem RoundTrip.trecv (S : Bool) (d : BitVec 5) (c : BitVec 4) (n : BitVec 7) : RoundTrip.Statement (.trecv S d c n) := by
  refine RoundTrip.of_word (wordOf S 0x5D (place d 19 + place c 7 + place n 0)) rfl fun hw next => ?_
  have b_d := d.isLt
  have b_c := c.isLt
  have b_n := n.isLt
  have b_S := S.toNat_le
  refine decode_of (BitVec.ofNat 32 (S.toNat * 2 ^ 31 + 0x5D * 2 ^ 24 + (place d 19 + place c 7 + place n 0))) next ?_ hw
  generalize hx : S.toNat * 2 ^ 31 + 0x5D * 2 ^ 24 + (place d 19 + place c 7 + place n 0) = x
  simp only [place] at hx
  refine raw5D _ _ (field_of x 24 7 0x5D (by omega) (by omega)) ?_
  have c_1 := field_of x 11 8 0 (by omega) (by omega)
  have f_d := field_eq x 19 5 d (by omega) (by omega)
  have f_c := field_eq x 7 4 c (by omega) (by omega)
  have f_n := field_eq x 0 7 n (by omega) (by omega)
  have f_S := top_of x S (by omega)
  simp [decodeOp5D, c_1, f_d, f_c, f_n, f_S]

theorem RoundTrip.timedFlitArrival (c : Nat) (n : Nat) : RoundTrip.Statement (.timedFlitArrival c n) := by
  intro _ _ h; exact nomatch h

theorem RoundTrip.send (S : Bool) (a : BitVec 5) (b : BitVec 5) (c : BitVec 4) : RoundTrip.Statement (.send S a b c) := by
  refine RoundTrip.of_word (wordOf S 0x5E (place a 14 + place b 9 + place c 5)) rfl fun hw next => ?_
  have b_a := a.isLt
  have b_b := b.isLt
  have b_c := c.isLt
  have b_S := S.toNat_le
  refine decode_of (BitVec.ofNat 32 (S.toNat * 2 ^ 31 + 0x5E * 2 ^ 24 + (place a 14 + place b 9 + place c 5))) next ?_ hw
  generalize hx : S.toNat * 2 ^ 31 + 0x5E * 2 ^ 24 + (place a 14 + place b 9 + place c 5) = x
  simp only [place] at hx
  refine raw5E _ _ (field_of x 24 7 0x5E (by omega) (by omega)) ?_
  have c_1 := field_of x 0 5 0 (by omega) (by omega)
  have c_2 := field_of x 19 5 0 (by omega) (by omega)
  have f_a := field_eq x 14 5 a (by omega) (by omega)
  have f_b := field_eq x 9 5 b (by omega) (by omega)
  have f_c := field_eq x 5 4 c (by omega) (by omega)
  have f_S := top_of x S (by omega)
  simp [decodeOp5E, c_1, c_2, f_a, f_b, f_c, f_S]

theorem RoundTrip.recv (S : Bool) (d : BitVec 5) (c : BitVec 4) : RoundTrip.Statement (.recv S d c) := by
  refine RoundTrip.of_word (wordOf S 0x5E (place d 19 + place c 5 + 0x1)) rfl fun hw next => ?_
  have b_d := d.isLt
  have b_c := c.isLt
  have b_S := S.toNat_le
  refine decode_of (BitVec.ofNat 32 (S.toNat * 2 ^ 31 + 0x5E * 2 ^ 24 + (place d 19 + place c 5 + 0x1))) next ?_ hw
  generalize hx : S.toNat * 2 ^ 31 + 0x5E * 2 ^ 24 + (place d 19 + place c 5 + 0x1) = x
  simp only [place] at hx
  refine raw5E _ _ (field_of x 24 7 0x5E (by omega) (by omega)) ?_
  have c_1 := field_of x 0 5 1 (by omega) (by omega)
  have c_2 := field_of x 9 10 0 (by omega) (by omega)
  have f_d := field_eq x 19 5 d (by omega) (by omega)
  have f_c := field_eq x 5 4 c (by omega) (by omega)
  have f_S := top_of x S (by omega)
  simp [decodeOp5E, c_1, c_2, f_d, f_c, f_S]

theorem RoundTrip.bwait (S : Bool) (a : BitVec 5) (b : BitVec 5) : RoundTrip.Statement (.bwait S a b) := by
  refine RoundTrip.of_word (wordOf S 0x5F (place a 14 + place b 9)) rfl fun hw next => ?_
  have b_a := a.isLt
  have b_b := b.isLt
  have b_S := S.toNat_le
  refine decode_of (BitVec.ofNat 32 (S.toNat * 2 ^ 31 + 0x5F * 2 ^ 24 + (place a 14 + place b 9))) next ?_ hw
  generalize hx : S.toNat * 2 ^ 31 + 0x5F * 2 ^ 24 + (place a 14 + place b 9) = x
  simp only [place] at hx
  refine raw5F _ _ (field_of x 24 7 0x5F (by omega) (by omega)) ?_
  have c_1 := field_of x 0 9 0 (by omega) (by omega)
  have c_2 := field_of x 19 5 0 (by omega) (by omega)
  have f_a := field_eq x 14 5 a (by omega) (by omega)
  have f_b := field_eq x 9 5 b (by omega) (by omega)
  have f_S := top_of x S (by omega)
  simp [decodeOp5F, c_1, c_2, f_a, f_b, f_S]

theorem RoundTrip.balloc (S : Bool) (d : BitVec 5) : RoundTrip.Statement (.balloc S d) := by
  refine RoundTrip.of_word (wordOf S 0x60 (place d 19)) rfl fun hw next => ?_
  have b_d := d.isLt
  have b_S := S.toNat_le
  refine decode_of (BitVec.ofNat 32 (S.toNat * 2 ^ 31 + 0x60 * 2 ^ 24 + (place d 19))) next ?_ hw
  generalize hx : S.toNat * 2 ^ 31 + 0x60 * 2 ^ 24 + (place d 19) = x
  simp only [place] at hx
  refine raw60 _ _ (field_of x 24 7 0x60 (by omega) (by omega)) ?_
  have c_1 := field_of x 0 19 0 (by omega) (by omega)
  have f_d := field_eq x 19 5 d (by omega) (by omega)
  have f_S := top_of x S (by omega)
  simp [decodeOp60, c_1, f_d, f_S]

theorem RoundTrip.bankZeroingEnd (c : Nat) (h : Nat) : RoundTrip.Statement (.bankZeroingEnd c h) := by
  intro _ _ h; exact nomatch h

theorem RoundTrip.bfree (S : Bool) (a : BitVec 5) : RoundTrip.Statement (.bfree S a) := by
  refine RoundTrip.of_word (wordOf S 0x61 (place a 14)) rfl fun hw next => ?_
  have b_a := a.isLt
  have b_S := S.toNat_le
  refine decode_of (BitVec.ofNat 32 (S.toNat * 2 ^ 31 + 0x61 * 2 ^ 24 + (place a 14))) next ?_ hw
  generalize hx : S.toNat * 2 ^ 31 + 0x61 * 2 ^ 24 + (place a 14) = x
  simp only [place] at hx
  refine raw61 _ _ (field_of x 24 7 0x61 (by omega) (by omega)) ?_
  have c_1 := field_of x 0 14 0 (by omega) (by omega)
  have c_2 := field_of x 19 5 0 (by omega) (by omega)
  have f_a := field_eq x 14 5 a (by omega) (by omega)
  have f_S := top_of x S (by omega)
  simp [decodeOp61, c_1, c_2, f_a, f_S]

theorem RoundTrip.launch (S : Bool) (d : BitVec 5) (a : BitVec 5) : RoundTrip.Statement (.launch S d a) := by
  refine RoundTrip.of_word (wordOf S 0x62 (place d 19 + place a 14)) rfl fun hw next => ?_
  have b_d := d.isLt
  have b_a := a.isLt
  have b_S := S.toNat_le
  refine decode_of (BitVec.ofNat 32 (S.toNat * 2 ^ 31 + 0x62 * 2 ^ 24 + (place d 19 + place a 14))) next ?_ hw
  generalize hx : S.toNat * 2 ^ 31 + 0x62 * 2 ^ 24 + (place d 19 + place a 14) = x
  simp only [place] at hx
  refine raw62 _ _ (field_of x 24 7 0x62 (by omega) (by omega)) ?_
  have c_1 := field_of x 0 14 0 (by omega) (by omega)
  have f_d := field_eq x 19 5 d (by omega) (by omega)
  have f_a := field_eq x 14 5 a (by omega) (by omega)
  have f_S := top_of x S (by omega)
  simp [decodeOp62, c_1, f_d, f_a, f_S]

theorem RoundTrip.taskDeposit (d : Nat) (ids : List Nat) : RoundTrip.Statement (.taskDeposit d ids) := by
  intro _ _ h; exact nomatch h

theorem RoundTrip.dtload (S : Bool) (a : BitVec 5) : RoundTrip.Statement (.dtload S a) := by
  refine RoundTrip.of_word (wordOf S 0x63 (place a 14)) rfl fun hw next => ?_
  have b_a := a.isLt
  have b_S := S.toNat_le
  refine decode_of (BitVec.ofNat 32 (S.toNat * 2 ^ 31 + 0x63 * 2 ^ 24 + (place a 14))) next ?_ hw
  generalize hx : S.toNat * 2 ^ 31 + 0x63 * 2 ^ 24 + (place a 14) = x
  simp only [place] at hx
  refine raw63 _ _ (field_of x 24 7 0x63 (by omega) (by omega)) ?_
  have c_1 := field_of x 0 14 0 (by omega) (by omega)
  have c_2 := field_of x 19 5 0 (by omega) (by omega)
  have f_a := field_eq x 14 5 a (by omega) (by omega)
  have f_S := top_of x S (by omega)
  simp [decodeOp63, c_1, c_2, f_a, f_S]

theorem RoundTrip.sysrd (S : Bool) (d : BitVec 5) (n : BitVec 14) : RoundTrip.Statement (.sysrd S d n) := by
  refine RoundTrip.of_word (wordOf S 0x68 (place d 19 + place n 0)) rfl fun hw next => ?_
  have b_d := d.isLt
  have b_n := n.isLt
  have b_S := S.toNat_le
  refine decode_of (BitVec.ofNat 32 (S.toNat * 2 ^ 31 + 0x68 * 2 ^ 24 + (place d 19 + place n 0))) next ?_ hw
  generalize hx : S.toNat * 2 ^ 31 + 0x68 * 2 ^ 24 + (place d 19 + place n 0) = x
  simp only [place] at hx
  refine raw68 _ _ (field_of x 24 7 0x68 (by omega) (by omega)) ?_
  have c_1 := field_of x 14 5 0 (by omega) (by omega)
  have f_d := field_eq x 19 5 d (by omega) (by omega)
  have f_n := field_eq x 0 14 n (by omega) (by omega)
  have f_S := top_of x S (by omega)
  simp [decodeOp68, c_1, f_d, f_n, f_S]

theorem RoundTrip.syswr (S : Bool) (a : BitVec 5) (n : BitVec 14) : RoundTrip.Statement (.syswr S a n) := by
  refine RoundTrip.of_word (wordOf S 0x69 (place a 14 + place n 0)) rfl fun hw next => ?_
  have b_a := a.isLt
  have b_n := n.isLt
  have b_S := S.toNat_le
  have hv : sysOwnRow n.toNat = false := by simpa using (Bool.and_eq_true_iff.mp hw).2
  have v_0 : n ≠ 0#14 := by rintro rfl; exact absurd hv (by decide)
  have v_1 : n ≠ 1#14 := by rintro rfl; exact absurd hv (by decide)
  have v_2 : n ≠ 19#14 := by rintro rfl; exact absurd hv (by decide)
  have v_3 : n ≠ 64#14 := by rintro rfl; exact absurd hv (by decide)
  have v_4 : n ≠ 65#14 := by rintro rfl; exact absurd hv (by decide)
  refine decode_of (BitVec.ofNat 32 (S.toNat * 2 ^ 31 + 0x69 * 2 ^ 24 + (place a 14 + place n 0))) next ?_ hw
  generalize hx : S.toNat * 2 ^ 31 + 0x69 * 2 ^ 24 + (place a 14 + place n 0) = x
  simp only [place] at hx
  refine raw69 _ _ (field_of x 24 7 0x69 (by omega) (by omega)) ?_
  have c_1 := field_of x 19 5 0 (by omega) (by omega)
  have f_a := field_eq x 14 5 a (by omega) (by omega)
  have f_n := field_eq x 0 14 n (by omega) (by omega)
  have f_S := top_of x S (by omega)
  simp [decodeOp69, c_1, f_a, f_n, f_S, v_0, v_1, v_2, v_3, v_4]

theorem RoundTrip.syswrStatus (S : Bool) (a : BitVec 5) : RoundTrip.Statement (.syswrStatus S a) := by
  refine RoundTrip.of_word (wordOf S 0x69 (place a 14)) rfl fun hw next => ?_
  have b_a := a.isLt
  have b_S := S.toNat_le
  refine decode_of (BitVec.ofNat 32 (S.toNat * 2 ^ 31 + 0x69 * 2 ^ 24 + (place a 14))) next ?_ hw
  generalize hx : S.toNat * 2 ^ 31 + 0x69 * 2 ^ 24 + (place a 14) = x
  simp only [place] at hx
  refine raw69 _ _ (field_of x 24 7 0x69 (by omega) (by omega)) ?_
  have c_1 := field_of x 0 14 0 (by omega) (by omega)
  have c_2 := field_of x 19 5 0 (by omega) (by omega)
  have f_a := field_eq x 14 5 a (by omega) (by omega)
  have f_S := top_of x S (by omega)
  simp [decodeOp69, c_1, c_2, f_a, f_S]

theorem RoundTrip.syswrPriv (S : Bool) (a : BitVec 5) : RoundTrip.Statement (.syswrPriv S a) := by
  refine RoundTrip.of_word (wordOf S 0x69 (place a 14 + 0x1)) rfl fun hw next => ?_
  have b_a := a.isLt
  have b_S := S.toNat_le
  refine decode_of (BitVec.ofNat 32 (S.toNat * 2 ^ 31 + 0x69 * 2 ^ 24 + (place a 14 + 0x1))) next ?_ hw
  generalize hx : S.toNat * 2 ^ 31 + 0x69 * 2 ^ 24 + (place a 14 + 0x1) = x
  simp only [place] at hx
  refine raw69 _ _ (field_of x 24 7 0x69 (by omega) (by omega)) ?_
  have c_1 := field_of x 0 14 1 (by omega) (by omega)
  have c_2 := field_of x 19 5 0 (by omega) (by omega)
  have f_a := field_eq x 14 5 a (by omega) (by omega)
  have f_S := top_of x S (by omega)
  simp [decodeOp69, c_1, c_2, f_a, f_S]

theorem RoundTrip.syswrPrivsz (S : Bool) (a : BitVec 5) : RoundTrip.Statement (.syswrPrivsz S a) := by
  refine RoundTrip.of_word (wordOf S 0x69 (place a 14 + 0x13)) rfl fun hw next => ?_
  have b_a := a.isLt
  have b_S := S.toNat_le
  refine decode_of (BitVec.ofNat 32 (S.toNat * 2 ^ 31 + 0x69 * 2 ^ 24 + (place a 14 + 0x13))) next ?_ hw
  generalize hx : S.toNat * 2 ^ 31 + 0x69 * 2 ^ 24 + (place a 14 + 0x13) = x
  simp only [place] at hx
  refine raw69 _ _ (field_of x 24 7 0x69 (by omega) (by omega)) ?_
  have c_1 := field_of x 0 14 19 (by omega) (by omega)
  have c_2 := field_of x 19 5 0 (by omega) (by omega)
  have f_a := field_eq x 14 5 a (by omega) (by omega)
  have f_S := top_of x S (by omega)
  simp [decodeOp69, c_1, c_2, f_a, f_S]

theorem RoundTrip.syswrXbase (S : Bool) (a : BitVec 5) : RoundTrip.Statement (.syswrXbase S a) := by
  refine RoundTrip.of_word (wordOf S 0x69 (place a 14 + 0x40)) rfl fun hw next => ?_
  have b_a := a.isLt
  have b_S := S.toNat_le
  refine decode_of (BitVec.ofNat 32 (S.toNat * 2 ^ 31 + 0x69 * 2 ^ 24 + (place a 14 + 0x40))) next ?_ hw
  generalize hx : S.toNat * 2 ^ 31 + 0x69 * 2 ^ 24 + (place a 14 + 0x40) = x
  simp only [place] at hx
  refine raw69 _ _ (field_of x 24 7 0x69 (by omega) (by omega)) ?_
  have c_1 := field_of x 0 14 64 (by omega) (by omega)
  have c_2 := field_of x 19 5 0 (by omega) (by omega)
  have f_a := field_eq x 14 5 a (by omega) (by omega)
  have f_S := top_of x S (by omega)
  simp [decodeOp69, c_1, c_2, f_a, f_S]

theorem RoundTrip.syswrXlimit (S : Bool) (a : BitVec 5) : RoundTrip.Statement (.syswrXlimit S a) := by
  refine RoundTrip.of_word (wordOf S 0x69 (place a 14 + 0x41)) rfl fun hw next => ?_
  have b_a := a.isLt
  have b_S := S.toNat_le
  refine decode_of (BitVec.ofNat 32 (S.toNat * 2 ^ 31 + 0x69 * 2 ^ 24 + (place a 14 + 0x41))) next ?_ hw
  generalize hx : S.toNat * 2 ^ 31 + 0x69 * 2 ^ 24 + (place a 14 + 0x41) = x
  simp only [place] at hx
  refine raw69 _ _ (field_of x 24 7 0x69 (by omega) (by omega)) ?_
  have c_1 := field_of x 0 14 65 (by omega) (by omega)
  have c_2 := field_of x 19 5 0 (by omega) (by omega)
  have f_a := field_eq x 14 5 a (by omega) (by omega)
  have f_S := top_of x S (by omega)
  simp [decodeOp69, c_1, c_2, f_a, f_S]

theorem RoundTrip.eret (S : Bool) : RoundTrip.Statement (.eret S) := by
  refine RoundTrip.of_word (wordOf S 0x6A (0)) rfl fun hw next => ?_
  have b_S := S.toNat_le
  refine decode_of (BitVec.ofNat 32 (S.toNat * 2 ^ 31 + 0x6A * 2 ^ 24 + (0))) next ?_ hw
  generalize hx : S.toNat * 2 ^ 31 + 0x6A * 2 ^ 24 + (0) = x
  refine raw6A _ _ (field_of x 24 7 0x6A (by omega) (by omega)) ?_
  have c_1 := field_of x 0 24 0 (by omega) (by omega)
  have f_S := top_of x S (by omega)
  simp [decodeOp6A, c_1, f_S]

theorem RoundTrip.tlbinvCtx (S : Bool) (a : BitVec 5) (p : BitVec 1) : RoundTrip.Statement (.tlbinvCtx S a p) := by
  refine RoundTrip.of_word (wordOf S 0x6B (place a 14 + place p 2)) rfl fun hw next => ?_
  have b_a := a.isLt
  have b_p := p.isLt
  have b_S := S.toNat_le
  refine decode_of (BitVec.ofNat 32 (S.toNat * 2 ^ 31 + 0x6B * 2 ^ 24 + (place a 14 + place p 2))) next ?_ hw
  generalize hx : S.toNat * 2 ^ 31 + 0x6B * 2 ^ 24 + (place a 14 + place p 2) = x
  simp only [place] at hx
  refine raw6B _ _ (field_of x 24 7 0x6B (by omega) (by omega)) ?_
  have c_1 := field_of x 0 2 0 (by omega) (by omega)
  have c_2 := field_of x 3 11 0 (by omega) (by omega)
  have c_3 := field_of x 19 5 0 (by omega) (by omega)
  have f_a := field_eq x 14 5 a (by omega) (by omega)
  have f_p := field_eq x 2 1 p (by omega) (by omega)
  have f_S := top_of x S (by omega)
  simp [decodeOp6B, c_1, c_2, c_3, f_a, f_p, f_S]

theorem RoundTrip.tlbinvPage (S : Bool) (a : BitVec 5) (p : BitVec 1) : RoundTrip.Statement (.tlbinvPage S a p) := by
  refine RoundTrip.of_word (wordOf S 0x6B (place a 14 + place p 2 + 0x1)) rfl fun hw next => ?_
  have b_a := a.isLt
  have b_p := p.isLt
  have b_S := S.toNat_le
  refine decode_of (BitVec.ofNat 32 (S.toNat * 2 ^ 31 + 0x6B * 2 ^ 24 + (place a 14 + place p 2 + 0x1))) next ?_ hw
  generalize hx : S.toNat * 2 ^ 31 + 0x6B * 2 ^ 24 + (place a 14 + place p 2 + 0x1) = x
  simp only [place] at hx
  refine raw6B _ _ (field_of x 24 7 0x6B (by omega) (by omega)) ?_
  have c_1 := field_of x 0 2 1 (by omega) (by omega)
  have c_2 := field_of x 3 11 0 (by omega) (by omega)
  have c_3 := field_of x 19 5 0 (by omega) (by omega)
  have f_a := field_eq x 14 5 a (by omega) (by omega)
  have f_p := field_eq x 2 1 p (by omega) (by omega)
  have f_S := top_of x S (by omega)
  simp [decodeOp6B, c_1, c_2, c_3, f_a, f_p, f_S]

theorem RoundTrip.tlbinvAll (S : Bool) (p : BitVec 1) : RoundTrip.Statement (.tlbinvAll S p) := by
  refine RoundTrip.of_word (wordOf S 0x6B (place p 2 + 0x2)) rfl fun hw next => ?_
  have b_p := p.isLt
  have b_S := S.toNat_le
  refine decode_of (BitVec.ofNat 32 (S.toNat * 2 ^ 31 + 0x6B * 2 ^ 24 + (place p 2 + 0x2))) next ?_ hw
  generalize hx : S.toNat * 2 ^ 31 + 0x6B * 2 ^ 24 + (place p 2 + 0x2) = x
  simp only [place] at hx
  refine raw6B _ _ (field_of x 24 7 0x6B (by omega) (by omega)) ?_
  have c_1 := field_of x 0 2 2 (by omega) (by omega)
  have c_2 := field_of x 3 11 0 (by omega) (by omega)
  have c_3 := field_of x 14 5 0 (by omega) (by omega)
  have c_4 := field_of x 19 5 0 (by omega) (by omega)
  have f_p := field_eq x 2 1 p (by omega) (by omega)
  have f_S := top_of x S (by omega)
  simp [decodeOp6B, c_1, c_2, c_3, c_4, f_p, f_S]

theorem RoundTrip.wfi (S : Bool) : RoundTrip.Statement (.wfi S) := by
  refine RoundTrip.of_word (wordOf S 0x6C (0)) rfl fun hw next => ?_
  have b_S := S.toNat_le
  refine decode_of (BitVec.ofNat 32 (S.toNat * 2 ^ 31 + 0x6C * 2 ^ 24 + (0))) next ?_ hw
  generalize hx : S.toNat * 2 ^ 31 + 0x6C * 2 ^ 24 + (0) = x
  refine raw6C _ _ (field_of x 24 7 0x6C (by omega) (by omega)) ?_
  have c_1 := field_of x 0 24 0 (by omega) (by omega)
  have f_S := top_of x S (by omega)
  simp [decodeOp6C, c_1, f_S]

theorem RoundTrip.wfiWake (c : CoreId) (w : Wake) : RoundTrip.Statement (.wfiWake c w) := by
  intro _ _ h; exact nomatch h

theorem RoundTrip.brk (S : Bool) (i : BitVec 19) : RoundTrip.Statement (.brk S i) := by
  refine RoundTrip.of_word (wordOf S 0x6D (place i 0)) rfl fun hw next => ?_
  have b_i := i.isLt
  have b_S := S.toNat_le
  refine decode_of (BitVec.ofNat 32 (S.toNat * 2 ^ 31 + 0x6D * 2 ^ 24 + (place i 0))) next ?_ hw
  generalize hx : S.toNat * 2 ^ 31 + 0x6D * 2 ^ 24 + (place i 0) = x
  simp only [place] at hx
  refine raw6D _ _ (field_of x 24 7 0x6D (by omega) (by omega)) ?_
  have c_1 := field_of x 19 5 0 (by omega) (by omega)
  have f_i := field_eq x 0 19 i (by omega) (by omega)
  have f_S := top_of x S (by omega)
  simp [decodeOp6D, c_1, f_i, f_S]

theorem RoundTrip.dld (S : Bool) (d : BitVec 5) (b : BitVec 5) (o : BitVec 14) : RoundTrip.Statement (.dld S d b o) := by
  refine RoundTrip.of_word (wordOf S 0x70 (place d 19 + place b 14 + place o 0)) rfl fun hw next => ?_
  have b_d := d.isLt
  have b_b := b.isLt
  have b_o := o.isLt
  have b_S := S.toNat_le
  refine decode_of (BitVec.ofNat 32 (S.toNat * 2 ^ 31 + 0x70 * 2 ^ 24 + (place d 19 + place b 14 + place o 0))) next ?_ hw
  generalize hx : S.toNat * 2 ^ 31 + 0x70 * 2 ^ 24 + (place d 19 + place b 14 + place o 0) = x
  simp only [place] at hx
  refine raw70 _ _ (field_of x 24 7 0x70 (by omega) (by omega)) ?_
  have f_d := field_eq x 19 5 d (by omega) (by omega)
  have f_b := field_eq x 14 5 b (by omega) (by omega)
  have f_o := field_eq x 0 14 o (by omega) (by omega)
  have f_S := top_of x S (by omega)
  simp [decodeOp70, f_d, f_b, f_o, f_S]

theorem RoundTrip.dst (S : Bool) (d : BitVec 5) (b : BitVec 5) (o : BitVec 14) : RoundTrip.Statement (.dst S d b o) := by
  refine RoundTrip.of_word (wordOf S 0x71 (place d 19 + place b 14 + place o 0)) rfl fun hw next => ?_
  have b_d := d.isLt
  have b_b := b.isLt
  have b_o := o.isLt
  have b_S := S.toNat_le
  refine decode_of (BitVec.ofNat 32 (S.toNat * 2 ^ 31 + 0x71 * 2 ^ 24 + (place d 19 + place b 14 + place o 0))) next ?_ hw
  generalize hx : S.toNat * 2 ^ 31 + 0x71 * 2 ^ 24 + (place d 19 + place b 14 + place o 0) = x
  simp only [place] at hx
  refine raw71 _ _ (field_of x 24 7 0x71 (by omega) (by omega)) ?_
  have f_d := field_eq x 19 5 d (by omega) (by omega)
  have f_b := field_eq x 14 5 b (by omega) (by omega)
  have f_o := field_eq x 0 14 o (by omega) (by omega)
  have f_S := top_of x S (by omega)
  simp [decodeOp71, f_d, f_b, f_o, f_S]

theorem RoundTrip.dfence (S : Bool) : RoundTrip.Statement (.dfence S) := by
  refine RoundTrip.of_word (wordOf S 0x72 (0)) rfl fun hw next => ?_
  have b_S := S.toNat_le
  refine decode_of (BitVec.ofNat 32 (S.toNat * 2 ^ 31 + 0x72 * 2 ^ 24 + (0))) next ?_ hw
  generalize hx : S.toNat * 2 ^ 31 + 0x72 * 2 ^ 24 + (0) = x
  refine raw72 _ _ (field_of x 24 7 0x72 (by omega) (by omega)) ?_
  have c_1 := field_of x 0 24 0 (by omega) (by omega)
  have f_S := top_of x S (by omega)
  simp [decodeOp72, c_1, f_S]

theorem RoundTrip.replayWalkDone (m : Nat) : RoundTrip.Statement (.replayWalkDone m) := by
  intro _ _ h; exact nomatch h

theorem RoundTrip.storePerform (c : CoreId) (n : Nat) : RoundTrip.Statement (.storePerform c n) := by
  intro _ _ h; exact nomatch h

theorem RoundTrip.loadReturn (c : CoreId) (n : Nat) : RoundTrip.Statement (.loadReturn c n) := by
  intro _ _ h; exact nomatch h

theorem RoundTrip.translationWalk (t : Translator) (va : Nat) (need : Need) : RoundTrip.Statement (.translationWalk t va need) := by
  intro _ _ h; exact nomatch h

theorem RoundTrip.mmT (c : Nat) : RoundTrip.Statement (.mmT c) := by
  intro _ _ h; exact nomatch h

theorem RoundTrip.mmS (c : Nat) : RoundTrip.Statement (.mmS c) := by
  intro _ _ h; exact nomatch h

theorem RoundTrip.drain (c : Nat) : RoundTrip.Statement (.drain c) := by
  intro _ _ h; exact nomatch h

theorem RoundTrip.stest (c : Nat) (bad : BitVec 4) : RoundTrip.Statement (.stest c bad) := by
  intro _ _ h; exact nomatch h

theorem RoundTrip.selfTestInjection (c : Nat) (bad : BitVec 4) : RoundTrip.Statement (.selfTestInjection c bad) := by
  intro _ _ h; exact nomatch h

theorem RoundTrip.srch (c : Nat) : RoundTrip.Statement (.srch c) := by
  intro _ _ h; exact nomatch h

theorem RoundTrip.resid (c : Nat) : RoundTrip.Statement (.resid c) := by
  intro _ _ h; exact nomatch h

theorem RoundTrip.copy (c : CoreId) : RoundTrip.Statement (.copy c) := by
  intro _ _ h; exact nomatch h

theorem RoundTrip.fill (c : CoreId) : RoundTrip.Statement (.fill c) := by
  intro _ _ h; exact nomatch h

theorem RoundTrip.xformPackTrits (c : CoreId) : RoundTrip.Statement (.xformPackTrits c) := by
  intro _ _ h; exact nomatch h

theorem RoundTrip.xformUnpack (c : CoreId) : RoundTrip.Statement (.xformUnpack c) := by
  intro _ _ h; exact nomatch h

theorem RoundTrip.xformSwizzle (c : CoreId) : RoundTrip.Statement (.xformSwizzle c) := by
  intro _ _ h; exact nomatch h

theorem RoundTrip.xformTranspose (c : CoreId) : RoundTrip.Statement (.xformTranspose c) := by
  intro _ _ h; exact nomatch h

theorem RoundTrip.xformSparseEncode (c : CoreId) : RoundTrip.Statement (.xformSparseEncode c) := by
  intro _ _ h; exact nomatch h

theorem RoundTrip.xformSparseDecode (c : CoreId) : RoundTrip.Statement (.xformSparseDecode c) := by
  intro _ _ h; exact nomatch h

theorem RoundTrip.xformMxint8Quantise (c : CoreId) : RoundTrip.Statement (.xformMxint8Quantise c) := by
  intro _ _ h; exact nomatch h

theorem RoundTrip.xformBf16Widen (c : CoreId) : RoundTrip.Statement (.xformBf16Widen c) := by
  intro _ _ h; exact nomatch h

theorem RoundTrip.tern (c : CoreId) : RoundTrip.Statement (.tern c) := by
  intro _ _ h; exact nomatch h

theorem RoundTrip.copyChunk (c : CoreId) : RoundTrip.Statement (.copyChunk c) := by
  intro _ _ h; exact nomatch h

theorem RoundTrip.gather (c : Nat) : RoundTrip.Statement (.gather c) := by
  intro _ _ h; exact nomatch h

theorem RoundTrip.scatter (c : Nat) : RoundTrip.Statement (.scatter c) := by
  intro _ _ h; exact nomatch h

theorem RoundTrip.scadd (c : Nat) : RoundTrip.Statement (.scadd c) := by
  intro _ _ h; exact nomatch h

theorem RoundTrip.pages (c : Nat) : RoundTrip.Statement (.pages c) := by
  intro _ _ h; exact nomatch h

theorem RoundTrip.dipperBatch (q : Nat) : RoundTrip.Statement (.dipperBatch q) := by
  intro _ _ h; exact nomatch h

theorem RoundTrip.merge (c : Nat) : RoundTrip.Statement (.merge c) := by
  intro _ _ h; exact nomatch h

theorem RoundTrip.rsend (c : Nat) : RoundTrip.Statement (.rsend c) := by
  intro _ _ h; exact nomatch h

theorem RoundTrip.rrecv (c : Nat) : RoundTrip.Statement (.rrecv c) := by
  intro _ _ h; exact nomatch h

theorem RoundTrip.rillBeatArrival (sn : Nat) (beat : List (BitVec 8)) : RoundTrip.Statement (.rillBeatArrival sn beat) := by
  intro _ _ h; exact nomatch h

theorem RoundTrip.rillCreditReturn (sn : Nat) : RoundTrip.Statement (.rillCreditReturn sn) := by
  intro _ _ h; exact nomatch h

theorem RoundTrip.engineCompletion (c : CoreId) (e : Engine) (sq : BitVec 32) : RoundTrip.Statement (.engineCompletion c e sq) := by
  intro _ _ h; exact nomatch h

theorem RoundTrip.timingFault (c : Nat) (e : Engine) : RoundTrip.Statement (.timingFault c e) := by
  intro _ _ h; exact nomatch h

theorem RoundTrip.gcycLimit (c : Nat) : RoundTrip.Statement (.gcycLimit c) := by
  intro _ _ h; exact nomatch h

theorem RoundTrip.cascadeBlockLoad (c : Nat) : RoundTrip.Statement (.cascadeBlockLoad c) := by
  intro _ _ h; exact nomatch h

theorem RoundTrip.blockMmT (c : Nat) : RoundTrip.Statement (.blockMmT c) := by
  intro _ _ h; exact nomatch h

theorem RoundTrip.blockMmS (c : Nat) : RoundTrip.Statement (.blockMmS c) := by
  intro _ _ h; exact nomatch h

theorem RoundTrip.blockDrain (c : Nat) : RoundTrip.Statement (.blockDrain c) := by
  intro _ _ h; exact nomatch h

theorem RoundTrip.blockBranch (c : Nat) : RoundTrip.Statement (.blockBranch c) := by
  intro _ _ h; exact nomatch h

theorem RoundTrip.blockYield (c : Nat) : RoundTrip.Statement (.blockYield c) := by
  intro _ _ h; exact nomatch h

theorem RoundTrip.blockEnd (c : Nat) : RoundTrip.Statement (.blockEnd c) := by
  intro _ _ h; exact nomatch h

theorem RoundTrip.blockPad (c : Nat) : RoundTrip.Statement (.blockPad c) := by
  intro _ _ h; exact nomatch h

theorem RoundTrip.blockEvset (c : Nat) : RoundTrip.Statement (.blockEvset c) := by
  intro _ _ h; exact nomatch h

theorem RoundTrip.impreciseFault (c : CoreId) : RoundTrip.Statement (.impreciseFault c) := by
  intro _ _ h; exact nomatch h

theorem RoundTrip.trapEntry (c : CoreId) : RoundTrip.Statement (.trapEntry c) := by
  intro _ _ h; exact nomatch h

theorem RoundTrip.singleStep (c : CoreId) : RoundTrip.Statement (.singleStep c) := by
  intro _ _ h; exact nomatch h

theorem RoundTrip.preemptionRequest (c : CoreId) (src : Requester) : RoundTrip.Statement (.preemptionRequest c src) := by
  intro _ _ h; exact nomatch h

theorem RoundTrip.groupFreeze (gang : Nat) : RoundTrip.Statement (.groupFreeze gang) := by
  intro _ _ h; exact nomatch h

theorem RoundTrip.groupRelease (gang : Nat) : RoundTrip.Statement (.groupRelease gang) := by
  intro _ _ h; exact nomatch h

theorem RoundTrip.fatalKill (gang : Nat) : RoundTrip.Statement (.fatalKill gang) := by
  intro _ _ h; exact nomatch h

theorem RoundTrip.pairdiv (c : Nat) (addr : Nat) : RoundTrip.Statement (.pairdiv c addr) := by
  intro _ _ h; exact nomatch h

theorem RoundTrip.coreRetire (c : CoreId) : RoundTrip.Statement (.coreRetire c) := by
  intro _ _ h; exact nomatch h

theorem RoundTrip.gangLaunch (d : Nat) : RoundTrip.Statement (.gangLaunch d) := by
  intro _ _ h; exact nomatch h

theorem RoundTrip.starvationGuard (d : Nat) (queue : Nat) : RoundTrip.Statement (.starvationGuard d queue) := by
  intro _ _ h; exact nomatch h

theorem RoundTrip.gangRetire (gang : Nat) : RoundTrip.Statement (.gangRetire gang) := by
  intro _ _ h; exact nomatch h

theorem RoundTrip.watchdogT1 (gang : Nat) : RoundTrip.Statement (.watchdogT1 gang) := by
  intro _ _ h; exact nomatch h

theorem RoundTrip.watchdogT2 (gang : Nat) : RoundTrip.Statement (.watchdogT2 gang) := by
  intro _ _ h; exact nomatch h

theorem RoundTrip.watchdogT3 (gang : Nat) : RoundTrip.Statement (.watchdogT3 gang) := by
  intro _ _ h; exact nomatch h

theorem RoundTrip.gangResume (gang : Nat) : RoundTrip.Statement (.gangResume gang) := by
  intro _ _ h; exact nomatch h

theorem RoundTrip.ringReserve (d : Nat) (queue : Nat) : RoundTrip.Statement (.ringReserve d queue) := by
  intro _ _ h; exact nomatch h

theorem RoundTrip.ringCommit (gang : Nat) : RoundTrip.Statement (.ringCommit gang) := by
  intro _ _ h; exact nomatch h

theorem RoundTrip.ringStart (gang : Nat) : RoundTrip.Statement (.ringStart gang) := by
  intro _ _ h; exact nomatch h

theorem RoundTrip.failureRecord (gang : Nat) : RoundTrip.Statement (.failureRecord gang) := by
  intro _ _ h; exact nomatch h

theorem RoundTrip.gangabort (gang : Nat) : RoundTrip.Statement (.gangabort gang) := by
  intro _ _ h; exact nomatch h

theorem RoundTrip.uncorrectableError (home : Nat) (c : CoreId) : RoundTrip.Statement (.uncorrectableError home c) := by
  intro _ _ h; exact nomatch h

theorem RoundTrip.eccRecovery (home : Nat) : RoundTrip.Statement (.eccRecovery home) := by
  intro _ _ h; exact nomatch h

theorem RoundTrip.submit (d : Nat) (record : List (BitVec 8)) : RoundTrip.Statement (.submit d record) := by
  intro _ _ h; exact nomatch h

theorem RoundTrip.mread (pa : Nat) (n : Nat) : RoundTrip.Statement (.mread pa n) := by
  intro _ _ h; exact nomatch h

theorem RoundTrip.mwrite (pa : Nat) (data : List (BitVec 8)) : RoundTrip.Statement (.mwrite pa data) := by
  intro _ _ h; exact nomatch h

theorem RoundTrip.torharBadTransaction (code : Nat) : RoundTrip.Statement (.torharBadTransaction code) := by
  intro _ _ h; exact nomatch h

theorem RoundTrip.qset (d : Nat) (queue : Nat) (qcomp : Nat) (t1 : Nat) (t2 : Nat) (t3 : Nat) : RoundTrip.Statement (.qset d queue qcomp t1 t2 t3) := by
  intro _ _ h; exact nomatch h

theorem RoundTrip.unfence (d : Nat) (c : CoreId) : RoundTrip.Statement (.unfence d c) := by
  intro _ _ h; exact nomatch h

theorem RoundTrip.root (d : Nat) (ctx : Nat) (frame : Nat) (valid : Bool) : RoundTrip.Statement (.root d ctx frame valid) := by
  intro _ _ h; exact nomatch h

theorem RoundTrip.clean (d : Nat) (base : Nat) (len : Nat) (backing : Nat) : RoundTrip.Statement (.clean d base len backing) := by
  intro _ _ h; exact nomatch h

theorem RoundTrip.stream (d : Nat) (entry : StreamRequest) : RoundTrip.Statement (.stream d entry) := by
  intro _ _ h; exact nomatch h

theorem RoundTrip.clock (d : Nat) (mask : BitVec 16) (point : Nat) : RoundTrip.Statement (.clock d mask point) := by
  intro _ _ h; exact nomatch h

theorem RoundTrip.clockChange (d : Nat) : RoundTrip.Statement (.clockChange d) := by
  intro _ _ h; exact nomatch h

theorem RoundTrip.ringrd (d : Nat) (c : CoreId) (sq : BitVec 32) : RoundTrip.Statement (.ringrd d c sq) := by
  intro _ _ h; exact nomatch h

theorem RoundTrip.evclrService (d : Nat) (cluster : Nat) (mask : BitVec 256) : RoundTrip.Statement (.evclrService d cluster mask) := by
  intro _ _ h; exact nomatch h

theorem RoundTrip.hwin (d : Nat) (win : Nat) (hbase : Nat) (hlen : Nat) : RoundTrip.Statement (.hwin d win hbase hlen) := by
  intro _ _ h; exact nomatch h

theorem RoundTrip.attest (d : Nat) (nonce : BitVec 256) : RoundTrip.Statement (.attest d nonce) := by
  intro _ _ h; exact nomatch h

theorem RoundTrip.serviceUnknown (d : Nat) (code : Nat) : RoundTrip.Statement (.serviceUnknown d code) := by
  intro _ _ h; exact nomatch h

theorem RoundTrip.powerCheck (watts : Nat) (temps : List Nat) (inlet : Nat) : RoundTrip.Statement (.powerCheck watts temps inlet) := by
  intro _ _ h; exact nomatch h

theorem RoundTrip.moduleReset : RoundTrip.Statement (.moduleReset) := by
  intro _ _ h; exact nomatch h

theorem RoundTrip.systemKillRequest (gang : Nat) (report : Option KillReport) : RoundTrip.Statement (.systemKillRequest gang report) := by
  intro _ _ h; exact nomatch h

end Sys2Proof.Laws
end

