-- ==== Sys2Proof/Laws/Traps.lean ====
section
/-! SUPPORT. What taking a trap can do: a precise trap that nothing delays enters at once (R104, R106). -/

namespace Sys2Proof.Laws
open Sys2Proof Sys2Proof.Machine

theorem withdraw_eq (s : State) (c : CoreId) :
    ∃ gs, withdraw s c = { s with gangs := gs } ∧ Withdrawn s { s with gangs := gs } c := by
  unfold withdraw
  split
  · rename_i h
    exact ⟨s.gangs, rfl, by simp [Withdrawn, h]⟩
  · rename_i n h
    refine ⟨_, rfl, ?_⟩
    simp only [Withdrawn, h, Option.some.injEq]
    refine List.map_congr_left fun g _ => ?_
    by_cases e : g.id = n
    · simp [e, bne, BEq.beq]
    · simp [e, Ne.symm e]

/-- Two states that agree in their cores agree in every core. -/
theorem core_congr {s t : State} (h : t.cores = s.cores) (hr : t.released = s.released) (c : CoreId) : t.core c = s.core c := by
  simp [State.core, h, hr]

/-- A precise trap that nothing delays. -/
theorem deliverTrap_free {s : State} {c : CoreId} (h : TrapFree s c) {code : Nat} (val pc : Word)
    (hs : code ≠ causeStep) (hp : code ≠ causePreempt) :
    TrapTaken s (deliverTrap s c (preciseTrap pc code val)) c code val pc := by
  obtain ⟨htw, hw, hset, hvq, hrep, hblk⟩ := h
  obtain ⟨gs, hg, hwd⟩ := withdraw_eq s c
  have hcore : ∀ d, ({ s with gangs := gs } : State).core d = s.core d := fun d => core_congr rfl rfl d
  have hshelve : shelve (s.core c) = s.core c := by simp [shelve, hw]
  have hs' : (code == causeStep) = false := by simpa using hs
  have hp' : (code == causePreempt) = false := by simpa using hp
  have hm : s.mustFreeze c (preciseTrap pc code val) = false := by simp [State.mustFreeze, htw]
  have key : deliverTrap s c (preciseTrap pc code val) =
      enterTrap ((withdraw s c).modCore c (fun x => x)) c (preciseTrap pc code val) := by
    unfold deliverTrap
    simp only [hw, hg, hm, Bool.or_false]
    have e1 : (({ s with gangs := gs } : State).modCore c (fun x =>
        let x := shelve x
        if x.blockEnded then x
        else { x with eng := { x.eng with chainStop := some (s.now c) } })) =
        ({ s with gangs := gs } : State).modCore c (fun x => x) := by
      simp only [State.modCore, hcore, hshelve, hblk, if_true]
    simp only [Bool.false_eq_true, if_false]
    rw [e1]
    simp only [core_modCore, hcore]
    have htr : trapReady (({ s with gangs := gs } : State).modCore c (fun x => x)) c (preciseTrap pc code val) = true := by
      simpa [trapReady, core_modCore, hcore, hset, hvq, hblk] using fun e he => ⟨(hrep e he).1, .inl (hrep e he).2⟩
    rw [htr]
    simp [pairBound, preciseTrap, hs', hp']
  rw [key, hg]
  unfold enterTrap
  simp only [core_modCore, hcore, preciseTrap, Bool.not_false, Bool.and_false, htw, Bool.false_and, hp', Bool.false_eq_true, if_false,
    Bool.or_false]
  have hcause : causeWord ⟨code, val, 0, 0, false, false, pc, false⟩ = BitVec.ofNat 64 code := by simp [causeWord]
  have hp'' : ¬ (code = causePreempt ∨ False) := by simpa using hp
  refine ⟨?_, ?_, hwd, ?_⟩
  · simp only [core_modCore, hcore, hcause, hp'', if_false]
    simp only [modCore_now_eq, Core.system, Bool.and_true]
    rfl
  · simp only [State.modCore, State.setCore]
  · intro d hd
    rw [core_modCore_ne _ _ hd, core_modCore_ne _ _ hd, hcore]

/-- A word that raises a precise cause which nothing delays takes it. -/
theorem runWord_trap {S : Bool} {body : Op Flow} {s : State} {code : Nat} {val pc : Word} (h : TrapFree s s.cur)
    (hb : body s = .error (.trap (preciseTrap pc code val))) (hs : code ≠ causeStep) (hp : code ≠ causePreempt) :
    ∃ t, runWord S body s = .next t ∧ TrapTaken s t s.cur code val pc :=
  ⟨_, by simp only [runWord, hb], deliverTrap_free h val pc hs hp⟩

/-- A rule that does not hold raises ILLEGAL, TRAPVAL the word (R104). -/
theorem legal_bad {b : Bool} (h : b = false) (s : State) :
    legal b s = .error (.trap (preciseTrap (s.core s.cur).pc causeIllegal ((s.issuingWord s.cur).setWidth 64))) := by
  subst h
  rfl

theorem require_bad {b : Bool} (h : b = false) (code : Nat) (s : State) :
    require b code s = .error (.trap (preciseTrap (s.core s.cur).pc code ((s.issuingWord s.cur).setWidth 64))) := by
  subst h
  rfl

/-- A raised cause. -/
@[simp] theorem op_raise {α : Type} (code : Nat) (val : Word) (s : State) :
    (raise code val : Op α) s = .error (.trap (preciseTrap (s.core s.cur).pc code val)) := rfl

end Sys2Proof.Laws
end

