-- ==== Sys2Proof/Tests/Slice0.lean ====
section
/-! SUPPORT. Tests: the states they run on, what is ill-formed, every word decoded, and a few steps whose results the spec states. -/

set_option Elab.async false

namespace Sys2Proof.Tests
open Sys2Proof Sys2Proof.Machine

/-! ## States -/

/-- A core that runs: a compute core at program level. -/
def core : Core := { Core.reset false with run := .running, sys := { SysRegs.reset false with priv := 0 } }
/-- The same at system level. -/
def sysCore : Core := { core with sys := { core.sys with priv := 1 } }
/-- A memory core at program level. -/
def memCore : Core := { Core.reset true with run := .running, sys := { SysRegs.reset true with priv := 0 } }

/-- The module with compute core 0 as given, its die booted. -/
def st (x : Core) : State := { State.reset with cores := [(0, x)], dies := [(0, { Die.reset with bootStep := 8 })] }
/-- The module with memory core 0 as given. -/
def stm (x : Core) : State := { st core with cur := .mem 0, cores := [(4096, x)] }

/-- A capability with every permission for the first `len` bytes of the private window, its cursor 16 bytes in. -/
def cap (len : Nat) : Reg := makeCap 0x1F 0 0x20_0010 0 0x20_0000 len
/-- A capability for 4 KiB of cluster memory in the global window. -/
def far : Reg := makeCap 0x1F 3 0x101_0000_0000 0 0x101_0000_0000 0x1000
/-- The place an address resolves to, where it does. -/
def placeOf (r : Except Nat Place) : Place := match r with | .ok p => p | .error _ => ⟨0, 0, 0, false, false, false⟩
/-- The place of n bytes at an address, for the executing core. -/
def place (s : State) (a : Int) (n : Nat) (w : Writing) (ext : Bool := false) : Place :=
  placeOf (s.resolve s.cur (s.core s.cur).system a n w ext)

/-- The core with generator 0 bound to g24: reading or writing, eight bytes, so many elements at the cursor of `cap`. -/
def bound (x : Core) (writes : Bool) (count : Nat) : Core :=
  { x with
    gen := x.gen.setIfInBounds 0 (cap 0x100)
    sys := { x.sys with
      status := BitVec.ofNat 64 ((0xB0 + if writes then 0x40 else 0) * 2 ^ 32)
      stream := x.sys.stream.setIfInBounds 0 (BitVec.ofNat 64 (count * 2 ^ 32 + 8)) } }

/-- The state ten cycles on. -/
def at10 (s : State) : State := s.setDie 0 { s.die 0 with cycle := 10 }
/-- An untimed command word: engine, op, and words by number. -/
def word (eng op : Nat) (ws : List (Nat × Nat)) : BitVec 256 :=
  BitVec.ofNat 256 (ws.foldl (fun a p => a + p.2 * 2 ^ (32 * p.1)) (eng + 16 * op + 0xFFFF_FFFF * 2 ^ 32))
/-- The same, timed to start at GCYC 10. -/
def timedWord (eng op : Nat) (ws : List (Nat × Nat)) : BitVec 256 :=
  BitVec.ofNat 256 (ws.foldl (fun a p => a + p.2 * 2 ^ (32 * p.1)) (eng + 16 * op + 2 ^ 12 + 10 * 2 ^ 32))
/-- A slot word: register 1, offset 0. -/
def slot1 : Nat := 0x0800_0000
/-- A queued command with capabilities for its slots W2, W3, W4 and W7, numbered 0. -/
def cmd (w : BitVec 256) (a b c d : Reg) : Cmd := ⟨w, 0, 0, #v[a, b, c, d], false, none, 0⟩
/-- The core with a command at the head of queue n. -/
def withHead (x : Core) (n : Nat) (k : Cmd) : Core := { x with eng := { x.eng with queues := x.eng.queues.setIfInBounds n [k] } }
/-- A capability for one page of the private window from an offset on, its cursor at its base. -/
def pageAt (o : Nat) : Reg := makeCap 0x1F 0 (0x20_0000 + o) 0 (0x20_0000 + o) 0x1000


/-- A gang of one group of compute cores of die 0, as a timed record of context 0 of queue 0. -/
def gangOf (id : Nat) (cs : List CoreId) : Gang :=
  ⟨id, 0, 0, [4, 0, 0, 0], [(0, cs)], [], 1, 0, 0, false, false, none, none, false, [], [], [], none, [], false, true, false, none, false⟩
/-- The cores, each a member of gang 7. -/
def inGang (cs : List (Nat × Core)) (g : Gang) : State :=
  at10 { st core with cores := cs.map (fun p => (p.1, { p.2 with gang := some 7 })), gangs := [g] }
/-- A record of one group: one core, entry 0 of a program of 256 bytes at the base of cluster memory. -/
def recordWith (flags queue : Nat) : List Byte :=
  leBytes 4 (flags + queue * 256) ++ leBytes 4 0x100 ++ leBytes 8 0x101_0000_0000 ++ List.replicate 64 0 ++ [1, 0] ++ List.replicate 46 0
/-! ## What is ill-formed (R5, R26, R30, R33, R36, R86, R265, R267) -/

theorem test_ill_formed_conditions : (Instr.csel false 1 2 3 4 8).wf = false ∧ (Instr.br false 1 2 6 0).wf = false ∧
    (Instr.br false 1 0 8 0).wf = false ∧ (Instr.skip false 1 2 7 0).wf = false := by decide
theorem test_ill_formed_fields : (Instr.bfx false 1 2 0 0).wf = false ∧ (Instr.bfxz false 1 2 63 2).wf = false ∧
    (Instr.bins false 1 2 0 65).wf = false ∧ (Instr.shli false 1 2 64).wf = false ∧ (Instr.shri false 1 2 64).wf = false ∧
    (Instr.srai false 1 2 64).wf = false := by decide
theorem test_ill_formed_step_words : (Instr.loop false 1 1 0x10).wf = false ∧ (Instr.loop false 1 0 0x0A).wf = false := by decide
theorem test_ill_formed_scopes : (Instr.ldAcq false 1 2 0 0).wf = false ∧ (Instr.stRel false 1 2 0 7).wf = false ∧
    (Instr.fenceAcq false 0).wf = false ∧ (Instr.fenceRel false 7).wf = false ∧ (Instr.fenceFull false 15).wf = false ∧
    (Instr.wsync false 1).wf = false := by decide
theorem test_ill_formed_registers : (Instr.sbind false 23 1 2 0 0 0).wf = false ∧ (Instr.sunbind false 23 0).wf = false ∧
    (Instr.sysrd false 1 0x007).wf = false ∧ (Instr.syswr false 1 0x016).wf = false ∧ (Instr.syswr false 1 0).wf = false := by decide
theorem test_ill_formed_vectors : (Instr.vintAdd false 1 2 3 0 3).wf = false ∧ (Instr.vcmp false 1 2 3 0 8).wf = false ∧
    (Instr.vcmp false 1 2 3 1 6).wf = false ∧ (Instr.vcmp false 1 2 3 2 0).wf = false ∧ (Instr.vtopk false 3 1 0 0 0).wf = false ∧
    (Instr.vtopk false 14 1 0 0 0).wf = false ∧ (Instr.vtopk false 2 1 0 0 2).wf = false ∧ (Instr.vcvtMxq false 1 2 1).wf = false ∧
    (Instr.vcvtMxd false 1 2 1).wf = false ∧ (Instr.vld false 1 2 0 3).wf = false ∧ (Instr.vst false 1 2 0 3).wf = false := by decide
theorem test_ill_formed_commands : (Instr.kset false 1 2 0x3F 0).wf = false ∧ (Instr.kcap false 1 2 1 0).wf = false := by decide
theorem test_ill_formed_units : (Instr.mmT 2048).wf = false ∧ (Instr.copy (.mem 128)).wf = false ∧ (Instr.gangLaunch 16).wf = false ∧
    (Instr.vectorBind 0 4).wf = false ∧ (Instr.dipperBatch 128).wf = false ∧ (Instr.starvationGuard 0 16).wf = false ∧
    (Instr.submit 0 []).wf = false ∧ (Instr.rillBeatArrival 65536 []).wf = false ∧ (Instr.bankZeroingEnd 0 32).wf = false := by decide
/-- A word whose fields break a limit, or name nothing, decodes to nothing. -/
theorem test_ill_formed_words : decode 0x0E08_8040 0 = .error .limit ∧
    decode 0x3F81_0000 0 = .error .limit ∧ decode 0x6808_0007 0 = .error .limit ∧ decode 0x7F00_0000 0 = .error .opcode ∧
    decode 0x0100_001E 0 = .error .field := by decide

/-! ## Every word of a program, written out from the encodings of spec/02 -/

theorem test_decode_integer_1 :
    decode 0x813E5600 0 = .ok (.add true 7 25 11) ∧
    decode 0x811D4E01 0 = .ok (.sub true 3 21 7) ∧
    decode 0x81FC4602 0 = .ok (.and true 31 17 3) ∧
    decode 0x81DB7E03 0 = .ok (.or true 27 13 31) ∧
    decode 0x81BA7604 0 = .ok (.xor true 23 9 27) ∧
    decode 0x81996E05 0 = .ok (.andn true 19 5 23) ∧
    decode 0x81786606 0 = .ok (.orn true 15 1 19) ∧
    decode 0x815F5E07 0 = .ok (.shl true 11 29 15) ∧
    decode 0x813E5608 0 = .ok (.shr true 7 25 11) ∧
    decode 0x811D4E09 0 = .ok (.sra true 3 21 7) ∧
    decode 0x81FC460A 0 = .ok (.rol true 31 17 3) ∧
    decode 0x81DB7E0B 0 = .ok (.ror true 27 13 31) ∧
    decode 0x81BA760C 0 = .ok (.slt true 23 9 27) ∧
    decode 0x81996E0D 0 = .ok (.sltu true 19 5 23) ∧
    decode 0x8178660E 0 = .ok (.seq true 15 1 19) ∧
    decode 0x815F5E0F 0 = .ok (.sne true 11 29 15) ∧
    decode 0x813E5610 0 = .ok (.min true 7 25 11) ∧
    decode 0x811D4E11 0 = .ok (.max true 3 21 7) ∧
    decode 0x81FC4612 0 = .ok (.minu true 31 17 3) ∧
    decode 0x81DB7E13 0 = .ok (.maxu true 27 13 31) ∧
    decode 0x81BA4014 0 = .ok (.clz true 23 9) ∧
    decode 0x01678015 0 = .ok (.ctz false 12 30) ∧
    decode 0x810CC016 0 = .ok (.popc true 1 19) ∧
    decode 0x01B20017 0 = .ok (.bswap false 22 8) :=
  ⟨rfl, rfl, rfl, rfl, rfl, rfl, rfl, rfl, rfl, rfl, rfl, rfl, rfl, rfl, rfl, rfl, rfl, rfl, rfl, rfl, rfl, rfl, rfl, rfl⟩

theorem test_decode_integer_2 :
    decode 0x815F4018 0 = .ok (.sextB true 11 29) ∧
    decode 0x01048019 0 = .ok (.sextH false 0 18) ∧
    decode 0x81A9C01A 0 = .ok (.sextW true 21 7) ∧
    decode 0x0157001B 0 = .ok (.zextB false 10 28) ∧
    decode 0x81FC401C 0 = .ok (.zextH true 31 17) ∧
    decode 0x01A1801D 0 = .ok (.zextW false 20 6) ∧
    decode 0x824EDA00 0 = .ok (.mul true 9 27 13) ∧
    decode 0x822DD201 0 = .ok (.mulh true 5 23 9) ∧
    decode 0x820CCA02 0 = .ok (.mulhu true 1 19 5) ∧
    decode 0x82EBC203 0 = .ok (.div true 29 15 1) ∧
    decode 0x82CAFA04 0 = .ok (.divu true 25 11 29) ∧
    decode 0x82A9F205 0 = .ok (.rem true 21 7 25) ∧
    decode 0x8288EA06 0 = .ok (.remu true 17 3 21) ∧
    decode 0x836FE235 0 = .ok (.csel true 13 31 17 3 5) ∧
    decode 0x84BA7905 0 = .ok (.bfx true 23 9 57 5) ∧
    decode 0x05D33805 0 = .ok (.bfxz false 26 12 56 5) ∧
    decode 0x86EBF805 0 = .ok (.bins true 29 15 56 5) ∧
    decode 0x080484A4 0 = .ok (.addi false 0 18 1188) ∧
    decode 0x09E384C0 0 = .ok (.andi false 28 14 1216) ∧
    decode 0x0AC284DC 0 = .ok (.ori false 24 10 1244) ∧
    decode 0x0BA184F8 0 = .ok (.xori false 20 6 1272) ∧
    decode 0x0C808514 0 = .ok (.slti false 16 2 1300) ∧
    decode 0x0D678530 0 = .ok (.sltiu false 12 30 1328) ∧
    decode 0x0E46803B 0 = .ok (.shli false 8 26 59) :=
  ⟨rfl, rfl, rfl, rfl, rfl, rfl, rfl, rfl, rfl, rfl, rfl, rfl, rfl, rfl, rfl, rfl, rfl, rfl, rfl, rfl, rfl, rfl, rfl, rfl⟩

theorem test_decode_integer_3 : decode 0x0F25803B 0 = .ok (.shri false 4 22 59) := rfl

theorem test_decode_upper_and_control :
    decode 0x1004803B 0 = .ok (.srai false 0 18 59) ∧
    decode 0x11E0058E 0 = .ok (.lui false 28 1422) ∧
    decode 0x928805A3 0 = .ok (.addpc true 17 1443) ∧
    decode 0x18301DDC 0 = .ok (.br false 6 0 7 476) ∧
    decode 0x990005C9 0 = .ok (.j true 1481) ∧
    decode 0x9A0005D7 0 = .ok (.jal true 1495) ∧
    decode 0x9B2DC000 0 = .ok (.jr true 5 23) ∧
    decode 0x1CD30C00 0 = .ok (.skip false 26 12 3 0) ∧
    decode 0x9E000000 0 = .ok (.endGroup true) ∧
    decode 0x1F000624 0 = .ok (.trap false 1572) :=
  ⟨rfl, rfl, rfl, rfl, rfl, rfl, rfl, rfl, rfl, rfl⟩

theorem test_decode_capability :
    decode 0x20910000 0 = .ok (.creadCur false 18 4) ∧
    decode 0xA03E4001 0 = .ok (.creadBase true 7 25) ∧
    decode 0x20E38002 0 = .ok (.creadLen false 28 14) ∧
    decode 0xA088C003 0 = .ok (.creadPerm true 17 3) ∧
    decode 0x20360004 0 = .ok (.creadSpace false 6 24) ∧
    decode 0xA0DB4005 0 = .ok (.creadOwner true 27 13) ∧
    decode 0x20808006 0 = .ok (.creadTag false 16 2) ∧
    decode 0xA02DC007 0 = .ok (.ccopy true 5 23) ∧
    decode 0x20D30008 0 = .ok (.cstrip false 26 12) ∧
    decode 0xA1786600 0 = .ok (.cshift true 15 1 19) ∧
    decode 0xA25F472F 0 = .ok (.cshifti true 11 29 1839) ∧
    decode 0xA33E5600 0 = .ok (.cnarrow true 7 25 11) ∧
    decode 0xA41D4007 0 = .ok (.cmask true 3 21 7) ∧
    decode 0xA5FC4000 0 = .ok (.cspace true 31 17) ∧
    decode 0x26A18001 0 = .ok (.ccast false 20 6 1) ∧
    decode 0x2780A800 0 = .ok (.cderive false 16 2 20) :=
  ⟨rfl, rfl, rfl, rfl, rfl, rfl, rfl, rfl, rfl, rfl, rfl, rfl, rfl, rfl, rfl, rfl⟩

theorem test_decode_memory_1 :
    decode 0x306787D0 0 = .ok (.ldSb false 12 30 2000) ∧
    decode 0x314687EC 0 = .ok (.ldZb false 8 26 2028) ∧
    decode 0x32258808 0 = .ok (.ldSh false 4 22 2056) ∧
    decode 0x33048824 0 = .ok (.ldZh false 0 18 2084) ∧
    decode 0x34E38840 0 = .ok (.ldSw false 28 14 2112) ∧
    decode 0x35C2885C 0 = .ok (.ldZw false 24 10 2140) ∧
    decode 0x36A18878 0 = .ok (.ldD false 20 6 2168) ∧
    decode 0x37808894 0 = .ok (.ldC false 16 2 2196) ∧
    decode 0x386788B0 0 = .ok (.stB false 12 30 2224) ∧
    decode 0x394688CC 0 = .ok (.stH false 8 26 2252) ∧
    decode 0x3A2588E8 0 = .ok (.stW false 4 22 2280) ∧
    decode 0x3B048904 0 = .ok (.stD false 0 18 2308) ∧
    decode 0x3CE38920 0 = .ok (.stC false 28 14 2336) ∧
    decode 0x3DC2B800 0 = .ok (.amoAdd false 24 10 28 0) ∧
    decode 0xBDDB7F01 0 = .ok (.amoAnd true 27 13 31 1) ∧
    decode 0x3DF40402 0 = .ok (.amoOr false 30 16 2 0) ∧
    decode 0xBD0CCB03 0 = .ok (.amoXor true 1 19 5 1) ∧
    decode 0x3D259004 0 = .ok (.amoSwap false 4 22 8 0) ∧
    decode 0xBD3E5705 0 = .ok (.amoSmax true 7 25 11 1) ∧
    decode 0x3D571C06 0 = .ok (.amoSmin false 10 28 14 0) ∧
    decode 0xBD6FE307 0 = .ok (.amoCas true 13 31 17 1) ∧
    decode 0x3D808028 0 = .ok (.ldAcq false 16 2 0 2) ∧
    decode 0xBD04CB59 0 = .ok (.stRel true 19 5 1 5) ∧
    decode 0x3E000000 0 = .ok (.fenceSl false) :=
  ⟨rfl, rfl, rfl, rfl, rfl, rfl, rfl, rfl, rfl, rfl, rfl, rfl, rfl, rfl, rfl, rfl, rfl, rfl, rfl, rfl, rfl, rfl, rfl, rfl⟩

theorem test_decode_memory_2 :
    decode 0xBE000021 0 = .ok (.fenceAcq true 2) ∧
    decode 0xBE000062 0 = .ok (.fenceRel true 6) ∧
    decode 0xBE000023 0 = .ok (.fenceFull true 2) ∧
    decode 0xBFDE560D 0 = .ok (.sbind true 27 25 11 1 1 1) ∧
    decode 0x3FD80110 0 = .ok (.sunbind false 27 2) :=
  ⟨rfl, rfl, rfl, rfl, rfl⟩

theorem test_decode_vector_1 :
    decode 0xC0DF11A0 0 = .ok (.vintAdd true 13 15 1 3 1) ∧
    decode 0xC079B6A1 0 = .ok (.vintSub true 7 9 11 13 1) ∧
    decode 0xC0135BA2 0 = .ok (.vintAdds true 1 3 5 23 1) ∧
    decode 0xC0BDF0A3 0 = .ok (.vintSubs true 11 13 15 1 1) ∧
    decode 0xC05795A4 0 = .ok (.vintMul true 5 7 9 11 1) ∧
    decode 0xC0F13AA5 0 = .ok (.vintMulh true 15 1 3 21 1) ∧
    decode 0xC09BDFA6 0 = .ok (.vintMin true 9 11 13 31 1) ∧
    decode 0xC03574A7 0 = .ok (.vintMax true 3 5 7 9 1) ∧
    decode 0xC0DF19A8 0 = .ok (.vintMinu true 13 15 1 19 1) ∧
    decode 0xC079BEA9 0 = .ok (.vintMaxu true 7 9 11 29 1) ∧
    decode 0xC01353AA 0 = .ok (.vintAnd true 1 3 5 7 1) ∧
    decode 0xC0BDF8AB 0 = .ok (.vintOr true 11 13 15 17 1) ∧
    decode 0xC0579DAC 0 = .ok (.vintXor true 5 7 9 27 1) ∧
    decode 0xC0F132AD 0 = .ok (.vintShl true 15 1 3 5 1) ∧
    decode 0xC09BD7AE 0 = .ok (.vintShr true 9 11 13 15 1) ∧
    decode 0xC0357CAF 0 = .ok (.vintSra true 3 5 7 25 1) ∧
    decode 0xC0DF0890 0 = .ok (.vintAbs true 13 15 17 0) ∧
    decode 0x40020A51 0 = .ok (.vintNeg false 0 2 20 2) ∧
    decode 0xC1357480 0 = .ok (.vfpAdd true 3 5 7 9) ∧
    decode 0x4168A601 0 = .ok (.vfpSub false 6 8 10 12) ∧
    decode 0xC19BD782 0 = .ok (.vfpMul true 9 11 13 15) ∧
    decode 0x41CE0903 0 = .ok (.vfpFma false 12 14 0 18) ∧
    decode 0xC1F13A84 0 = .ok (.vfpMin true 15 1 3 21) ∧
    decode 0x41246C05 0 = .ok (.vfpMax false 2 4 6 24) :=
  ⟨rfl, rfl, rfl, rfl, rfl, rfl, rfl, rfl, rfl, rfl, rfl, rfl, rfl, rfl, rfl, rfl, rfl, rfl, rfl, rfl, rfl, rfl, rfl, rfl⟩

theorem test_decode_vector_2 :
    decode 0xC1570486 0 = .ok (.vfpAbs true 5 7 9) ∧
    decode 0xC1130287 0 = .ok (.vfpNeg true 1 3 5) ∧
    decode 0xC1DF0088 0 = .ok (.vfpExp2 true 13 15 1) ∧
    decode 0xC19B0E89 0 = .ok (.vfpLog2 true 9 11 29) ∧
    decode 0xC1570C8A 0 = .ok (.vfpRecip true 5 7 25) ∧
    decode 0xC1130A8B 0 = .ok (.vfpRsqrt true 1 3 21) ∧
    decode 0xC20DF8A4 0 = .ok (.vcmp true 13 15 17 1 4) ∧
    decode 0xC379B680 0 = .ok (.vsel true 7 9 11 13) ∧
    decode 0x43ACE820 0 = .ok (.vperm false 10 12 14 16) ∧
    decode 0xC3D007C0 0 = .ok (.vbcast true 13 15) ∧
    decode 0x43240B60 0 = .ok (.vslide false 2 4 22 0) ∧
    decode 0xC4570C80 0 = .ok (.vredSumI32 true 5 7 25) ∧
    decode 0xC4130A84 0 = .ok (.vredMinI32 true 1 3 21) ∧
    decode 0xC4DF0888 0 = .ok (.vredMaxI32 true 13 15 17) ∧
    decode 0xC49B068D 0 = .ok (.vredSumF32 true 9 11 13) ∧
    decode 0xC4570491 0 = .ok (.vredMinF32 true 5 7 9) ∧
    decode 0xC4130295 0 = .ok (.vredMaxF32 true 1 3 5) ∧
    decode 0xC4AF00B1 0 = .ok (.vtopk true 10 15 1 1 1) ∧
    decode 0xC5790580 0 = .ok (.vcvtTobf true 7 9 11) ∧
    decode 0xC5350381 0 = .ok (.vcvtFrombf true 3 5 7) ∧
    decode 0xC5F10182 0 = .ok (.vcvtItof true 15 1 3) ∧
    decode 0xC5BD0F83 0 = .ok (.vcvtFtoi true 11 13 31) ∧
    decode 0xC5790D84 0 = .ok (.vcvtSat8 true 7 9 27) ∧
    decode 0xC5350B85 0 = .ok (.vcvtSat16 true 3 5 23) :=
  ⟨rfl, rfl, rfl, rfl, rfl, rfl, rfl, rfl, rfl, rfl, rfl, rfl, rfl, rfl, rfl, rfl, rfl, rfl, rfl, rfl, rfl, rfl, rfl, rfl⟩

theorem test_decode_vector_3 :
    decode 0xC5319006 0 = .ok (.vcvtMxq true 3 1 9) ∧
    decode 0xC53D9007 0 = .ok (.vcvtMxd true 3 13 9) ∧
    decode 0xC5790588 0 = .ok (.vcvtTdec true 7 9 11) ∧
    decode 0xC5350389 0 = .ok (.vcvtTenc true 3 5 7) ∧
    decode 0xC6F881A0 0 = .ok (.vld true 15 17 3 2) ∧
    decode 0x462A0360 0 = .ok (.vst false 2 20 6 2) ∧
    decode 0xC72DC000 0 = .ok (.vsetvl true 5 23) ∧
    decode 0x47D33C01 0 = .ok (.vmovgToG false 26 12 30) ∧
    decode 0x47323402 0 = .ok (.vmovgToV false 6 8 26) :=
  ⟨rfl, rfl, rfl, rfl, rfl, rfl, rfl, rfl, rfl⟩

theorem test_decode_command_and_meeting :
    decode 0x50400000 0 = .ok (.kclr false 2) ∧
    decode 0x511256B6 0 = .ok (.kset false 0 18 21 694) ∧
    decode 0xD275C2D9 0 = .ok (.kcap true 3 21 6 729) ∧
    decode 0x53D80000 0 = .ok (.push false 6 24) ∧
    decode 0xD4600000 0 = .ok (.gissueWide true 3) ∧
    decode 0xD4200400 0 = .ok (.gissueDeep true 1) ∧
    decode 0xD505C000 0 = .ok (.cascade true 23) ∧
    decode 0xD6000000 0 = .ok (.qsave true) ∧
    decode 0x57000000 0 = .ok (.qload false) ∧
    decode 0xD8000013 0 = .ok (.evset true 19) ∧
    decode 0xD8001021 0 = .ok (.evclr true 33) ∧
    decode 0xD803E041 0 = .ok (.evpost true 15 65) ∧
    decode 0x59000044 0 = .ok (.evwait false 68) ∧
    decode 0x5A000003 0 = .ok (.wsync false 3) ∧
    decode 0x5B000000 0 = .ok (.tbegin false) ∧
    decode 0xDB000001 0 = .ok (.tend true) ∧
    decode 0x5C038012 0 = .ok (.tsend false 14 0 18) ∧
    decode 0x5D50062E 0 = .ok (.trecv false 10 12 46) ∧
    decode 0x5E01B140 0 = .ok (.send false 6 24 10) ∧
    decode 0x5E100081 0 = .ok (.recv false 2 4) ∧
    decode 0xDF05D200 0 = .ok (.bwait true 23 9) :=
  ⟨rfl, rfl, rfl, rfl, rfl, rfl, rfl, rfl, rfl, rfl, rfl, rfl, rfl, rfl, rfl, rfl, rfl, rfl, rfl, rfl, rfl⟩

theorem test_decode_message_and_system :
    decode 0x60600000 0 = .ok (.balloc false 12) ∧
    decode 0x61068000 0 = .ok (.bfree false 26) ∧
    decode 0x62468000 0 = .ok (.launch false 8 26) ∧
    decode 0xE3074000 0 = .ok (.dtload true 29) ∧
    decode 0xE8580041 0 = .ok (.sysrd true 11 65) ∧
    decode 0x69000015 0 = .ok (.syswr false 0 21) ∧
    decode 0xE9054000 0 = .ok (.syswrStatus true 21) ∧
    decode 0xE900C001 0 = .ok (.syswrPriv true 3) ∧
    decode 0xE9044013 0 = .ok (.syswrPrivsz true 17) ∧
    decode 0xE907C040 0 = .ok (.syswrXbase true 31) ∧
    decode 0xE9034041 0 = .ok (.syswrXlimit true 13) ∧
    decode 0xEA000000 0 = .ok (.eret true) ∧
    decode 0x6B008000 0 = .ok (.tlbinvCtx false 2 0) ∧
    decode 0xEB05C005 0 = .ok (.tlbinvPage true 23 1) ∧
    decode 0x6B000002 0 = .ok (.tlbinvAll false 0) ∧
    decode 0x6C000000 0 = .ok (.wfi false) ∧
    decode 0xED0014E1 0 = .ok (.brk true 5345) :=
  ⟨rfl, rfl, rfl, rfl, rfl, rfl, rfl, rfl, rfl, rfl, rfl, rfl, rfl, rfl, rfl, rfl, rfl⟩

theorem test_decode_external :
    decode 0xF0785513 0 = .ok (.dld true 15 1 5395) ∧
    decode 0xF15F552F 0 = .ok (.dst true 11 29 5423) ∧
    decode 0xF2000000 0 = .ok (.dfence true) :=
  ⟨rfl, rfl, rfl⟩

/-- Words that the spec itself writes out. -/
theorem test_decode_words_of_the_spec :
    decode 0x5C01_8187 0 = .ok (.tsend false 6 3 7) ∧ decode 0x5D48_0184 0 = .ok (.trecv false 9 3 4) ∧
    decode 0x5E01_4C40 0 = .ok (.send false 5 6 2) ∧ decode 0x5E38_0041 0 = .ok (.recv false 7 2) ∧
    decode 0x5F06_0C00 0 = .ok (.bwait false 24 6) ∧ decode 0x6305_0000 0 = .ok (.dtload false 20) ∧
    decode 0x6901_8010 0 = .ok (.syswr false 6 0x010) ∧ decode 0x6B02_4005 0 = .ok (.tlbinvPage false 9 1) ∧
    decode 0x3B2D_0000 0 = .ok (.stD false 5 20 0) ∧ decode 0x3C40_8002 0 = .ok (.stC false 8 2 2) ∧
    decode 0x3D3D_9200 0 = .ok (.amoAdd false 7 22 9 0) ∧ decode 0x3E00_0042 0 = .ok (.fenceRel false 4) ∧
    decode 0x5420_0000 0 = .ok (.gissueWide false 1) ∧ decode 0x5420_0400 0 = .ok (.gissueDeep false 1) ∧
    decode 0x5A00_0002 0 = .ok (.wsync false 2) ∧ decode 0x5900_0013 0 = .ok (.evwait false 19) ∧
    decode 0x2383_CA00 0 = .ok (.cnarrow false 16 15 5) ∧ decode 0x208C_0001 0 = .ok (.creadBase false 17 16) ∧
    decode 0x6028_0000 0 = .ok (.balloc false 5) ∧ decode 0x6101_4000 0 = .ok (.bfree false 5) ∧
    decode 0x4031_2040 0 = .ok (.vintAdd false 3 1 2 0 2) ∧ decode 0x4201_24A2 0 = .ok (.vcmp false 1 2 9 1 2) ∧
    decode 0x4403_000D 0 = .ok (.vredSumF32 false 0 3 0) ∧ decode 0x4442_0521 0 = .ok (.vtopk false 4 2 10 0 1) ∧
    decode 0x5120_0801 0 = .ok (.kset false 1 0 2 1) ∧ decode 0x5238_4000 0 = .ok (.kcap false 1 24 2 0) :=
  ⟨rfl, rfl, rfl, rfl, rfl, rfl, rfl, rfl, rfl, rfl, rfl, rfl, rfl, rfl, rfl, rfl, rfl, rfl, rfl, rfl, rfl, rfl, rfl, rfl, rfl, rfl⟩
/-- `loop` and the word after it. -/
theorem test_decode_loop : decode 0x1D01_0001 0 = .ok (.loop false 4 1 0) ∧ decode 0x1D01_0001 0x0A = .ok (.loop false 4 1 0x0A) := ⟨rfl, rfl⟩
/-- `sbind g24, g20, g10, 1, r, 4` and `sunbind g24, 1`. -/
theorem test_decode_streams : decode 0x3FC5_140A 0 = .ok (.sbind false 24 20 10 1 0 2) ∧
    decode 0x3FC0_0108 0 = .ok (.sunbind false 24 1) := ⟨rfl, rfl⟩

end Sys2Proof.Tests
end

