-- ==== Sys2Proof/Tests/Witness1.lean ====
section
/-! SUPPORT. For each statement with hypotheses, states and operands that meet them: words and their meaning, integers, control flow. -/

set_option Elab.async false

namespace Sys2Proof.Tests
open Sys2Proof Sys2Proof.Machine

/-! ## Words and their meaning -/

theorem witness_EncodingRoundTrip : (Instr.shli true 31 31 63).wf = true ∧ encode (.shli true 31 31 63) = some [0x8EFF_C03F] ∧
    (Instr.loop false 1 1 0x0A).wf = true ∧ (encode (.loop false 1 1 0x0A)).isSome = true := by decide
theorem witness_DecodedWordIsTheEncoding : decode 0x8EFF_C03F 0 = .ok (.shli true 31 31 63) := rfl

/-- Compute core 0 with `add g7, g7, g6` at its pc. -/
def running : State := (st core).withFetchWord 32 0x0139_CC00

theorem witness_NextWordIsTheBytesAtPc :
    let s := running
    let c := s.core (.comp 0)
    c.issue.loopCopy = none ∧ s.resolve (.comp 0) c.system c.pc.toNat 4 .no false = .ok (place s 0x20_0000 4 .no) ∧
    s.resolve (.comp 0) c.system (c.pc.toNat + 4) 4 .no false = .ok (place s 0x20_0004 4 .no) := by decide +kernel
theorem witness_StepRunsTheDecodedWord :
    let s := { running with agenda := [] }
    (running.agenda = .issue (.comp 0) :: [] ∧ canIssue s (.comp 0) = true ∧ fixedDue s 0 = none ∧ nextWords s (.comp 0) = .ok (0x0139_CC00, 0) ∧
      decode 0x0139_CC00 0 = .ok (.add false 7 7 6)) ∧
    (s.agenda = [] ∧ dueStep s = none ∧ readyCores s = [.comp 0]) := by decide +kernel
theorem witness_UnassignedWordRaisesIllegal :
    let s := (st core).withFetchWord 32 0x7F00_0000
    (s.agenda = .issue (.comp 0) :: [] ∧ canIssue { s with agenda := [] } (.comp 0) = true ∧ fixedDue { s with agenda := [] } 0 = none ∧
      nextWords { s with agenda := [] } (.comp 0) = .ok (0x7F00_0000, 0) ∧ decode 0x7F00_0000 0 = .error .opcode) ∧
    TrapFree s (.comp 0) := by unfold TrapFree; decide +kernel
theorem witness_StepKeepsMemoryCanonical : running.wf = true ∧ ∃ t, step running = .next t := ⟨by decide +kernel, _, rfl⟩
theorem witness_MemoryReadsWhatWasWritten : running.wf = true ∧ ([1, 0] : List Byte) ≠ [] ∧
    15 / 16 ≤ 31 / 16 ∧ 31 / 16 ≤ (15 + 2 - 1) / 16 ∧ 14 < 15 ∧ 15 + 2 ≤ 17 ∧ 32 / 16 > (15 + 2 - 1) / 16 := by decide +kernel

/-! ## Integers -/

theorem witness_IntegerBinaryResults : integerTable.length = 27 ∧ (st core).unbound 0 ∧ (st core).unbound 31 ∧ (st core).plain 0 ∧
    (st core).plain 31 := by unfold State.unbound State.plain; decide +kernel
theorem witness_UnaryAndImmediateResults : (st core).unbound 31 ∧ (st core).plain 31 ∧ (63 : BitVec 14).toNat < 64 := by
  unfold State.unbound State.plain; decide +kernel
theorem witness_UpperImmediates : (st core).unbound 31 := by unfold State.unbound; decide +kernel
/-- Conditions that hold and that do not, between a tagged 1 and 0. -/
theorem witness_Condition : Condition 6 ⟨true, 0, 1⟩ 0 ∧ ¬ Condition 7 ⟨true, 0, 1⟩ 0 ∧ Condition 5 ⟨true, 0, 1⟩ 0 ∧ ¬ Condition 4 ⟨true, 0, 1⟩ 0 := by
  simp [Condition]
theorem witness_SelectAndFieldResults :
    let s := st (core.setReg 3 ⟨true, 0, 1⟩)
    (s.unbound 1 ∧ s.plain 1 ∧ s.plain 3 ∧ (7 : BitVec 4).toNat < 8 ∧ s.greg 3 = ⟨true, 0, 1⟩) ∧
    (1 ≤ (1 : BitVec 7).toNat ∧ (63 : BitVec 6).toNat + (1 : BitVec 7).toNat ≤ 64 ∧ (0 : BitVec 6).toNat + (64 : BitVec 7).toNat ≤ 64) := by
  unfold State.unbound State.plain; decide +kernel
theorem witness_StreamOperands :
    let s := st (bound core false 0)
    let t := st (bound core false 1)
    let u := st (bound core true 1)
    (s.unbound 5 ∧ s.plain 6 ∧ (s.core s.cur).genOf 24 = some 0) ∧ ((st (bound sysCore false 1)).core (.comp 0)).system = true ∧
    ((u.core u.cur).genWrites 0 = true ∧ (u.core u.cur).system = false ∧ TrapFree u u.cur) ∧
    ((s.core s.cur).genWrites 0 = false ∧ ((s.core s.cur).sys.stream.toList.getD 0 0).extractLsb' 32 32 = 0) ∧
    (((t.core t.cur).sys.stream.toList.getD 0 0).extractLsb' 32 32 ≠ 0 ∧ (t.core t.cur).ops = [] ∧ t.module.recovering = [] ∧
      AccessOk t (cap 0x100) 0 8 8 Reg.permR false false (place t 0x20_0010 8 .no)) := by
  unfold State.unbound State.plain TrapFree AccessOk; decide +kernel
theorem witness_StreamResults :
    let s := st (bound core true 1)
    (s.plain 5 ∧ s.plain 6 ∧ (s.core s.cur).genOf 24 = some 0 ∧ (s.core s.cur).genWrites 0 = true ∧ (s.core s.cur).ops = [] ∧
      ((s.core s.cur).sys.stream.toList.getD 0 0).extractLsb' 32 32 ≠ 0 ∧
      AccessOk s (cap 0x100) 0 8 8 Reg.permW true false (place s 0x20_0010 8 .plain)) ∧
    ((st (bound sysCore true 1)).core (.comp 0)).system = true ∧
    (((st (bound core false 1)).core (.comp 0)).genWrites 0 = false ∧ TrapFree (st (bound core false 1)) (.comp 0)) := by
  unfold State.plain TrapFree AccessOk; decide +kernel

/-! ## Control flow -/

theorem witness_BranchesAndSkips :
    let s := st (core.setReg 3 ⟨true, 0, 1⟩)
    (7 : BitVec 4).toNat < 8 ∧ (6 ≤ (7 : BitVec 4).toNat → (0 : BitVec 5) = 0) ∧ s.plain 3 ∧ s.plain 0 ∧ s.greg 3 = ⟨true, 0, 1⟩ := by
  unfold State.plain; decide +kernel
theorem witness_RegisterJumps :
    let s (r : Reg) := st (core.setReg 5 r)
    let code (perms owner : Nat) := makeCap perms 0 0x20_0010 owner 0x20_0010 4
    let usable (r : Reg) : Prop := r.base ≤ r.cursor ∧ (r.cursor : Int) + 4 ≤ r.top
    ((s far).unbound 1 ∧ (s far).plain 5) ∧
    ((code 4 0).tag = true ∧ (code 4 0).permX = true ∧ usable (code 4 0) ∧ (code 4 0).space < 2 ∧ (code 4 0).owner = 0 ∧
      ((code 4 0).w0 &&& 0x01FF_FFFF_FFFF_FFFF).toNat % 4 = 0) ∧
    ((Reg.ofWord 2).w0.toNat % 4 ≠ 0 ∧ TrapFree (s (Reg.ofWord 2)) (.comp 0)) ∧ (Reg.ofWord 4).w0.toNat % 4 = 0 ∧
    (code 3 0).permX = false ∧ ¬ usable ((code 4 0).shift 4) ∧ ((code 4 0).shift 4).tag = true ∧ (code 4 1).owner ≠ coreIndex (.comp 0) := by
  unfold State.unbound State.plain TrapFree; decide +kernel
/-- A `loop` of two words at the base of the private window, its step word and body. -/
def looping (count : Word) : State :=
  ((st { core.setReg 4 (Reg.ofWord count) with pc := 0x20_0000 }).writeNum (sliceHome 0 8) 4 0x0139_CC00).writeNum (sliceHome 0 12) 4 0x0821_8001
theorem witness_LoopsRun :
    let p : Place := place (looping 3) 0x20_0008 8 .no
    (∀ s ∈ [looping 0, looping 3], s.plain 4 ∧ stepWordOk 1 0x0A = true ∧
      s.resolve s.cur false ((0x20_0000 : Int) + 8) (4 * ((1 : BitVec 5).toNat + 1)) .no false = .ok p ∧
      bodyOk 1 0x0A ((List.range 2).map (fun i => BitVec.ofNat 32 (s.num (p.home + 4 * i) 4))) = true) ∧
    (((looping 0).gword 4).toNat % 2 ^ 24 = 0 ∧ ((looping 3).gword 4).toNat % 2 ^ 24 ≠ 0) ∧
    (let s := st { core.setReg 4 (Reg.ofWord 3) with pc := 0 }
     s.plain 4 ∧ (fetchWords s s.cur 8 2).toOption = none ∧ (s.gword 4).toNat % 2 ^ 24 ≠ 0 ∧ TrapFree s s.cur) ∧
    ∀ q ∈ [(0, 2), (1, 2), (1, 1)],
      let x := { core with
        sys := { core.sys with loopstate := loopWord 0 q.2 q.1 1 true }
        issue := { core.issue with loopCopy := some [0x0139_CC00, 0x0821_8001] } }
      x.loopIndex ≤ x.loopLast ∧ x.loopIndex = q.1 ∧ x.loopLast = 1 ∧ x.loopLeft = q.2 := by
  unfold State.plain TrapFree; decide +kernel
theorem witness_EndAndRetirement :
    let x := { core with run := .retiring }
    ((st core).core (.comp 0)).system = false ∧ ((st core).core (.comp 0)).tw = false ∧ ((st core).core (.comp 0)).replay = [] ∧
    (isMemCore (.mem 0) = true ∧ ∀ h : Fin 32, ((st core).core (.comp 0)).slice.holders[h] ≠ .program) ∧
    (x.run = .retiring ∧ x.settled = true ∧ x.drained = true ∧ x.issue.faults = [] ∧ x.issue.trapWait = none ∧ x.gang = none) ∧
    ¬ (core.run = .retiring) ∧ ({ x with gang := some 7 } : Core).gang = some 7 := by decide +kernel
theorem witness_TrapAndBreak : TrapFree (st core) (.comp 0) ∧ ((st core).core (.comp 0)).replay = [] ∧ ((st core).core (.comp 0)).issue.loopCopy = none ∧ (1 : BitVec 5) ≠ 0 := by
  unfold TrapFree; decide +kernel
theorem witness_OperandLimits : TrapFree (st core) (.comp 0) ∧ 64 ≤ (64 : BitVec 14).toNat ∧ 8 ≤ (8 : BitVec 4).toNat ∧
    (6 ≤ (6 : BitVec 4).toNat ∧ (1 : BitVec 5) ≠ 0) ∧ (0 : BitVec 7).toNat = 0 ∧ 64 < (63 : BitVec 6).toNat + (2 : BitVec 7).toNat := by
  unfold TrapFree; decide +kernel

end Sys2Proof.Tests
end

