-- ==== Sys2Proof/Tests/Witness2.lean ====
section
/-! SUPPORT. For each statement with hypotheses, states and operands that meet them: capabilities and memory. -/

set_option Elab.async false

namespace Sys2Proof.Tests
open Sys2Proof Sys2Proof.Machine

/-! ## Capabilities -/

theorem witness_CapabilityFields : (st (core.setReg 2 far)).unbound 1 ∧ (st (core.setReg 2 far)).plain 2 := by
  unfold State.unbound State.plain; decide +kernel
theorem witness_CursorMoves :
    (st (core.setReg 2 (cap 64))).unbound 1 ∧ (st (core.setReg 2 (cap 64))).plain 2 ∧
    (∀ r ∈ [(cap 64).shift 48, (cap 64).shift (-16)], (cap 64).tag = true ∧ (cap 64).base ≤ r.cursor ∧
      (r.cursor : Int) < (cap 64).base + 2 ^ ((cap 64).SH + 23)) ∧
    ¬ ((cap 64).base ≤ ((cap 64).shift (-17)).cursor) := by unfold State.unbound State.plain; decide +kernel
theorem witness_NarrowingNeverWidens :
    let s := st ((core.setReg 2 (cap 64)).setReg 3 (Reg.ofWord 48))
    let inside (len : Nat) : Prop := len ≤ 2 ^ 57 - (cap 64).cursor ∧ (cap 64).base ≤ (cap 64).cursor ∧
      ((cap 64).cursor : Int) + len ≤ (cap 64).top ∧ (cap 64).base ≤ (0x20_0010 : Int) ∧ ((0x20_0010 + len : Nat) : Int) ≤ (cap 64).top
    s.unbound 1 ∧ s.plain 2 ∧ s.plain 3 ∧ TrapFree s s.cur ∧ (s.greg 2).tag = true ∧ (s.greg 3).tag = false ∧
    Granule (cap 64).cursor 48 0 ∧ inside 48 ∧ Granule (cap 64).cursor 49 0 ∧ ¬ inside 49 ∧ Granule (cap 64).cursor 0x80_0000 1 := by
  unfold State.unbound State.plain TrapFree Granule; decide +kernel
theorem witness_ClassesAndCasts :
    let x := { core with sys := { core.sys with privsz := 0x10_0000 } }
    let s := st x
    let scratch : Reg := makeCap 0x1F 1 0x50_0000 0 0x50_0000 16
    let cluster : Reg := makeCap 0x1F 2 0x80_0000 0 0x80_0000 16
    let slice : Reg := makeCap 0x1F 3 0x100_0010_0000 0 0x100_0010_0000 16
    let G := 0x100_0000_0000
    s.unbound 1 ∧ s.plain 2 ∧ isMemCore s.cur = false ∧ coreIndex s.cur < 2048 ∧
    (scratch.tag = true ∧ scratch.space = 1) ∧ (cluster.tag = true ∧ cluster.space = 2) ∧
    (slice.tag = true ∧ slice.space = 3 ∧ (G + 0x10_0000 : Int) ≤ slice.base ∧ slice.top ≤ (G + 0x20_0000 : Int)) ∧
    (far.space = 3 ∧ (G + 0x1_0000_0000 : Int) ≤ far.base ∧ far.top ≤ (G + 0x1_0040_0000 : Int) ∧ ¬ far.top ≤ (G + 0x20_0000 : Int)) ∧
    (Reg.ofWord 5).tag = false := by unfold State.unbound State.plain; decide +kernel
theorem witness_CapabilityDerivation :
    let image (a : Nat) : Reg := Reg.ofWord (BitVec.ofNat 64 a)
    let s := st (((sysCore.setReg 2 (image 0x20_0010)).setReg 3 (image 16)).setReg 4 (image 0x3F_FFF8))
    s.unbound 1 ∧ s.plain 2 ∧ s.plain 3 ∧ s.plain 4 ∧ TrapFree s s.cur ∧ (s.core s.cur).system = true ∧ ((st core).core (.comp 0)).system = false ∧
    Granule 0x20_0010 16 0 ∧ (0x20_0000 ≤ 0x20_0010 ∧ 0x20_0010 + 16 ≤ 0x40_0000) ∧ Granule 0x3F_FFF8 16 0 ∧ ¬ 0x3F_FFF8 + 16 ≤ 0x40_0000 := by
  unfold State.unbound State.plain TrapFree Granule; decide +kernel

/-! ## Memory -/

/-- Compute core 0 with the private window in g2, cluster memory in g3, and data in g4. -/
def holding : Core := ((core.setReg 2 (cap 0x100)).setReg 3 far).setReg 4 (Reg.ofWord 0x1234)

/-- That core in a timed window. -/
def windowed : Core := { holding with sys := { holding.sys with status := 1 } }

theorem witness_LoadResults :
    let s := st holding
    s.unbound 1 ∧ s.plain 2 ∧ s.plain 3 ∧ (∀ p ∈ loadForms,
      (AccessOk s (s.greg 2) ((1 : BitVec 14).toInt * p.2.1) p.2.1 p.2.1 p.2.2.1 false false (place s (0x20_0010 + p.2.1) p.2.1 .no) ∧
        (place s (0x20_0010 + p.2.1) p.2.1 .no).own = true) ∧
      (AccessOk s (s.greg 3) ((0 : BitVec 14).toInt * p.2.1) p.2.1 p.2.1 p.2.2.1 false false (place s 0x101_0000_0000 p.2.1 .no) ∧
        (place s 0x101_0000_0000 p.2.1 .no).own = false)) ∧
    (s.core s.cur).ops = [] ∧ s.module.recovering = [] ∧ (s.core s.cur).ungated := by
  unfold State.unbound State.plain AccessOk Core.ungated; decide +kernel
theorem witness_StoresAndFencesIssue :
    let s := st holding
    (s.plain 4 ∧ s.plain 2 ∧ (s.core s.cur).ungated ∧ ((s.core s.cur).ops.filter MemOp.inBuffer).length < 16 ∧
      ∀ p ∈ storeForms,
        AccessOk s (s.greg 2) ((-1 : BitVec 14).toInt * p.2.1) p.2.1 p.2.1 p.2.2.1 true false (place s (0x20_0010 - p.2.1) p.2.1 .plain)) ∧
    (1 ≤ (1 : BitVec 4).toNat ∧ (6 : BitVec 4).toNat ≤ 6 ∧ (s.core s.cur).replay = [] ∧ (s.core s.cur).beatsPlaced = true ∧
      (s.core s.cur).tw = false ∧ windowed.tw = true ∧ windowed.replay = [] ∧ windowed.beatsPlaced = true) := by
  unfold State.plain AccessOk Core.ungated; decide +kernel
/-- A translation of the first external page, readable and writable, D set. -/
def page : TlbEntry := ⟨0, 0x1_0000_0000_0000, 4096, 0x1000, 0x47⟩
/-- A memory core with that page in its TLB, its capability in g2 and data in g4. -/
def external : Core :=
  { (memCore.setReg 2 (makeCap 0x1F 3 0x1_0000_0000_0000 0 0x1_0000_0000_0000 0x1000)).setReg 4 (Reg.ofWord 5) with tlb := [page] }
theorem witness_AtomicsIssue :
    let s := st holding
    (s.plain 1 ∧ s.plain 2 ∧ s.plain 3 ∧ s.plain 4 ∧ (s.core s.cur).ungated ∧
      (s.core s.cur).replay = [] ∧ (s.core s.cur).beatsPlaced = true ∧ 1 ≤ (1 : BitVec 4).toNat ∧ (6 : BitVec 4).toNat ≤ 6 ∧
      ((s.core s.cur).ops.filter MemOp.inBuffer).length < 16) ∧
    ∀ w, (AccessOk s (s.greg 3) 0 4 4 (fun r => r.permR && r.permW) w (isMemCore s.cur) (place s 0x101_0000_0000 4 .no) ∧
      (place s 0x101_0000_0000 4 .no).external = false) ∧
      (AccessOk s (s.greg 2) 0 8 8 (fun r => r.permR && r.permW) w (isMemCore s.cur) (place s 0x20_0010 8 .no) ∧
        (place s 0x20_0010 8 .no).own = true) := by
  unfold State.plain AccessOk Core.ungated; decide +kernel
theorem witness_AtomicsIssue_window :
    let s := st windowed
    (s.core s.cur).tw = true ∧ (s.core s.cur).ops = [] ∧ s.module.recovering = [] ∧ (s.core s.cur).ungated ∧
      ∀ w, AccessOk s (s.greg 2) 0 8 8 Reg.permR w (isMemCore s.cur) (place s 0x20_0010 8 (if w then .plain else .no)) ∧
        (place s 0x20_0010 8 (if w then .plain else .no)).own = true := by
  unfold AccessOk Core.ungated; decide +kernel
theorem witness_AtomicsIssue_external :
    let u := stm external
    let q := place u 0x1_0000_0000_0000 8 .plain true
    u.plain 2 ∧ u.plain 4 ∧ AccessOk u (u.greg 2) 0 8 8 (fun r => r.permR && r.permW) true (isMemCore u.cur) q ∧ q.external = true ∧
      (u.core u.cur).issue.wait = .none ∧ tlbHit (u.core u.cur).tlb 0 q.resolved .update = some page ∧
      (u.core u.cur).translated.length < 512 ∧ (u.core u.cur).replay = [] ∧ u.mappable (page.pa q.resolved) 8 = true ∧
      (∀ e ∈ [(⟨q.resolved + 8, 5, false, false⟩ : ReplayEntry), ⟨q.resolved - 8, 5, false, false⟩],
        ¬ (e.va < q.resolved + 8 ∧ q.resolved < e.va + 8)) := by
  unfold State.plain AccessOk; decide +kernel
/-- An access that has issued: to 16 bytes of the own slice. -/
def access (kind : MemKind) (size : Nat) (value : Option Reg) : MemOp := ⟨0, kind, sliceHome 0 0x10, size, 5, some 7, true, some 0, value⟩
theorem witness_AccessesPerform :
    (∀ o ∈ [access .store 1 none, access .direct 8 none, access (.storeRel 2) 8 none, access (.storeCap true) 16 none, access (.amo 7 0) 4 none,
        access (.amo 7 1) 8 none, access (.amo 0 0) 4 none],
      let s := st { core with ops := [o] }
      (CoreId.comp 0).wf = true ∧ s.wf = true ∧ (s.core (.comp 0)).ops.find? (fun p => p.id = o.id) = some o ∧ 0 < o.size ∧
      o.due = some (s.now (.comp 0)) ∧ s.recovers o.home o.size = false ∧ s.ownWrote (.comp 0) o = false ∧ s.partner 0 = none ∧ o.value = none ∧
      mayPerform (.comp 0) (opsBefore (s.core (.comp 0)).ops o.id) o = true ∧ o.home % 16 = 0 ∧ o.data < 256 ^ o.size) ∧
    (let o := access (.load false) 8 (some (Reg.ofWord 9))
     let s := st { core with ops := [o] }
     (s.core (.comp 0)).ops.find? (fun p => p.id = o.id) = some o ∧ o.value = some (Reg.ofWord 9) ∧ o.kind ≠ .deposit ∧ o.dst = some 7 ∧
       (s.core (.comp 0)).viewOf 7 = none ∧ (bound sysCore false 1).viewOf 24 = some 0) := by
  decide +kernel
theorem witness_AccessChecksTrap :
    let s := st ((((holding.setReg 5 (makeCap 0x1C 0 0x20_0010 0 0x20_0000 64)).setReg 6 (makeCap 0x1F 0 0x20_0010 1 0x20_0000 64)).setReg
      7 (makeCap 0x1F 0 0x3F_0000 0 0x3F_0000 64)).setReg 8 ((cap 64).shift 1))
    let inside (r : Reg) : Prop := r.base ≤ (r.cursor : Int) ∧ (r.cursor : Int) + 8 ≤ r.top
    (s.plain 1 ∧ s.plain 5 ∧ s.plain 6 ∧ s.plain 7 ∧ s.plain 8 ∧ TrapFree s s.cur ∧ (s.core s.cur).acquiring = false) ∧
    (s.greg 4).tag = false ∧ ((s.greg 5).tag = true ∧ (s.greg 5).permR = false ∧ (s.greg 5).permW = false) ∧
    ((s.greg 2).tag = true ∧ ¬ (s.greg 2).base ≤ ((s.greg 2).cursor : Int) + (-3 : BitVec 14).toInt * 8) ∧
    ((s.greg 6).tag = true ∧ inside (s.greg 6) ∧ (s.greg 6).space < 2 ∧ (s.greg 6).owner ≠ coreIndex s.cur) ∧
    ((s.greg 7).tag = true ∧ inside (s.greg 7) ∧ (s.greg 7).owner = 0 ∧ s.resolve s.cur false 0x3F_0000 8 .no false = .error 0x04) ∧
    ((s.greg 8).tag = true ∧ inside (s.greg 8) ∧ s.resolve s.cur false 0x20_0011 8 .no false = .ok (place s 0x20_0011 8 .no) ∧
      (0x20_0011 : Int).toNat % 8 ≠ 0) := by
  unfold State.plain TrapFree; decide +kernel
theorem witness_StreamBinding :
    let s := st ((core.setReg 2 (cap 64)).setReg 3 (Reg.ofWord 0x4_0000_0008))
    let u := st (bound core false 1)
    (24 ≤ (31 : BitVec 5).toNat ∧ (s.core s.cur).system = false ∧ s.plain 2 ∧ s.plain 3 ∧ (s.core s.cur).genOf 31 = none ∧
      (s.greg 2).tag = true ∧ (s.greg 2).permR = true ∧ (s.greg 2).permW = true ∧ (s.greg 2).cursor % 2 ^ 3 = 0 ∧
      (s.gword 3).toNat % 2 ^ 32 % 2 ^ 3 = 0) ∧
    ((u.core u.cur).system = false ∧ (u.core u.cur).streamByte 0 / 128 = 1 ∧ (u.core u.cur).streamByte 0 % 8 + 24 = (24 : BitVec 5).toNat ∧
      (u.core u.cur).ops = []) ∧
    (let v := st { (bound core true 1).setReg 2 (cap 64) |>.setReg 3 (Reg.ofWord 0x4_0000_0008) with ops := [⟨1, .deposit, sliceHome 0 0x10, 8, 0, some 24, true, none, none⟩] }
     (v.core v.cur).streamByte 0 / 128 = 1 ∧ (v.core v.cur).streamByte 0 % 8 + 24 = (24 : BitVec 5).toNat ∧ v.plain 2 ∧ v.plain 3 ∧
      (∀ m, (v.core v.cur).genOf 24 = some m → m = 0) ∧ (v.greg 2).permR = true ∧
      ∃ o ∈ (v.core v.cur).ops, o.isAppend = true ∧ o.dst = some 24) := by
  unfold State.plain; decide +kernel
theorem witness_BasinBanks :
    let full := { core with slice := { core.slice with holders := Vector.replicate 32 .program } }
    let last := { full with slice := { full.slice with holders := full.slice.holders.setIfInBounds 31 .free } }
    let s := st (full.setReg 2 (Reg.ofWord 31))
    let u := st (last.setReg 2 (Reg.ofWord 31))
    (s.cur = .comp 0 ∧ s.unbound 1 ∧ (∀ h, h < 32 → (s.core s.cur).slice.holders.toList.getD h .free ≠ .free)) ∧
    (u.unbound 1 ∧ (u.core u.cur).slice.holders.toList.getD 31 .free = .free ∧
      (∀ g, g < 31 → (u.core u.cur).slice.holders.toList.getD g .free ≠ .free)) ∧
    (s.plain 2 ∧ (s.gword 2).toNat < 32 ∧ (s.core s.cur).slice.holders.toList.getD 31 .free = .program ∧ (s.core s.cur).system = false ∧
      (s.core s.cur).bankBusy 0 31 = false) ∧
    (u.plain 2 ∧ TrapFree u u.cur) := by
  unfold State.unbound State.plain TrapFree; decide +kernel
/-- The module with that page mapped by a page table at 0x10000, and a memory core without it in its TLB. -/
def mapped (x : Core) : State :=
  let t (a e : Nat) (s : State) : State := s.writeNum a 8 e
  let s := t 0x10008 0x11001 (t 0x11000 0x12001 (t 0x12000 0x13001 (t 0x13000 0x14001 (t 0x14000 0x1107 (stm x)))))
  s.setDie 0 { s.die 0 with roots := [(0, 0x10001)] }
theorem witness_ExternalMemory :
    let s := stm external
    let q := place s 0x1_0000_0000_0000 8 .plain true
    let queued (parked : Bool) : Core := { external with tlb := [], replay := [⟨0x1_0000_0000_0000, 5, parked, false⟩] }
    let waiting : Core := { external with tlb := [], issue := { external.issue with wait := .walk 0x1_0000_0000_0000 .write } }
    (s.cur = .mem 0 ∧ s.unbound 1 ∧ s.plain 4 ∧ s.plain 2 ∧ q.external = true ∧ q.resolved % 8 = 0 ∧ (s.core s.cur).ungated ∧
      (s.core s.cur).translated.length < 512 ∧
      AccessOk s (s.greg 2) ((0 : BitVec 14).toInt * 8) 8 1 Reg.permR false true (place s 0x1_0000_0000_0000 8 .no true) ∧
      AccessOk s (s.greg 2) ((0 : BitVec 14).toInt * 8) 8 1 Reg.permW true true q ∧ (s.core s.cur).replay = [] ∧ (s.core s.cur).ops = [] ∧
      tlbHit (s.core s.cur).tlb 0 q.resolved .read = some page ∧ tlbHit (s.core s.cur).tlb 0 q.resolved .write = some page ∧
      s.mappable (page.pa q.resolved) 8 = true ∧ (s.core s.cur).issue.wait = .none) ∧
    (tlbHit (stm { external with tlb := [] } |>.core (.mem 0)).tlb 0 q.resolved .write = none ∧
      ∃ e ∈ (queued false).replay, e.va / 4096 = q.resolved / 4096) ∧
    (let f : ReplayEntry := ⟨0x1_0000_0000_1000, 9, true, false⟩
     let e : ReplayEntry := ⟨0x1_0000_0000_0000, 5, false, false⟩
     let y := { external with replay := [f] ++ e :: [] }
     (stm y).wf = true ∧ e.parked = false ∧ f.va / 4096 ≠ e.va / 4096 ∧ tlbHit y.tlb y.context e.va .write = some page ∧ f.parked = true ∧
      (stm y).mappable (page.pa e.va) 8 = true ∧ y.ops = [] ∧ (stm y).recovers ((stm y).physHome (page.pa e.va)) 8 = false) ∧
    ((mapped (queued false)).wf = true ∧ tlbHit (queued false).tlb 0 0x1_0000_0000_0000 .write = none ∧
      ((mapped (queued false)).fill (.memCore 0) 0 0x1_0000_0000_0000 .write).isSome = true ∧
      ((stm (queued false)).fill (.memCore 0) 0 0x1_0000_0000_0000 .write).isNone = true) ∧
    (waiting.issue.wait = .walk 0x1_0000_0000_0000 .write ∧
      ((mapped waiting).walk (0 / 8) 0 0x1_0000_0000_0000 .write).isSome = true ∧
      (stm waiting).walk (0 / 8) 0 0x1_0000_0000_0000 .write = none) := by
  unfold State.unbound State.plain AccessOk Core.ungated; decide +kernel
/-- The accesses to external memory that `dfence` does not wait for. -/
theorem witness_ExternalMemory_dfence :
    ∀ k ∈ [MemKind.loadAcq 5, .storeRel 5, .amo 0 0],
      let s := stm { external with ops := [⟨1, k, 0x1000, 8, 0, none, false, none, none⟩] }
      (s.core s.cur).replay = [] ∧ ∀ o ∈ (s.core s.cur).ops, o.kind ≠ .direct ∧ (o.kind = .load false → homeDie o.home ≠ 16) := by
  decide +kernel

end Sys2Proof.Tests
end

