-- ==== Sys2Proof/Tests/Witness3.lean ====
section
/-! SUPPORT. For each statement with hypotheses, states and operands that meet them: vector words, commands, the slice, copy engines. -/

set_option Elab.async false

namespace Sys2Proof.Tests
open Sys2Proof Sys2Proof.Machine

/-! ## Vector words -/

theorem witness_VectorWordsIssue :
    let s := st ((core.setReg 2 (pageAt 0)).setReg 3 (Reg.ofWord 64))
    isMemCore s.cur = false ∧ (s.core s.cur).vq.length < 32 ∧ s.plain 0 ∧ s.plain 2 ∧ s.plain 3 ∧ (2 : BitVec 2).toNat < 3 ∧
    (1 : BitVec 4) ≠ 2 ∧ ((1 : BitVec 2).toNat < 2 ∧ (5 : BitVec 5).toNat < 6) ∧ ((0 : BitVec 2) = 0 ∧ (7 : BitVec 5).toNat < 8) ∧
    ((12 : BitVec 4).toNat % 2 = 0 ∧ (12 : BitVec 4) ≠ 14 ∧ (1 : BitVec 4).toNat < 2 ∧ 1 ≤ (s.gword 3).toNat ∧ (s.gword 3).toNat ≤ 64) ∧
    (s.core s.cur).ungated ∧
    AccessOk s (s.greg 2) 0 ((s.core s.cur).vl * 2 ^ 2) (2 ^ 2) Reg.permR false false (place s 0x20_0000 256 .no) ∧
    AccessOk s (s.greg 2) 0 ((s.core s.cur).vl * 2 ^ 0) (2 ^ 0) Reg.permW true false (place s 0x20_0000 64 .plain) := by
  unfold State.plain AccessOk Core.ungated; decide +kernel
/-- A vector word at the head of core 0's queue: five elements, of which the mask names the first and the third. -/
def entry (i : Instr) : VecEntry := ⟨0, i, 0, 5, some 0b101, 1, 2, none, 0, none, none, [], 0, 0⟩
def vectored (i : Instr) : State := at10 (st { core with vq := [entry i] })
theorem witness_Active : Active (entry (.vintAdd false 1 2 3 4 2)) 2 ∧ ¬ Active (entry (.vintAdd false 1 2 3 4 2)) 1 := by
  refine ⟨⟨by decide, fun m h => ?_⟩, fun h => ?_⟩
  · cases h; decide
  · exact absurd (h.2 0b101 rfl) (by decide)
theorem witness_VectorIntegerResults : ∀ i ∈ [Instr.vintAdd false 1 2 3 4 2, .vintMul false 1 2 3 4 0, .vintNeg false 15 15 0 1],
    Binds (vectored i) 0 0 0 (entry i) := by unfold Binds; decide +kernel
theorem witness_VectorMovesAndCompares : (∀ i ∈ [Instr.vcmp false 1 2 3 0 7, .vcmp false 1 2 3 1 5, .vsel false 1 2 3 4, .vperm false 1 2 3 4,
      .vbcast false 1 3, .vslide false 1 2 3 0, .vslide false 1 2 3 1, .vredSumI32 false 1 2 4, .vredMinI32 false 1 2 4,
      .vredMaxI32 false 1 2 4, .vredSumF32 false 1 2 4, .vredMinF32 false 1 2 4, .vredMaxF32 false 1 2 4, .vtopk false 12 2 3 1 1,
      .vld false 1 2 4 2, .vst false 1 2 4 0, .vmovgToG false 3 2 4, .vmovgToV false 1 3 4],
    Binds (vectored i) 0 0 0 (entry i) ∧ (entry i).vl ≤ 64) ∧
    (let e := { entry (.vtopk false 12 2 3 0 0) with x := 64, vl := 64 }
     Binds (at10 (st { core with vq := [e] })) 0 0 0 e ∧ (12 : BitVec 4).toNat % 2 = 0 ∧ (12 : BitVec 4).toNat ≠ 14 ∧ 1 ≤ e.x.toNat ∧
      e.x.toNat ≤ 64) ∧
    (F32Nan 0x7F80_0001 ∧ ¬ F32Nan 0xFF80_0000 ∧ f32Rank 0x8000_0001 = f32Rank 0) := by
  unfold Binds F32Nan; decide +kernel
/-- A `vst` or `vld` of five elements that has bound, and its access. -/
def striding (i : Instr) (isStore : Bool) (home pieces : Nat) : State :=
  let e := { entry i with bound := some (0, 9), home := home, performAt := 6, pieces := pieces, data := if isStore then [(home, 1), (home + 1, 2)] else [] }
  at10 (st { core with vq := [e], ops := [⟨0, .vector isStore, home, 20, 0, none, true, none, none⟩] })
theorem witness_VectorMovesAndCompares_performing :
    (∀ p ∈ [(Instr.vst false 1 2 4 2, true, sliceHome 0 0x40), (.vst false 1 2 4 2, true, sliceHome 5 0x40), (.vld false 1 2 4 2, false, sliceHome 0 0x40),
        (.vld false 1 2 4 2, false, sliceHome 5 0x40)],
      let s := striding p.1 p.2.1 p.2.2 0
      let x := s.core (.comp 0)
      s.wf = true ∧ ∃ e o, x.vq.find? (fun y => y.id = 0) = some e ∧ x.ops.find? (fun y => y.id = 0) = some o ∧ e.id = 0 ∧ e.instr = p.1 ∧
        e.bound.isSome = true ∧ s.recovers o.home o.size = false ∧ o.kind = .vector p.2.1 ∧ s.partner 0 = none ∧ e.performAt ≤ s.now (.comp 0) ∧
        (e.data.map (fun y => y.1)).Nodup ∧ e.performAt + 1 + e.pieces ≤ s.now (.comp 0) + max 1 ((e.vl * 4 + 63) / 64)) ∧
    leavesSlice 0 (sliceHome 0 0x40) = false ∧ leavesSlice 0 (sliceHome 5 0x40) = true := by
  refine ⟨?_, by decide, by decide⟩
  intro p hp
  simp only [List.mem_cons, List.not_mem_nil, or_false] at hp
  rcases hp with rfl | rfl | rfl | rfl <;> exact ⟨by decide +kernel, _, _, rfl, rfl, by decide +kernel⟩
theorem witness_VectorFloatSpecials :
    (∀ i ∈ [Instr.vfpAdd false 1 2 3 4, .vfpSub false 1 2 3 4, .vfpMul false 1 2 3 4, .vfpFma false 1 2 3 4, .vfpMin false 1 2 3 4, .vfpMax false 1 2 3 4,
      .vfpAbs false 1 2 4, .vfpNeg false 1 2 4, .vfpExp2 false 1 2 4, .vfpLog2 false 1 2 4, .vfpRecip false 1 2 4, .vfpRsqrt false 1 2 4,
      .vcvtTobf false 1 2 4, .vcvtFrombf false 1 2 4, .vcvtItof false 1 2 4, .vcvtFtoi false 1 2 4, .vcvtSat8 false 1 2 4, .vcvtSat16 false 1 2 4,
      .vcvtMxq false 1 2 3, .vcvtMxd false 1 2 3, .vcvtTdec false 1 2 4, .vcvtTenc false 1 2 4], Binds (vectored i) 0 0 0 (entry i) ∧ (entry i).vl ≤ 64) ∧
    (3 : BitVec 4) ≠ 1 ∧ core.sys.dtstat.getLsbD 0 = false ∧ ({ core.sys with dtstat := 1 } : SysRegs).dtstat.getLsbD 0 = true ∧
    (F32Nan 0x7F80_0001 ∧ F32Inf 0xFF80_0000 ∧ F32Zero 0x807F_FFFF ∧ ¬ F32Zero 0x0080_0000 ∧ ¬ F32Nan 0xFF7F_FFFF ∧ ¬ F32Inf 0xFF7F_FFFF) := by
  unfold Binds F32Nan F32Inf F32Zero; decide +kernel

/-! ## Commands -/

theorem witness_CommandsCompose : (st core).plain 31 ∧ (0o76 : BitVec 6).toNat % 8 ≠ 7 ∧ 2 ≤ (2 : BitVec 3).toNat := by
  unfold State.plain; decide +kernel
/-- The ranges of the slots, where they pass. -/
def ranges (s : State) (w : BitVec 256) (role : Role) : List Range :=
  match checkSlots s s.cur w (s.core s.cur) (slotSpecs w (isMemCore s.cur) role) with
  | .ok l => l
  | .error _ => []
/-- The ranges, the capabilities and the state that reading the slots of k1 leaves. -/
def slotsRead (s : State) (role : Role) : (List Range × List (Nat × Reg)) × State :=
  match readSlots (s.slots 1 role).1 (s.slots 1 role).2 s with
  | .ok r => r
  | .error _ => (([], []), s)
/-- Core 0 with a command in k1, the private window in g1, and bank 0 held. -/
def commanding (x : Core) (w : BitVec 256) : Core :=
  { x.setReg 1 (pageAt 0) with k := x.k.setIfInBounds 1 w, slice := { x.slice with holders := x.slice.holders.setIfInBounds 0 .program } }
/-- FILL of a line, and MM.T of one row, five activations and one column. -/
def fillWord : BitVec 256 := word 2 4 [(4, slot1), (5, 64)]
def productWord : BitVec 256 := word 0 1 [(2, slot1), (3, slot1), (5, 0x5_0001), (6, 1)]
theorem witness_CommandsEnterTheirQueues_push :
    let s := st (commanding core fillWord)
    let r := slotsRead s none
    s.unbound 5 ∧ CommandOk s 1 none r.1.1 r.1.2 r.2 ∧ CommandFree r.2 1 r.1.1 := by
  refine ⟨rfl, ⟨by decide +kernel, by decide +kernel, by decide +kernel, by decide +kernel, by decide +kernel, rfl, by decide +kernel,
    by decide +kernel⟩, by decide +kernel, by decide +kernel, by decide +kernel, by decide +kernel⟩
theorem witness_CommandsEnterTheirQueues_unbound :
    let s := st (commanding core fillWord)
    let l := (s.slots 1 none).2
    l ≠ [] ∧ (∀ sp ∈ l, (s.core s.cur).genOf (slotReg (s.slots 1 none).1 sp.n) = none ∧
      (mapGet (s.core s.cur).issue.regReady (slotReg (s.slots 1 none).1 sp.n)).getD 0 ≤ s.now s.cur) ∧
    checkSlots s s.cur (s.slots 1 none).1 (s.core s.cur) l = .ok (ranges s (s.slots 1 none).1 none) := by
  refine ⟨by decide +kernel, by decide +kernel, rfl⟩
theorem witness_CommandsEnterTheirQueues_gissue :
    let s := st (commanding core productWord)
    let r := slotsRead s (some (true, true))
    (s.cur = .comp 0 ∧ cmdEngine productWord = 0 ∧ cmdOp productWord = 1 ∧
      ∀ j, j < 4 → (s.core (.comp (0 / 4 * 4 + j))).sys.mstat.extractLsb' 40 4 = 0) ∧
    CommandOk s 1 (some (true, 0 % 4 == 0)) r.1.1 r.1.2 r.2 ∧ CommandFree r.2 1 r.1.1 := by
  refine ⟨by decide +kernel, ⟨by decide +kernel, by decide +kernel, by decide +kernel, by decide +kernel, by decide +kernel, rfl,
    by decide +kernel, by decide +kernel⟩, by decide +kernel, by decide +kernel, by decide +kernel, by decide +kernel⟩
theorem witness_CommandsEnterTheirQueues_held :
    let s := st (sysCore.setStatus 3 true)
    s.cur = .comp 0 ∧ s.unbound 5 ∧ (s.core s.cur).isHeld = true ∧ (s.core s.cur).system = true ∧ (s.core s.cur).eng.saved = false ∧ TrapFree s s.cur := by
  unfold State.unbound TrapFree; decide +kernel
/-- Core 0 with a command of the slice at the head of its queue, its banks held. -/
def sliced (n : Nat) (k : Cmd) : State :=
  at10 (st (withHead { core with slice := { core.slice with holders := core.slice.holders.setIfInBounds 0 .program } } n k))
def product (op : Nat) (joint : Option Bool) : Cmd :=
  { cmd (word 0 op [(2, slot1), (3, slot1), (5, 0x5_0001), (6, 1)]) (pageAt 0) (pageAt 0x1000) Reg.zero Reg.zero with joint := joint }
/-- A seeded descriptor of one term for five activations and one column. -/
def seeded : State := (sliced 0 (product 2 none)).write (sliceHome 0 0x1000) [1, 1, 5, 0, 1, 0, 0, 0, 0, 0, 0, 0, 0, 0, 0, 0, 7]
theorem witness_MatrixProducts :
    (acceptable (sliced 0 (product 1 none)) 0 0 1 = some (product 1 none) ∧ 1 ≤ cmdK (product 1 none).word ∧
      (sliced 0 (product 1 none)).lanes 0 ≠ 0 ∧ fmtA (cmdFmt (product 1 none).word) = 0 ∧
      bitsAt ((sliced 0 (product 1 none)).core (.comp 0)).sys.progress 2 3 ≠ 1) ∧
    (acceptable seeded 0 0 2 = some (product 2 none) ∧ (commandSeeded seeded 0 (product 2 none)).isSome = true ∧ seeded.lanes 0 ≠ 0) := by
  decide +kernel
/-- The four cores of quad 0 with a part of a wide product each. -/
def joined : State :=
  let x := withHead { core with slice := { core.slice with holders := core.slice.holders.setIfInBounds 0 .program } } 0 (product 1 (some true))
  at10 { st x with cores := [(0, x), (1, x), (2, x), (3, x)] }
theorem witness_MatrixProducts_joint :
    (∀ i : Fin 4, (joined.core (.comp (4 * 0 + i))).head 0 = some (product 1 (some true)) ∧
      arrayAccepts joined (4 * 0 + i) (product 1 (some true)) = true ∧ joined.lanes (4 * 0 + i) ≠ 0) ∧
    (product 1 (some true)).joint = some true ∧ cmdOp (product 1 (some true)).word = 1 ∧ fmtA (cmdFmt (product 1 (some true)).word) = 0 ∧
    jointAgrees [product 1 (some true), product 1 (some true), product 1 (some true), product 1 (some true)] = true ∧
    bitsAt (joined.core (.comp (4 * 0))).sys.progress 2 3 ≠ 3 := by decide +kernel
def draining (ofmt : Nat) : Cmd :=
  cmd (word 0 3 [(0, ofmt * 2 ^ 26), (4, slot1), (5, 2), (6, 3)]) Reg.zero Reg.zero (pageAt 0) Reg.zero
def testing : Cmd := cmd (word 0 4 []) Reg.zero Reg.zero Reg.zero Reg.zero
def searching : Cmd := cmd (word 1 1 [(2, slot1), (4, slot1), (5, 0x3_0000), (6, 2 ^ 12 + 2), (7, 9)]) (pageAt 0) Reg.zero (pageAt 0x1000) Reg.zero
def subtracting : Cmd := cmd (word 1 2 [(2, slot1), (5, 0x3_0000), (6, 2 + 2 ^ 16), (7, 9)]) (pageAt 0) Reg.zero Reg.zero Reg.zero
theorem witness_DrainTestAndSeeds :
    (∀ o ∈ [0, 3], let k := draining o
      let s := sliced 0 k
      acceptable s 0 0 3 = some k ∧ s.wf = true ∧ s.lanes 0 ≠ 0 ∧ fmtA (cmdFmt k.word) = 0 ∧ fmtD (cmdFmt k.word) = 0 ∧
      fmtO (cmdFmt k.word) = o ∧ k.has 2 = false ∧ k.has 3 = false) ∧
    acceptable (sliced 0 testing) 0 0 4 = some testing ∧
    (core.eng.array = none ∧ core.eng.freeAt ≤ 10 ∧ core.tw = false ∧ core.opensWindow = false ∧ core.cascade = none) ∧
    (acceptable (sliced 1 searching) 0 1 1 = some searching ∧ 1 ≤ cmdN searching.word ∧ 1 ≤ cmdK searching.word ∧
      cmdN searching.word * cmdK searching.word ≤ 2 ^ 19) ∧
    acceptable (sliced 1 subtracting) 0 1 2 = some subtracting := by decide +kernel

/-! ## Copy engines -/

def copying (w : BitVec 256) : Cmd := cmd w (pageAt 0) (pageAt 0) (pageAt 0x1000) Reg.zero
theorem witness_CopyAndFill :
    ∀ n ∈ [0, 1, 2, 3],
      let k := copying (match n with
        | 0 => word 2 1 [(2, slot1), (4, slot1), (5, 100)]
        | 1 => word 2 4 [(4, slot1), (5, 1)]
        | 2 => timedWord 2 1 [(2, slot1), (4, slot1), (5, 64)]
        | _ => timedWord 2 4 [(4, slot1), (5, 64)])
      let s := at10 (st (withHead core 2 k))
      (CoreId.comp 0).wf = true ∧ s.wf = true ∧ (s.core (.comp 0)).eng.copyRun = none ∧ (s.core (.comp 0)).head 2 = some k ∧
      copyAccepts s (.comp 0) k = true ∧ 1 ≤ cmdW5 k.word ∧ cmdT k.word = decide (2 ≤ n) ∧ isExternal (k.addr 2).toNat = false ∧
      isExternal (k.addr 4).toNat = false ∧ 0 ≤ k.addr 4 := by decide +kernel
/-- A state that an outcome leads to. -/
def after (o : Host.Outcome State Fault Refusal) (s : State) : State := match o with | .next t => t | _ => s
/-- A timed COPY whose lines are on their way, on the cycle on which the last has landed. -/
theorem witness_CopyAndFill_landing :
    let s := at10 (st (withHead core 2 (copying (timedWord 2 1 [(2, slot1), (4, slot1), (5, 64)]))))
    let t := after (exec (.copy (.comp 0)) s) s
    let u := t.setDie 0 { t.die 0 with cycle := 13 }
    u.wf = true ∧ (u.core (.comp 0)).eng.landing = (t.core (.comp 0)).eng.landing ∧ (u.core (.comp 0)).eng.landing.length = 1 ∧
    ((u.core (.comp 0)).eng.landing.map (fun r => (r.finish, r.flight.length))) = [(some 13, 1)] ∧
    (u.core (.comp 0)).eng.copyRun = none ∧ (u.core (.comp 0)).eng.stopAt = none ∧ u.now (.comp 0) = 13 := by decide +kernel
theorem witness_CopyAndFill_piece :
    let r : CopyRun := ⟨copying (word 2 1 [(2, slot1), (4, slot1), (5, 100)]), 3, 0, true, some 10, [], false, []⟩
    let s := at10 (st { core with eng := { core.eng with copyRun := some r } })
    (s.core (.comp 0)).eng.copyRun = some r ∧ r.moved = true ∧ (s.core (.comp 0)).eng.landing = [] ∧ r.finish = some (s.now (.comp 0)) ∧ cmdOp r.cmd.word = 1 ∧
    (s.core (.comp 0)).eng.stopAt = none ∧ r.cmd.has 7 = false ∧
    (copying (word 2 4 [(4, slot1), (5, 1), (7, slot1)])).has 7 = true := by decide +kernel
/-- A running transform with a layout: formats, rows, columns, strides. -/
def forming (op code fmt rows cols : Nat) : CopyRun :=
  ⟨copying (word 2 op [(2, slot1), (3, slot1), (4, slot1), (6, code)]), 3, 0, false, none,
    ([fmt, rows, cols, 256, 256, 0, 0x400, 0, 64] ++ List.replicate 7 0).map (BitVec.ofNat 32), false, []⟩
def formed (r : CopyRun) : State := at10 (st { core with eng := { core.eng with copyRun := some r } })
theorem witness_Transforms :
    ∀ p ∈ [(0, 0x60, 1, 6), (1, 0x06, 1, 6), (2, 0x00, 1, 256), (3, 0x11, 2, 3), (7, 0x34, 1, 2), (6, 0x53, 1, 32)],
      let r := forming 2 p.1 p.2.1 p.2.2.1 p.2.2.2
      ((formed r).core (.comp 0)).eng.copyRun = some r ∧ r.moved = false ∧ r.ended = false ∧ heldByRecovery (formed r) (.comp 0) r.cmd = false ∧
      cmdOp r.cmd.word = 2 ∧ cmdW6 r.cmd.word = p.1 ∧
      layoutOk r.layout (some p.1) = true ∧ isExternal (r.cmd.at 3 0x1FF).toNat = false ∧ isExternal (r.cmd.at 4 0x5FF).toNat = false := by
  decide +kernel
theorem zero_value : f32Value 0 = 0 := by decide +kernel
theorem zero_sum : F32Sum 0 0 0 := by
  unfold F32Sum F32Fma F32Nan F32Inf F32Zero
  refine ⟨fun h => absurd h (by decide), fun _ h => absurd h (by decide), fun _ _ h => absurd h (by decide), fun _ _ _ => ?_⟩
  simp only [zero_value, zero_mul, add_zero, abs_zero, if_true]
  refine ⟨rfl, 0, fun _ => ⟨?_, rfl⟩, fun e _ h => absurd h (not_le.mpr (by positivity))⟩
  unfold NearestEven
  norm_num
/-- TERN of one column of five latents, all zero. -/
theorem witness_Transforms_tern :
    let r := forming 3 0 (0x64 + 5 * 2 ^ 16) 1 5
    let latent (i : Nat) : Word32 := bf16Read ((formed r).byte (rawHome (.comp 0) (r.cmd.at 3 0).toNat + (2 * i + 1)) ++
      (formed r).byte (rawHome (.comp 0) (r.cmd.at 3 0).toNat + 2 * i))
    (cmdOp r.cmd.word = 3 ∧ layoutOk r.layout none = true ∧ (r.layout.getD 5 0).toNat % 2 ^ 16 = 0 ∧ isExternal (r.cmd.at 3 0).toNat = false ∧
      isExternal (r.cmd.at 4 0).toNat = false ∧ isExternal (r.cmd.at 4 0x400).toNat = false ∧ ¬ F32Nan 0x3F00_0000 ∧ ¬ F32Inf 0x3F00_0000) ∧
    (∀ i, ¬ F32Nan (latent i) ∧ ¬ F32Inf (latent i)) ∧ (∀ i, F32Sum 0 (latent i &&& 0x7FFF_FFFF) 0) ∧ ¬ F32Inf 0 := by
  have zero : ∀ a, (formed (forming 3 0 (0x64 + 5 * 2 ^ 16) 1 5)).byte a = 0 := fun _ => rfl
  refine ⟨by unfold F32Nan F32Inf; decide +kernel, fun i => ?_, fun i => ?_, by unfold F32Inf; decide⟩
  · simp only [zero]; unfold F32Nan F32Inf; decide +kernel
  · simp only [zero, show bf16Read ((0 : Byte) ++ (0 : Byte)) &&& 0x7FFF_FFFF = 0 by decide +kernel]; exact zero_sum
/-- Sparse-encode of two rows of four zero bytes: a chunk of its bitmap alone. -/
theorem witness_Transforms_encode :
    let r := forming 2 4 0x70 2 4
    let ws : List (Nat × List Byte) := [(0, [1 + 0 * 2 ^ 12, 8, 16, 32, 64, 8, 0, 0].flatMap (leBytes 4)), (32, [0, 16].flatMap (leBytes 4)),
      (64, List.replicate 16 0)]
    SparseBuffer 1 (2 * 4) (fun e j => (formed r).byte (rawHome (.comp 0) (r.cmd.at 3 (e / 4 * 256)).toNat + (e % 4 * 1 + j))) ws ∧
    layoutOk r.layout (some 4) = true ∧ (∀ i, i < 2 → isExternal (r.cmd.at 3 (i * 256)).toNat = false) ∧
    (∀ p ∈ ws, isExternal (r.cmd.at 4 p.1).toNat = false) ∧ spanOk (formed r) (.comp 0) r.cmd false (3, 0, (2 - 1) * 256 + 4, false) = true ∧
    spanOk (formed r) (.comp 0) r.cmd false (4, 0, ws.foldl (fun m p => max m (p.1 + p.2.length)) 0, true) = true ∧ r.layout.getD 7 0 = 0 := by
  refine ⟨⟨fun _ => false, fun i => if i = 0 then 0 else 16, rfl, rfl, fun i hi => ?_, rfl, rfl⟩, by decide +kernel, by decide +kernel, by decide +kernel,
    by decide +kernel, by decide +kernel, by decide +kernel⟩
  obtain rfl : i = 0 := by omega
  have zero : ∀ a, (formed (forming 2 4 0x70 2 4)).byte a = 0 := fun _ => rfl
  refine ⟨_, rfl, ?_, rfl⟩
  simp only [SparseChunk, zero]
  refine ⟨by decide +kernel, fun h => absurd h (by decide), fun _ => ⟨by decide +kernel, by decide +kernel, fun j k _ h => ?_⟩⟩
  simp at h
/-- Buffers of a kind: raw, for a later level, and of one chunk of eight zero bytes. -/
def buffered (kind : Nat) : State :=
  let s := formed (forming 2 5 0x07 1 4)
  let put (i v : Nat) (s : State) : State := s.writeNum (sliceHome 0 (4 * i)) 4 v
  match kind with
  | 0 => put 0 0x401 (put 2 4 (put 4 32 s))
  | 1 => put 0 0x301 (put 2 4 (put 4 32 s))
  | _ => put 0 1 (put 1 8 (put 2 16 (put 3 32 (put 4 64 (put 9 16 s)))))
theorem witness_Transforms_decode :
    let r := forming 2 5 0x07 1 4
    ∀ kind ∈ [0, 1, 2], let s := buffered kind
      let head (i : Nat) : Nat := leNat ((List.range 4).map (fun j => s.byte (rawHome (.comp 0) (r.cmd.at 3 0).toNat + (4 * i + j))))
      let size : Nat := if kind = 2 then 80 else 36
      (s.core (.comp 0)).eng.copyRun = some r ∧ s.wf = true ∧ heldByRecovery s (.comp 0) r.cmd = false ∧ isExternal (r.cmd.at 3 0).toNat = false ∧
      spanOk s (.comp 0) r.cmd false (3, 0, 32, false) = true ∧ spanOk s (.comp 0) r.cmd false (3, 0, size, false) = true ∧ r.layout.getD 7 0 = 0 ∧
      (decide (2 < head 0 / 256 % 4) = decide (kind = 1)) ∧
      (head 0 / 2 ^ 14 = 0 ∧ head 0 / 2 ^ 11 % 2 = 0 ∧ head 0 / 2 ^ 12 % 4 ≠ 3 ∧ head 6 = 0 ∧ head 7 = 0) ∧ head 0 % 256 = 1 ∧
      (kind = 0 → head 0 / 2 ^ 10 % 2 = 1) ∧ (kind = 2 → head 0 / 2 ^ 10 % 2 = 0 ∧ head 1 = 8 ∧ head 3 = 32 ∧ head 4 = 64 ∧ head 8 = 0 ∧ head 9 = 16 ∧
        max (max 32 (head 2 + head 4)) (head 3 + 4 * ((head 1 + 127) / 128 + 1)) = 80 ∧
        ∀ i, i < 16 → s.byte (rawHome (.comp 0) (r.cmd.at 3 0).toNat + (head 4 + i)) = 0) ∧
      ∀ p ∈ [(0, 4), (256, 4)], isExternal (r.cmd.at 4 p.1).toNat = false ∧ spanOk s (.comp 0) r.cmd false (4, p.1, p.2, true) = true := by
  decide +kernel

end Sys2Proof.Tests
end

