-- ==== Sys2Proof/Tests/Witness4.lean ====
section
/-! SUPPORT. For each statement with hypotheses, states and operands that meet them: the Dipper, reduction and ring engines, completion, Cascade mode. -/

set_option Elab.async false

namespace Sys2Proof.Tests
open Sys2Proof Sys2Proof.Machine

/-! ## The Dipper -/

/-- A Dipper command that runs: its op and flags, count and row bytes, table rows; index, rows and destination in three pages. -/
def dipping (op flags count RB rows : Nat) : DipperRun :=
  ⟨cmd (word 3 op [(0, flags * 2 ^ 22), (2, slot1), (3, slot1), (4, slot1), (5, count + RB * 2 ^ 16), (6, rows)])
    (pageAt 0) (pageAt 0x1000) (pageAt 0x2000) Reg.zero, 0, 0, none, 0, 0, 0, none⟩
def dipped (r : DipperRun) : State := at10 (st { core with eng := { core.eng with dipperRun := some r } })
/-- Its turn has come, and its index list and table lie in SRAM: entries of zero name the first row. -/
theorem witness_DipperBatches_rows :
    (∀ n ∈ [0, 1, 2, 3, 4],
      let r := match n with
        | 0 => dipping 1 0 9 8 1
        | 1 => dipping 1 1 9 256 1
        | 2 => dipping 1 2 9 8 1
        | 3 => dipping 2 0 9 8 1
        | _ => dipping 3 4 9 8 1
      let s := dipped r
      (s.core (.comp 0)).eng.dipperRun = some r ∧ dipperTurn s (0 / 16) = some 0 ∧ heldByRecovery s (.comp 0) r.cmd = false ∧ 1 ≤ cmdW5 r.cmd.word / 2 ^ 16 ∧
      cmdW5 r.cmd.word / 2 ^ 16 % 4 = 0 ∧ isExternal (r.cmd.at 2 (8 * r.done)).toNat = false ∧
      isExternal (r.cmd.at 3 (0 * (cmdW5 r.cmd.word / 2 ^ 16))).toNat = false ∧
      isExternal (r.cmd.at 4 (0 * (cmdW5 r.cmd.word / 2 ^ 16))).toNat = false ∧
      leNat ((List.range 4).map (fun b => s.byte (rawHome (.comp 0) (r.cmd.at 2 0).toNat + b))) = 0) ∧
    (dipping 1 1 9 256 1).cmd.word.getLsbD 22 = true ∧ (dipping 1 2 9 8 1).cmd.word.getLsbD 23 = true ∧
    0 + (dipping 1 2 9 8 1).rows ≤ (((dipping 1 2 9 8 1).cmd.slot 4).top - (dipping 1 2 9 8 1).cmd.addr 4).toNat / 8 := by decide +kernel
/-- PAGES of one entry: a side table of one page of 64 bytes at the first external address, which the Dipper's TLB translates. -/
def paging : State :=
  let s := ((dipped (dipping 4 0 1 0 0)).writeNum (sliceHome 0 0x1000) 8 (1 + 64 * 2 ^ 32)).writeNum (sliceHome 0 0x1010) 16
    (0x1_0000_0000_0000 + 64 * 2 ^ 64)
  s.setCluster 0 { s.cluster 0 with tlb := [⟨0, 0x1_0000_0000_0000, 4096, 0x1000, 0x47⟩] }
theorem witness_DipperBatches_pages :
    let r := dipping 4 0 1 0 0
    let field (lo len : Nat) : Nat := leNat ((List.range len).map (fun i => paging.byte (rawHome (.comp 0) (r.cmd.at 3 16).toNat + (lo + i))))
    dipperTurn paging (0 / 16) = some 0 ∧ heldByRecovery paging (.comp 0) r.cmd = false ∧ leNat ((List.range 4).map (fun i => paging.byte (rawHome (.comp 0) (r.cmd.at 3 0).toNat + i))) = 1 ∧
    leNat ((List.range 4).map (fun i => paging.byte (rawHome (.comp 0) (r.cmd.at 3 0).toNat + (4 + i)))) = 64 ∧
    (∀ i, i < 8 → paging.byte (rawHome (.comp 0) (r.cmd.at 3 0).toNat + (8 + i)) = 0) ∧
    isExternal (r.cmd.at 2 0).toNat = false ∧ isExternal (r.cmd.at 3 0).toNat = false ∧ isExternal (r.cmd.at 3 16).toNat = false ∧
    (1 ≤ field 8 4 ∧ field 8 4 ≤ 64 ∧ field 12 4 ≤ 1 ∧ 0x1_0000_0000_0000 ≤ field 0 8 ∧ field 0 8 + field 8 4 ≤ 0x200_0000_0000_0000) ∧
    (match readPages paging 0 64 [some (0x1_0000_0000_0000, 64, false)] with
      | .ok ([.ok bs], _) => bs == List.replicate 64 0
      | _ => false) = true := by decide +kernel
/-- An open batch, and a command that waits while another core's batch is open. -/
theorem witness_DipperBatches_ends :
    let r := { dipping 1 0 9 8 1 with batch := some (8, 8), oob := 2, neglen := 0 }
    let k := (dipping 2 0 9 8 1).cmd
    let s := at10 { st core with cores := [(0, withHead core 3 k), (1, { core with eng := { core.eng with dipperRun := some r } })] }
    ((dipped r).core (.comp 0)).eng.dipperRun = some r ∧ r.batch = some (8, 8) ∧ r.cmd.has 7 = false ∧
    ({ r with cmd := cmd (word 3 1 [(7, slot1)]) far far far far } : DipperRun).cmd.has 7 = true ∧
    ((s.core (.comp 0)).eng.dipperRun = none ∧ (s.core (.comp 0)).head 3 = some k ∧ dipperAccepts s 0 k = true ∧
      1 / 16 = 0 / 16 ∧ (s.core (.comp 1)).eng.dipperRun = some r ∧ r.batch.isSome = true ∧ cmdOp k.word = 2) := by decide +kernel

/-! ## Reduction and ring -/

def merging : Cmd := cmd (word 4 1 [(2, slot1), (4, slot1), (5, 3), (6, 2)]) (pageAt 0) Reg.zero (pageAt 0x1000) Reg.zero
theorem witness_MergeAndRing_merge :
    let s := at10 (st (withHead core 4 merging))
    (s.core (.comp 0)).eng.reduction = none ∧ (s.core (.comp 0)).head 4 = some merging ∧ onTime s (.comp 0) merging = true ∧
    1 ≤ cmdW6 merging.word % 32 ∧ merging.has 7 = false := by decide +kernel
/-- A stream between modules 0 and 1, with one beat received and credit for two. -/
def rill : Stream := ⟨⟨true, 7, 0, 0, 0, 0, 3, true, 1, 2, 1⟩, [], [], [List.replicate 64 1], 0, 1, 0⟩
def ringing (op : Nat) : Cmd := cmd (word 5 op [(2, slot1), (4, slot1), (5, 128), (6, 7)]) (pageAt 0) Reg.zero (pageAt 0) Reg.zero
def rung (op : Nat) : State := { at10 (st (withHead core 5 (ringing op))) with streams := [(7, rill)] }
theorem witness_MergeAndRing_ring :
    (∀ op ∈ [1, 2], ((rung op).core (.comp 0)).eng.ringRuns = [] ∧ ((rung op).core (.comp 0)).head 5 = some (ringing op) ∧
      cmdOp (ringing op).word = op ∧ onTime (rung op) (.comp 0) (ringing op) = true ∧
      mapGet (rung op).streams (cmdW6 (ringing op).word % 2 ^ 16) = some rill ∧ 1 ≤ cmdW5 (ringing op).word ∧
      (∀ o ∈ ((rung op).core (.comp 0)).eng.queue 5, seqBefore o.seq (ringing op).seq = false) ∧
      ((rung op).core (.comp 0)).eng.queue 0 = [] ∧ ringEnded (rung op) 0 = false) ∧
    (∀ l ∈ rill.buffer, 1 ≤ l.length) ∧ rill.buffer.head? = some (List.replicate 64 1) ∧ rill.taken < 64 ∧
    mapGet (rung 1).streams 7 = some rill ∧ rill.entry.receiverModule = (rung 1).module.number ∧
    rill.buffer.length + rill.owed < rill.entry.credit ∧ rill.credit + rill.flying.length < rill.entry.credit := by decide +kernel

/-! ## Completion and timing -/

def onArrayNow : ArrayRun := ⟨product, 3, 10, 0, 64, [1], 1, (0, 0), [], [], [], .done, false, 0⟩
where product : Cmd := cmd (word 0 1 [(2, slot1), (3, slot1), (5, 0x5_0001), (6, 1)]) (pageAt 0) (pageAt 0x1000) Reg.zero Reg.zero
def copied : CopyRun := ⟨cmd (word 2 1 [(2, slot1), (4, slot1), (5, 64)]) (pageAt 0) Reg.zero (pageAt 0x1000) Reg.zero, 3, 64, false, some 10, [], true, []⟩
theorem witness_EnginesComplete :
    let running (e : Engines) : State := at10 (st { core with eng := e })
    let s := running { core.eng with array := some onArrayNow }
    ((s.core (.comp 0)).eng.array = some onArrayNow ∧ onArrayNow.isBlock = false ∧ onArrayNow.ending = .done ∧ onArrayNow.bad = 0 ∧
      onArrayNow.cmd.joint = none ∧ (s.core (.comp 0)).eng.stopAt = none ∧ onArrayNow.finish ≤ s.now (.comp 0) ∧
      drainStream onArrayNow.cmd = none ∧ onArrayNow.cmd.word ≠ BitVec.allOnes 256) ∧
    (let y := { core.eng with copyRun := some copied }
     (CoreId.comp 0).wf = true ∧ y.copyRun = some copied ∧ copied.ended = true ∧ y.landing = [] ∧ cmdEngine copied.cmd.word = 2) ∧
    (let y := { core.eng with landing := [copied] }
     y.landing = [] ++ copied :: [] ∧ y.stopAt = none ∧ copied.finish = some 10 ∧ copied.flight = [] ∧ 1 ≤ (cmdW5 copied.cmd.word + 4095) / 4096 ∧
      copied.cmd.has 7 = false) ∧
    (let r : DipperRun := { dipping 1 0 9 8 1 with done := 9 }
     r.batch = none ∧ dipperCount r.cmd ≤ r.done) ∧
    (let t := running { core.eng with reduction := some merging }
     let t := t.setCluster 0 { t.cluster 0 with merges := [0] }
     (t.core (.comp 0)).eng.reduction = some merging ∧ (t.cluster (0 / 16)).merges = 0 :: []) ∧
    (let r : RingRun := ⟨ringing 1, 128⟩
     let y := { core.eng with ringRuns := [r] }
     y.ringRuns = [] ++ r :: [] ∧ cmdW5 r.cmd.word ≤ r.done ∧ cmdOp r.cmd.word = 1 ∧ ringEnded (rung 2) 0 = false ∧
      mapGet (rung 1).streams (cmdW6 r.cmd.word % 2 ^ 16) = some rill ∧ rill.pending = []) := by decide +kernel
theorem witness_MissedTimesRaiseTiming :
    let k := cmd (timedWord 0 1 []) far far far far
    let late (s : State) : State := s.setDie 0 { s.die 0 with cycle := 11 }
    let s := late (st (withHead core 0 k))
    let last := (st core).setDie 0 { (st core).die 0 with cycle := 0xFFFF_FFFF }
    ((s.core (.comp 0)).eng.queue 0 = k :: [] ∧ k.word.getLsbD 12 = true ∧ k.enters ≤ s.now (.comp 0) ∧ (s.core (.comp 0)).dispatches = true ∧
      (s.core (.comp 0)).sys.gcycHeld = none ∧ (k.word.extractLsb' 32 32).toNat < (s.gcyc (.comp 0)).toNat ∧ k.joint = none ∧
      heldBlock s (.comp 0) k = none) ∧
    (let k := cmd (timedWord 2 4 [(4, slot1), (5, 64)]) Reg.zero Reg.zero (pageAt 0) Reg.zero
     let s0 := late (st (withHead core 2 k))
     let s := { s0 with module := { s0.module with recovering := [sliceHome 0 0 / 4096] } }
     (s.core (.comp 0)).eng.queue 2 = k :: [] ∧ k.word.getLsbD 12 = true ∧ (k.word.extractLsb' 32 32).toNat < (s.gcyc (.comp 0)).toNat ∧
      heldBlock s (.comp 0) k = some (sliceHome 0 0 / 4096)) ∧
    ((core.setStatus 0 true).tw = true ∧ last.gcyc (.comp 0) = 0xFFFF_FFFF ∧ core.issue.faults = [] ∧ core.issue.trapWait = none ∧
      last.gangOf (.comp 0) = none) := by decide +kernel

/-! ## Cascade mode -/

/-- A core whose weight frames begin at 1 MiB of its slice, and the chain capability of their first page. -/
def framed : Core := { core with sys := { core.sys with privsz := 0x10_0000, xbase := 0x10_0000, xlimit := 0x18_0000, fmt := 0x18 } }
def chain : Reg := makeCap 0x1F 1 0x50_0000 0 0x50_0000 0x1000
def header (l : List Nat) : BitVec 256 := BitVec.ofNat 256 ((l.zipIdx).foldl (fun a p => a + p.1 * 2 ^ (32 * p.2)) 0)
/-- Headers: a product of one row, the same by a seed, a DRAIN to core 0's own slice, and the ops without a command. -/
def headT : BitVec 256 := header [0x2_0301, 3, 0, 0, 0, slot1, 0x5_0001, 1]
def headS : BitVec 256 := header [0x1_0302, 3, 0, 0, 0, slot1, 0x5_0001, 1]
def headD : BitVec 256 := header [0x1003, 3, 0, 0, 0, 0, 0x1_0001, 0x7000_0000]
def headOp (op : Nat) : BitVec 256 := header [0x3000 + op, if op = 6 then 0 else 1, if op = 4 then 2 else 0, 0, 0, 0, 0, 0]

theorem witness_CascadesRun_entry :
    let s := at10 (st (framed.setReg 20 chain))
    s.cur = .comp 0 ∧ (s.core s.cur).system = false ∧ s.plain 20 ∧ chain.tag = true ∧ chain.permX = true ∧ chain.base ≤ chain.cursor ∧
    (chain.cursor : Int) + 32 ≤ chain.top ∧ chain.owner = 0 ∧
    s.resolve (.comp 0) false chain.cursor 32 .no true = .ok (place s 0x50_0000 32 .no true) ∧ (place s 0x50_0000 32 .no true).own = true ∧
    chain.cursor % 32 = 0 ∧ chain.base % 32 = 0 ∧ (s.core s.cur).ops = [] ∧ (s.core s.cur).vq = [] ∧ (s.core s.cur).eng.queue 0 = [] ∧
    (s.core s.cur).eng.queue 1 = [] ∧ (s.core s.cur).eng.array = none ∧ (s.core s.cur).eng.freeAt = 0 := by
  unfold State.plain; decide +kernel
/-- A core in Cascade mode at the first block, with its activations in the private window and bank 0 held. -/
def chained (k : Cascade) : Core :=
  { (framed.setReg 1 (pageAt 0)).setStatus 1 true with
    cascade := some k, slice := { framed.slice with holders := framed.slice.holders.setIfInBounds 0 .program } }
def atBlock (h : Option (BitVec 256)) (c : Option Cmd) (l : Option (BitVec 32)) : Cascade := ⟨chain, 0x50_0000, h, c, 3, l, none⟩
def loading (h : BitVec 256) : State :=
  (at10 (st (chained (atBlock none none none)))).write (sliceHome 0 0x10_0000) (leBytes 32 h.toNat)
theorem witness_CascadesRun_loading :
    let slotOk (s : State) (h : BitVec 256) : Bool :=
      let w := blockCommand 0x18 h
      match checkSlot s (.comp 0) w ((s.core (.comp 0)).reg (slotReg w (blockSlot w).n)) (blockSlot w) with
      | .ok r => blockRulesOk s 0 h w r.toList
      | .error _ => false
    (∀ n ∈ [1, 3, 4, 5, 6, 7, 8],
      let h := if n = 1 then headT else if n = 3 then headD else headOp n
      let s := loading h
      let x := s.core (.comp 0)
      x.cascade = some (atBlock none none none) ∧ x.eng.array = none ∧ x.chainRuns = true ∧ s.module.recovering = [] ∧
      0x50_0000 % 32 = 0 ∧ 0x50_0000 + (32 + 32 * blockLength h) ≤ 0x1_0000_0000_0000 ∧ chain.base ≤ 0x50_0000 ∧
      ((0x50_0000 + (32 + 32 * blockLength h) : Nat) : Int) ≤ chain.top ∧
      (∀ i, i < 32 → h.extractLsb' (8 * i) 8 = s.byte (rawHome (.comp 0) ((0x50_0000 + i) / 4096 * 4096) + (0x50_0000 + i) % 4096)) ∧
      headerOk h = true ∧ blockPlaceOk s 0 0x50_0000 (32 + 32 * blockLength h) = true ∧ linksOk chain 0x50_0000 h = true ∧ blockOp h = n ∧
      x.tw = false ∧ x.sys.fmt = 0x18) ∧
    slotOk (loading headT) headT = true ∧ slotOk (loading headD) headD = true := by decide +kernel
theorem witness_CascadesRun_plain : ∀ op ∈ [4, 5, 6, 7, 8],
    let h := headOp op
    let k := atBlock (some h) none none
    let l : BitVec 32 := if op = 5 ∨ op = 6 then 0 else 1
    let k' := atBlock (some h) none (some l)
    let s := at10 (st (chained k'))
    let x := s.core (.comp 0)
    blockMayStart (at10 (st (chained k))) 0 op = some (k, h) ∧ k.link = none ∧
    (x.cascade = some k' ∧ k'.header = some h ∧ k'.link = some l ∧ blockOp h = op ∧ k'.start + 1 ≤ s.now (.comp 0) ∧ x.casc = true ∧
      x.run = .running ∧ x.issue.loopCopy = none ∧ x.ops = [] ∧ x.vq = []) := by decide +kernel
def blockCmd (h : BitVec 256) : Cmd := ⟨blockCommand 0x18 h, 0, 0, #v[pageAt 0, Reg.zero, Reg.zero, Reg.zero], false, none, 0x50_0020⟩
def started (h : BitVec 256) : State :=
  (at10 (st (chained (atBlock (some h) (some (blockCmd h)) none)))).write (sliceHome 0 0x10_0020)
    (if blockOp h = 2 then [1, 1, 5, 0, 1, 0, 0, 0, 0, 0, 0, 0, 0, 0, 0, 0, 7] else [])
theorem witness_CascadesRun_commands :
    (∀ op ∈ [1, 2, 3],
      let h := if op = 1 then headT else if op = 2 then headS else headD
      let s := started h
      blockMayStart s 0 op = some (atBlock (some h) (some (blockCmd h)) none, h) ∧ banksReady s 0 (runningCmd h (blockCmd h)) = true ∧
      s.lanes 0 ≠ 0 ∧ (blockCmd h).base + 2 ^ 21 ≤ 0x1_0000_0000_0000 ∧ cmdOp (blockCmd h).word = op ∧ fmtA (cmdFmt (blockCmd h).word) = 0 ∧
      (s.core (.comp 0)).sys.progress.extractLsb' 5 27 = 0 ∧ s.module.recovering = [] ∧ s.wf = true) ∧
    (1 ≤ matK headT ∧ cmdK (blockCmd headT).word = matK headT ∧ cmdN (blockCmd headT).word = matN headT ∧ matN headT ≤ 128) ∧
    (1 ≤ matK headS ∧ cmdK (blockCmd headS).word = matK headS ∧ cmdN (blockCmd headS).word = matN headS ∧
      (readSeeded (payloadByte (started headS) 0x50_0020 (payloadPages (started headS) 0 0x50_0020 (blockBytes (started headS) 0 (blockCmd headS))).1) 144 (matK headS) (matN headS)).isSome = true) ∧
    (blockKind headD = 1 ∧ blockLength headD = 0 ∧ fmtO (cmdFmt (blockCmd headD).word) = 3 ∧ (blockCmd headD).has 3 = false) := by decide +kernel
theorem witness_CascadesRun_end :
    let r : ArrayRun := ⟨blockCmd headT, 3, 10, 0, 64, [1], 1, (0, 0), [], [], [], .done, true, 0⟩
    let k := atBlock (some headT) (some (blockCmd headT)) none
    let s := at10 (st { chained k with eng := { core.eng with array := some r } })
    let x := s.core (.comp 0)
    x.eng.array = some r ∧ r.ending = .done ∧ r.cmd.joint = none ∧ x.eng.chainStop = none ∧ r.finish ≤ s.now (.comp 0) ∧ drainStream r.cmd = none ∧ x.cascade = some k ∧
    k.header = some headT ∧ headT.extractLsb' 32 32 ≠ 0 := by decide +kernel

end Sys2Proof.Tests
end

