-- ==== Sys2Proof/Tests/Witness5.lean ====
section
/-! SUPPORT. For each statement with hypotheses, states and operands that meet them: system words, events, Weirs, timed windows. -/

set_option Elab.async false

namespace Sys2Proof.Tests
open Sys2Proof Sys2Proof.Machine

/-! ## System words -/

theorem witness_SystemRegisters :
    let s := st (sysCore.setReg 1 (Reg.ofWord 0x8000_0007))
    let m := stm memCore
    (∀ n ∈ [0x00, 0x41], n ∈ ((List.range 7) ++ [0x10, 0x11, 0x12, 0x13, 0x14, 0x15, 0x20, 0x21, 0x22, 0x24, 0x25, 0x26, 0x27, 0x30, 0x31,
      0x32, 0x40, 0x41] : List Nat)) ∧
    (s.unbound 1 ∧ (s.core s.cur).system = true ∧ isMemCore s.cur = false) ∧ (isMemCore m.cur = true ∧ m.unbound 1) ∧
    TrapFree s s.cur ∧ TrapFree m m.cur ∧ TrapFree (st core) (st core).cur ∧ (st core).core (st core).cur = core ∧ core.system = false ∧
    s.plain 1 ∧ (s.core s.cur).eng.array = none ∧ (s.core s.cur).tw = false ∧ (s.core s.cur).issue.loopCopy = none := by
  unfold State.plain State.unbound TrapFree; decide +kernel
/-- Values at the bounds of what each register takes. -/
theorem witness_SystemRegisters_values :
    let zero (v : Word) (lo len : Nat) : Prop := v.extractLsb' lo len = 0
    (zero 0x53FF 16 48 ∧ zero 0x53FF 10 2) ∧ zero 0xFFFF_FFFC 0 2 ∧ ¬ zero 1 0 2 ∧
    (zero 0x119 9 55 ∧ ((0x119 : Word).extractLsb' 7 2).toNat < 3 ∧ ((0x119 : Word).extractLsb' 3 3).toNat < 4 ∧
      ((0x119 : Word).extractLsb' 0 3).toNat < 2) ∧ ¬ zero 0x200 9 55 ∧
    (zero (0xFFF_0000_0001) 44 20 ∧ zero 0xF01 1 7) ∧ ¬ zero (1 <<< 44) 44 20 ∧ zero 0xFFFF_FFFF 32 32 ∧ zero 3 2 62 ∧
    (8 : Word).getLsbD 3 = true ∧ (0xFF00_0000_3F00_0004 : Word) &&& 0xC0FF_FFFB = 0 ∧
    (let v : Word := 0xFF00_0000_3F00_0004
     (∀ i : Fin 4, (v.extractLsb' (32 + 8 * i) 8).toNat ≠ 0xFF → (v.extractLsb' (32 + 8 * i) 8).toNat < 128) ∧
       (mapGet core.issue.regReady (24 + 0xFF % 8)).getD 0 ≤ (st core).now (.comp 0)) ∧
    (0x1F_0000 : Nat) % 0x1_0000 = 0 ∧ (0x20_0000 : Word).toNat % 0x1000 = 0 := by decide +kernel
theorem witness_SystemRegisters_boundaries :
    let s := st (sysCore.setReg 1 (Reg.ofWord 0x2_0000))
    let x := s.core s.cur
    let v := s.gword 1
    s.cur = .comp 0 ∧ s.plain 1 ∧ x.system = true ∧
    (v.toNat % 0x1_0000 = 0 ∧ 0x2_0000 ≤ v.toNat ∧ v.toNat ≤ 0x20_0000 ∧ (x.sys.xlimit.toNat ≤ x.sys.xbase.toNat ∨ v.toNat ≤ x.sys.xbase.toNat)) ∧
    (v.toNat % 0x1000 = 0 ∧ (x.sys.xlimit.toNat ≤ v.toNat ∨ x.sys.privsz.toNat ≤ v.toNat)) ∧
    (v.toNat ≤ x.sys.xbase.toNat ∨ x.sys.privsz.toNat ≤ x.sys.xbase.toNat ∨ v.toNat ≤ 0x20_0000) := by unfold State.plain; decide +kernel
theorem witness_SystemWords :
    let s := st (sysCore.setReg 1 (Reg.ofWord 0x3F))
    let x := s.core s.cur
    (TrapFree s s.cur ∧ TrapFree (st core) (st core).cur ∧ core.system = false) ∧
    (x.system = true ∧ x.sys.trapcause.getLsbD 9 = false ∧ s.isFrozen s.cur = false ∧ x.casc = false ∧ x.loopActive = false ∧
      x.issue.spilled = none) ∧
    ({ sysCore.sys with trapcause := 0x313 } : SysRegs).trapcause.getLsbD 9 = true ∧
    (s.cur.wf = true ∧ s.plain 1 ∧ (s.gword 1).toNat < 64 ∧ (s.gword 1).extractLsb' 57 7 = 0 ∧ (s.gword 1).extractLsb' 6 6 = 0) ∧
    x.isHeld = false := by unfold State.plain TrapFree; decide +kernel
/-- A return into a loop body of two words, with a cascade, into a frozen group, and with a message in the spill buffer. -/
theorem witness_SystemWords_returns :
    let x : Core := { sysCore with sys := { sysCore.sys with trappc := 0x20_0048 } }
    (let y : Core := { x with sys := { x.sys with loopstate := loopWord 1 2 1 1 true } }
     let s := st y
     y.loopActive = true ∧ y.casc = false ∧ y.issue.ending = false ∧ y.issue.spilled = none ∧ y.loopIndex = 1 ∧ y.loopLast = 1 ∧ y.loopDone = 1 ∧
      s.resolve s.cur true 0x20_0040 12 .no false = .ok (place s 0x20_0040 12 .no)) ∧
    (let y : Core := { x.setStatus 1 true with cascade := some ⟨far, 0x101_0000_0040, none, none, 5, none, none⟩ }
     y.casc = true ∧ y.system = true ∧ y.cascade.isSome = true ∧ y.issue.spilled = none) ∧
    (let y : Core := { x with sys := { x.sys with priv := 0x0 ||| 1 } }
     let g := { gangOf 7 [.comp 0] with frozen := true }
     let s := inGang [(0, y)] g
     !y.sys.priv.getLsbD 1 ∧ s.gangOf s.cur = some g ∧ g.frozen = true ∧ y.loopActive = false ∧ y.system = true ∧ y.sys.trapcause.getLsbD 9 = false) ∧
    (let y : Core := { x with issue := { x.issue with spilled := some [3] } }
     let s0 := st y
     let s := s0.writeNum (s0.contextHome (.comp 0) + 0x1_6000) 16 (7 + 1 * 2 ^ 64 + 3 * 2 ^ 80)
     (s.core s.cur).issue.spilled = some [3] ∧ (s.core s.cur).loopActive = false ∧ s.num (s.contextHome s.cur + 0x1_6000 + 10) 1 = 3 ∧
      s.num (s.contextHome s.cur + 0x1_6000 + 11) 1 = 0 ∧ s.num (s.contextHome s.cur + 0x1_6000 + 8) 2 = 1) := by decide +kernel
theorem witness_SystemWords_wfi :
    let g := gangOf 7 [.comp 0, .comp 1]
    let s := inGang [(0, { sysCore with run := .parked }), (1, core)] g
    ((CoreId.comp 0).wf = true ∧ (s.core (.comp 0)).run = .parked ∧ s.gangOf (.comp 0) = some g ∧ g.killed = false) ∧
    (let k := { g with killed := true }
     let t := inGang [(0, { sysCore with run := .parked }), (1, core)] k
     t.gangOf (.comp 0) = some k ∧ CoreId.comp 1 ∈ k.all ∧ coreKey (.comp 1) ≠ coreKey (.comp 0) ∧
     (t.core (.comp 1)).gang = some k.id ∧ (t.core (.comp 1)).run.stops = false) := by decide +kernel
/-- A core whose trap holds its queues, with a command to save and its bank. -/
def holdingQueues : Core :=
  (withHead { sysCore with slice := { sysCore.slice with holders := sysCore.slice.holders.setIfInBounds 0 .program } } 2
    (cmd fillBlock far far far far)).setStatus 3 true
where fillBlock : BitVec 256 := word 2 4 [(4, slot1), (5, 64)]
theorem witness_SystemWords_queues :
    let s := st holdingQueues
    let x := s.core s.cur
    let t := (st (sysCore.setStatus 3 true)).writeNum ((st core).contextHome (.comp 0) + 0x507) 1 1
    (x.system = true ∧ x.isHeld = true ∧ x.enginesQuiet = true ∧ s.wf = true ∧ x.sys.privsz.toNat % 16 = 0 ∧
      ∀ n, n < 6 → (x.eng.queue n).length ≤ queueDepth n) ∧
    (∀ u ∈ [0, 1], let s := if u = 0 then st (sysCore.setStatus 3 true) else t
      let y := s.core s.cur
      y.system = true ∧ y.isHeld = true ∧ (∀ i, i < 32 → y.slice.holders.toList.getD i .free ≠ .system) ∧ y.eng.saved = false ∧
      s.num (s.contextHome s.cur + 0x507) 1 = u) ∧
    (∀ again ∈ [false, true], let y := { holdingQueues with eng := { (if again then holdingQueues.eng else Engines.reset) with saved := true, refilled := again } }
      (y.eng.saved = true → y.eng.refilled = false → y.enginesQuiet = true ∧ ∀ n, n < 6 → y.eng.queue n = [])) := by decide +kernel

/-! ## Event bits, barriers and Weirs -/

theorem witness_MeetingPoints_events :
    let s := st ((core.setReg 1 (Reg.ofWord 127)).setReg 2 (pageAt 0))
    let x := s.core s.cur
    (x.replay = [] ∧ x.released s.cur 3 = true ∧ x.released s.cur 5 = true ∧ x.tw = false ∧ x.acquiring = false ∧ x.ops = []) ∧ (s.plain 1 ∧ (s.gword 1).toNat ≤ 127) ∧
    (TrapFree s s.cur ∧ s.plain 3 ∧ 127 < (Reg.ofWord 128).w0.toNat) ∧
    AccessOk s (s.greg 2) 0 8 8 Reg.permR false false (place s 0x20_0000 8 .no) := by unfold State.plain AccessOk TrapFree; decide +kernel
theorem witness_MeetingPoints_window :
    let g := gangOf 7 [.comp 0]
    let s := inGang [(0, core.setStatus 0 true)] g
    let x := s.core s.cur
    s.unbound 1 ∧ s.unbound 2 ∧ x.tw = true ∧ s.gangOf s.cur = some g ∧ g.frozen = false ∧ g.freezeAt = none ∧ x.blockEnded = true ∧ x.settled = true ∧ x.vq = [] ∧ x.issue.trapWait = none := by
  unfold State.unbound; decide +kernel
/-- On one cycle a set and a clear of one bit, and a set of another that comes late. -/
theorem witness_MeetingPoints_bits :
    let l : List Landing := [⟨some 10, true, 1, some 3⟩, ⟨some 10, false, 3, some 3⟩, ⟨none, true, 4, some 3⟩, ⟨some 12, true, 8, none⟩]
    let s := at10 (st core)
    let t := s.setCluster 0 { s.cluster 0 with landing := l }
    (t.cluster 0).landing = l ∧ (t.die 0).cycle = 10 ∧ (l.filter (fun p => match p.due with | some d => decide (d ≤ 10) | none => true)).length = 3 := by
  decide +kernel
theorem witness_MeetingPoints_arrival :
    (∀ k ∈ [2, 6], let s := st core
      isMemCore s.cur = false ∧ (s.core s.cur).tw = false ∧ (s.core s.cur).replay = [] ∧ (s.core s.cur).released s.cur k = true ∧
      s.gangOf s.cur = none) ∧
    (let g := { gangOf 7 [.comp 0] with record := [8, 0, 0, 0] }
     let s := inGang [(0, core)] g
     s.gangOf s.cur = some g ∧ recRing g.record = true ∧ (s.core s.cur).beatsPlaced = true ∧ (s.core s.cur).released s.cur 6 = true) ∧
    (TrapFree (st core) (st core).cur ∧ TrapFree (stm memCore) (stm memCore).cur ∧ isMemCore (stm memCore).cur = true) := by
  unfold TrapFree; decide +kernel
/-- Cores 0 and 1, which have arrived at their Weir 4 or more cycles ago (at quad scope), or at an earlier tick (at ring scope). -/
def arrived (scope : Nat) : Gang := { gangOf 7 [.comp 0, .comp 1] with sync := [(.comp 0, scope, 0), (.comp 1, scope, 0)] }
def meeting (scope : Nat) : State :=
  let x := { core with issue := { core.issue with wait := .weir .sync scope false } }
  let s := inGang [(0, x), (1, x)] (arrived scope)
  { s with module := { s.module with tick := 1, ringSize := 2, meetings := [(0, 1, 0)] } }
theorem witness_MeetingPoints_release : ∀ scope ∈ [2, 6],
    let g := arrived scope
    let s := meeting scope
    let ps := g.participants scope 0
    s.gang 7 = some g ∧ ps = [.comp 0, .comp 1] ∧ (∀ c ∈ ps, c.wf = true) ∧ (∀ c ∈ ps, (c, scope, 0) ∈ g.sync) ∧
    (if scope = 6 then tickPast s.module.tick 0 = true else 0 + weirLatency scope ≤ (s.die g.die).cycle) ∧
    (∀ m ∈ ringParts s.module.ringSize g.record, m = s.module.number ∨
      s.module.meetings.find? (fun v => v.1 = recRingNumber g.record ∧ v.2.1 = m) = some (recRingNumber g.record, m, 0)) ∧
    (scope = 6 ∨ weirLatency scope ≤ (s.die g.die).cycle) ∧
    (∀ c ∈ ps, (s.core c).issue.wait = .weir .sync scope false ∧ (s.core c).issue.loopCopy = none) := by decide +kernel
theorem witness_MeetingPoints_translators :
    let s := at10 (st { sysCore with issue := { core.issue with wait := .translators true false [5] } })
    let c : CoreId := .comp 0
    let w : Weir := ⟨.invalidate, 4, 0⟩
    c.wf = true ∧ w.unit = coreKey c ∧ (s.core c).issue.wait = .translators true false [5] ∧ (s.core c).issue.readyAt ≤ s.now c ∧
    (∀ p ∈ s.cores, p.2.translated = []) ∧ (s.core c).issue.loopCopy = none := by decide +kernel

/-! ## Timed windows -/

theorem witness_TimedWindows_words :
    (TrapFree (st sysCore) (st sysCore).cur ∧ sysCore.system = true ∧ (st core).cur = .comp 0 ∧ (st core).unbound 1) ∧
    (let g := gangOf 7 [.comp 0, .comp 1]
     let s := inGang [(0, core), (1, core)] g
     core.system = false ∧ core.tw = false ∧ s.gangOf (.comp 0) = some g ∧ recTimed g.record = true ∧ windowReady s 0 = true) ∧
    (let s := at10 (st (core.setStatus 0 true))
     (s.core (.comp 0)).tw = true ∧ (s.core (.comp 0)).posts = [] ∧ timedDone s 0 = true) ∧
    (let g := gangOf 7 [.comp 0, .comp 1]
     let s := inGang [(0, (core.setStatus 0 true).setReg 1 (Reg.ofWord 5)), (1, core)] g
     (s.core (.comp 0)).tw = true ∧ s.gangOf (.comp 0) = some g ∧ g.inRectangle (128 * (0 / 128) + 1) = true ∧ s.plain 1 ∧ s.unbound 2 ∧
     (s.core (.comp 0)).posts = []) := by unfold TrapFree State.plain State.unbound; decide +kernel
theorem witness_TimedWindows_opening :
    let g := { gangOf 7 [.comp 0, .comp 1] with opens := [(.comp 0, 1), (.comp 1, 4)] }
    let x := { core with issue := { core.issue with wait := .weir .windowOpen 2 false } }
    let s := inGang [(0, x), (1, x)] g
    s.gang 7 = some g ∧ g.compute = [0, 1] ∧ (∀ m ∈ g.compute, m < 2048) ∧
    ((CoreId.comp 0, 1) ∈ g.opens ∧ (CoreId.comp 1, 4) ∈ g.opens) ∧ (∀ p ∈ g.opens, p.2 + weirLatency (windowScope g) ≤ (s.die g.die).cycle) ∧
    s.changeDue g.die = false ∧
    (∀ m ∈ g.compute, (s.core (.comp m)).issue.wait = .weir .windowOpen 2 false ∧ (s.core (.comp m)).issue.loopCopy = none) := by
  decide +kernel
/-- A flit from core 1 for channel 3 of core 0, due now; and what core 0 has posted. -/
def flit : Flit := ⟨0, 1, 0, 3, 9, 10, false⟩
def receiving (p : List Post) : State := { at10 (st { core.setStatus 0 true with posts := p }) with flits := [flit] }
theorem witness_TimedWindows_arrival :
    let p : Post := ⟨1, 3, 1, 31, 2⟩
    let s := receiving [p]
    (s.flits = [] ++ flit :: [] ∧ flit.target = 0 ∧ flit.channel = 3 ∧ flitDue s flit = true) ∧
    ((s.core (.comp 0)).posts = [] ++ p :: [] ∧ p.channel = 3 ∧ p.src = flit.src % 128 ∧ p.made < (s.gcyc (.comp 0)).toNat ∧ p.dst < 32) ∧
    (s.core (.comp 0)).viewOf p.dst = none ∧ ((receiving []).core (.comp 0)).posts = [] := by decide +kernel

end Sys2Proof.Tests
end

