-- ==== Sys2Proof/Tests/Witness6.lean ====
section
/-! SUPPORT. For each statement with hypotheses, states and operands that meet them: messages and tables, traps that no word raises. -/

set_option Elab.async false

namespace Sys2Proof.Tests
open Sys2Proof Sys2Proof.Machine

/-! ## Messages and tables -/

theorem witness_MessagesAndTables_messages :
    let g := gangOf 7 [.comp 0, .comp 1]
    let s := inGang [(0, ((core.setReg 1 (Reg.ofWord 1)).setReg 2 (Reg.ofWord 0x1000))), (1, core)] g
    let full : Core := { core with channels := List.replicate 4 ⟨3, 0, 0⟩ }
    let t := inGang [(0, core.setReg 1 (Reg.ofWord 1)), (1, full)] g
    (s.plain 0 ∧ s.plain 1 ∧ s.plain 2 ∧ (s.core s.cur).ungated ∧ (s.core s.cur).paired = false) ∧
    ((CoreId.comp 1).wf = true ∧ (s.core s.cur).tw = false ∧ CoreId.comp 1 ≠ s.cur ∧ s.cur.wf = true ∧ (s.gword 1).toNat = 1) ∧
    ((s.core (.comp 1)).takes 3 (s.core s.cur).context = true ∧ (t.core (.comp 1)).takes 3 (t.core t.cur).context = false ∧
      (t.core t.cur).outbox = none ∧ TrapFree t t.cur ∧ TrapFree s s.cur ∧ 2 ^ 12 ≤ (s.gword 2).toNat ∧
      (0x880 / 2 ^ 11 = 1 ∧ 0x880 / 2 ^ 7 % 2 ^ 4 ≠ 0)) ∧
    (let u := inGang [(0, core.setStatus 0 true), (1, core)] g
     u.unbound 1 ∧ (u.core u.cur).tw = true ∧ u.gangOf u.cur = some g ∧ g.frozen = false ∧ (u.core u.cur).blockEnded = true ∧
      (u.core u.cur).issue.trapWait = none) ∧
    (let u := inGang [(0, full), (1, core)] g
     u.unbound 5 ∧ (u.core u.cur).channels = [] ++ ⟨3, 0, 0⟩ :: List.replicate 3 ⟨3, 0, 0⟩ ∧ (s.core s.cur).channels = []) := by
  unfold State.plain State.unbound TrapFree Core.ungated; decide +kernel
theorem witness_MessagesAndTables_loads : ∀ n ∈ ([128, 1088] : List Nat),
    let s := st (core.setReg 1 (pageAt 0))
    let A := s.greg 1
    s.plain 1 ∧ s.unbound 5 ∧ (s.core s.cur).tw = false ∧ A.tag = true ∧ A.permR = true ∧ A.base ≤ A.cursor ∧ (A.cursor : Int) + n ≤ A.top ∧
    A.owner = coreIndex s.cur ∧ s.resolve s.cur (s.core s.cur).system A.cursor n .no false = .ok (place s A.cursor n .no) ∧
    A.cursor % 64 = 0 ∧ (s.core s.cur).ops = [] ∧ (s.core s.cur).replay = [] ∧ (s.core s.cur).vq = [] := by
  unfold State.plain State.unbound; decide +kernel
/-- Tables: the empty one is sound; one whose entry has low bits is not. -/
theorem witness_MessagesAndTables_tables :
    let s := st core
    let entry (s : State) (i : Nat) : BitVec 32 := BitVec.ofNat 32 (s.num (sliceHome 0 0 + 4 * i) 4)
    let ok (e : BitVec 32) : Bool := e.extractLsb' 23 8 == 0 || e.extractLsb' 23 8 == 255 || e.extractLsb' 0 13 == 0
    s.num (sliceHome 0 1024) 64 = 0 ∧ (∀ i, i < 256 → ok (entry s i) = true) ∧
    ok (entry (s.writeNum (sliceHome 0 0) 4 0x0080_0001) 0) = false := by decide +kernel
theorem witness_MessagesAndTables_deposits :
    let s (r : List Byte) : State := (st core).setDie 0 { (st core).die 0 with deposits := [⟨3, some (.comp 0), 0, false, r⟩] }
    let u := (st core).setDie 0 { (st core).die 0 with
      cycle := 5, arrived := [(4, ⟨3, some (.comp 0), 0, false, recordWith 0 0⟩), (4, ⟨2, none, 0, false, recordWith 0 0⟩)] }
    ((s (recordWith 0 0)).die 0).deposits = [⟨3, some (.comp 0), 0, false, recordWith 0 0⟩] ∧ ((s (recordWith 0 0)).die 0).arrived = [] ∧
    ((u.die 0).arrived = [(4, ⟨3, some (.comp 0), 0, false, recordWith 0 0⟩), (4, ⟨2, none, 0, false, recordWith 0 0⟩)] ∧ 4 < (u.die 0).cycle ∧
      (u.die 0).taken ≠ some (u.die 0).cycle ∧ depositRank none < depositRank (some (.comp 0))) ∧ recordOk (recordWith 0 0) = true ∧
    recordOk (recordWith 32 0) = false ∧ recCtx (recordWith 0 0) = 0 ∧
    ((s []).queue 0 (recQueue (recordWith 0 0))).records.length < 32 := by decide +kernel
theorem witness_MessagesAndTables_full :
    let d : Die := { Die.reset with bootStep := 8, cycle := 5, arrived := [(4, ⟨3, none, 0, false, recordWith 0 0⟩)] }
    let q : TaskQueue := { d.queues[0] with records := List.replicate 32 ⟨1, recordWith 0 0, none, 0, false, none, false⟩ }
    let s := (st core).setDie 0 { d with queues := d.queues.setIfInBounds 0 q }
    (s.die 0).arrived = [(4, ⟨3, none, 0, false, recordWith 0 0⟩)] ∧ 4 < (s.die 0).cycle ∧ (s.die 0).taken ≠ some (s.die 0).cycle ∧ 32 ≤ (s.queue 0 (recQueue (recordWith 0 0))).records.length := by decide +kernel
/-- R61, R182, R294: a `launch` into a register bound to writing moves the cursor on and takes the place of its append, in the order of
the program. -/
theorem test_launch_append_takes_its_place :
    (match exec (.launch false 24 2) (st ((bound core true 4).setReg 2 (pageAt 0x1000))) with
     | .next t => let x := t.core (.comp 0)
       decide (x.ops.map (fun o => (o.isAppend, o.home, o.size)) = [(true, sliceHome 0 0x10, 8)] ∧ (x.gen[0]).cursor = 0x20_0018)
     | _ => false) = true := by decide +kernel
/-- R173: while that append waits, `sunbind` only lets a cycle pass. -/
theorem test_sunbind_waits_for_an_append :
    (match exec (.sunbind false 24 0) (st { bound core true 4 with ops := [⟨1, .deposit, sliceHome 0 0x10, 8, 0, some 24, true, none, none⟩] }) with
     | .next t => let x := t.core (.comp 0)
       decide (x.streamByte 0 / 128 = 1 ∧ x.pc = 0x20_0000 ∧ x.issue.readyAt = 1)
     | _ => false) = true := by decide +kernel

/-! ## Traps that no word raises -/

def faulty (f : PendingFault) : State := st { core with issue := { core.issue with faults := [f] } }
theorem witness_TrapsBetweenWords_boundaries :
    let f : PendingFault := ⟨0x06, 0x40, some 3, 1, true, 0⟩
    let s := faulty f
    ((CoreId.comp 0).wf = true ∧ (s.core (.comp 0)).run = .running ∧ (s.core (.comp 0)).issue.readyAt ≤ s.now (.comp 0) ∧
      (s.core (.comp 0)).issue.wait = .none ∧ TrapFree s (.comp 0) ∧ reported (s.core (.comp 0)).issue.faults = some f ∧ f.code ≠ 0x10 ∧
      f.code ≠ 0x0F) ∧
    (let w : TrapInfo := ⟨0x05, 0, 0, 0, false, false, 0x20_0000, false⟩
     let t := at10 (st { core with issue := { core.issue with trapWait := some w } })
     let x := t.core (.comp 0)
     x.issue.trapWait = some w ∧ w.code ≠ 0x10 ∧ w.code ≠ 0x0F ∧ w.fatal = false ∧ w.leaves = false ∧ x.tw = false ∧
      x.issue.readyAt ≤ t.now (.comp 0) ∧ x.settled = true ∧ x.vq = [] ∧ x.blockEnded = true ∧ x.replay = []) ∧
    (let w : TrapInfo := ⟨0x05, 0, 0, 0, false, false, 0x20_0000, false⟩
     let g := gangOf 7 [.comp 0]
     let t := inGang [(0, { core.setStatus 0 true with issue := { core.issue with trapWait := some w } })] g
     let x := t.core (.comp 0)
     x.issue.trapWait = some w ∧ w.fatal = false ∧ x.tw = true ∧ t.gangOf (.comp 0) = some g ∧ g.frozen = false ∧ g.freezeAt = none ∧
      x.settled = true ∧ x.vq = []) ∧
    (let t := st { core with issue := { core.issue with stepDue := true } }
     TrapFree t (.comp 0) ∧ (t.core (.comp 0)).system = false ∧ (t.core (.comp 0)).issue.stepDue = true ∧
      (∀ f ∈ (t.core (.comp 0)).issue.faults, f.fatal = false) ∧ (t.core (.comp 0)).paired = false) := by
  unfold TrapFree; decide +kernel
theorem witness_TrapsBetweenWords_preemption : ∀ sys ∈ [false, true],
    let s := inGang [(0, if sys then sysCore else core)] (gangOf 7 [.comp 0])
    let x := s.core (.comp 0)
    x.gang.isSome = true ∧ x.run = .running ∧ x.system = sys ∧ x.issue.preempt = none ∧ x.issue.trapWait = none ∧ x.paired = false ∧
    x.issue.stepDue = false ∧ x.issue.faults = [] ∧ TrapFree s (.comp 0) ∧ s.isFrozen (.comp 0) = false ∧ x.issue.wait = .none ∧
    x.issue.readyAt ≤ s.now (.comp 0) ∧ x.issue.ending = false ∧ x.tw = false ∧
    (let y := { core.setStatus 0 true with run := .retiring }
     let t := inGang [(0, core.setStatus 0 true)] (gangOf 7 [.comp 0])
     y.run = .retiring ∧ (t.core (.comp 0)).tw = true ∧ t.gangOf (.comp 0) = some (gangOf 7 [.comp 0])) := by
  unfold TrapFree; decide +kernel
/-- A PREEMPT that waits for its boundary, with two messages of two channels to spill; and a core that has retired in a gang that has not. -/
theorem witness_TrapsBetweenWords_spilling :
    let w : TrapInfo := ⟨0x10, 0, 0, 10, false, false, 0x20_0000, false⟩
    let x : Core := { core with channels := [⟨4, 1, 5⟩, ⟨3, 2, 6⟩], issue := { core.issue with trapWait := some w } }
    let s := inGang [(0, x)] (gangOf 7 [.comp 0])
    (s.wf = true ∧ x.issue.trapWait = some w ∧ w.code = 0x10 ∧ w.fatal = false ∧ w.leaves = false ∧ x.tw = false ∧ x.system = false ∧ x.paired = false ∧
      x.issue.readyAt ≤ s.now (.comp 0) ∧ x.settled = true ∧ x.vq = [] ∧ x.blockEnded = true ∧ x.replay = []) ∧
    ((List.range 16).flatMap (fun n => x.channels.filter (fun m => m.channel = n)) = [⟨3, 2, 6⟩, ⟨4, 1, 5⟩] ∧ x.posts = [] ∧ x.cascade = none ∧
      s.flits = []) ∧
    (let g := { gangOf 7 [.comp 0] with retired := [.comp 0] }
     let t := inGang [(0, { core with run := .stopped })] g
     (t.core (.comp 0)).run = .stopped ∧ t.gangOf (.comp 0) = some g ∧ g.killed = false ∧ CoreId.comp 0 ∈ g.retired) := by decide +kernel
theorem witness_TrapsBetweenWords_taking :
    let s := inGang [(0, { core with issue := { core.issue with preempt := some 10 } })] (gangOf 7 [.comp 0])
    let x := s.core (.comp 0)
    x.issue.preempt = some 10 ∧ x.run = .running ∧ x.system = false ∧ x.issue.stepDue = false ∧ x.issue.faults = [] ∧ x.paired = false ∧
    s.gangOf (.comp 0) = some (gangOf 7 [.comp 0]) ∧ (gangOf 7 [.comp 0]).freezeAt = none ∧ TrapFree s (.comp 0) := by
  unfold TrapFree; decide +kernel
theorem witness_TrapsBetweenWords_freeze :
    let g := { gangOf 7 [.comp 0, .comp 1, .comp 2] with freezeAt := some 10 }
    let w : TrapInfo := ⟨0x05, 0, 0, 0, false, false, 0x20_0000, false⟩
    let s := inGang [(0, core), (1, sysCore), (2, { core with issue := { core.issue with trapWait := some w } })] g
    (s.gang 7 = some g ∧ g.freezeAt = some 10 ∧ 10 ≤ (s.die g.die).cycle ∧ g.frozen = false ∧ (∀ m ∈ g.compute, m < 2048) ∧ g.compute.Nodup) ∧
    g.running = [0, 1, 2] ∧ ((s.core (.comp 0)).issue.trapWait = none ∧ (s.core (.comp 0)).system = false) ∧
    (s.core (.comp 2)).issue.trapWait = some w ∧ ((s.core (.comp 1)).issue.trapWait = none ∧ (s.core (.comp 1)).system = true) := by
  decide +kernel
theorem witness_TrapsBetweenWords_release :
    let g := { gangOf 7 [.comp 0, .comp 1] with frozen := true, freezeAt := some 2, returned := [.comp 0, .comp 1] }
    let x := { core.setStatus 0 true with sys := { (core.setStatus 0 true).sys with gcycHeld := some 5 }, issue := { core.issue with wait := .release, readyAt := 3 } }
    let s := inGang [(0, x), (1, x)] g
    s.gang 7 = some g ∧ g.frozen = true ∧ (∀ m ∈ g.compute, m < 2048) ∧ g.compute.Nodup ∧ g.running = [0, 1] ∧
    (∀ m ∈ g.running, g.returned.contains (.comp m) = true ∧ (s.core (.comp m)).issue.wait = .release ∧
      (s.core (.comp m)).issue.readyAt - 1 + weirLatency (windowScope g) ≤ (s.die g.die).cycle) ∧
    weirLatency (windowScope g) ≤ (s.die g.die).cycle ∧ (s.core (.comp 0)).sys.gcycHeld = some 5 := by decide +kernel
/-- A checked pair whose lower core has a store to another slice with no twin. -/
theorem witness_TrapsBetweenWords_pairs :
    let o : MemOp := ⟨1, .store, sliceHome 5 0, 8, 0, none, false, some 0, none⟩
    let s0 := st core
    let x (p : Nat) : Core := { core with sys := { (core.setStatus 4 true).sys with pair := BitVec.ofNat 64 (p + 2 ^ 63) } }
    let s := { s0.setDie 0 { s0.die 0 with cycle := 1024 } with cores := [(0, { x 1 with ops := [o] }), (1, x 0)] }
    s.partner 0 = some 1 ∧ pairAddress s 0 1 = some (homeAddress (sliceHome 5 0)) ∧ toldFatal s (.comp 0) = false ∧
    (s.core (.comp 0)).issue.faults = [] := by decide +kernel
theorem witness_TrapsBetweenWords_kill :
    let r : KillReport := ⟨0x313, 0, 0, .comp 0⟩
    let g := { gangOf 7 [.comp 0, .comp 1] with fatalAt := [(.comp 0, 5)], trap := some r }
    let s := inGang [(0, { sysCore with run := .parked }), (1, core)] g
    s.gang 7 = some g ∧ (.comp 0, 5) ∈ g.fatalAt ∧ g.queue < 16 ∧ g.trap = some r ∧ g.killed = false ∧ (s.core (.comp 0)).run = .parked ∧
    (r.cause.extractLsb' 0 8).toNat ≠ 0x14 ∧ recRing g.record = false ∧ (s.queue g.die (recQueue g.record)).qcomp = 0 ∧ g.die < 16 ∧
    (CoreId.comp 1 ∈ g.all ∧ (CoreId.comp 1).wf = true ∧ (s.core (.comp 1)).gang = some 7) := by decide +kernel

end Sys2Proof.Tests
end

