-- ==== Sys2Proof/Tests/Witness7.lean ====
section
/-! SUPPORT. For each statement with hypotheses, states and operands that meet them: gangs, records, the host. -/

set_option Elab.async false

namespace Sys2Proof.Tests
open Sys2Proof Sys2Proof.Machine

/-! ## Gangs -/

theorem witness_GangsRun_watchdog :
    let limited (g : Gang) : State :=
      let s := inGang [(0, core), (1, core)] g
      let d := { s.die 0 with cycle := 2000 }
      s.setDie 0 { d with queues := d.queues.setIfInBounds 0 { d.queues[0] with qlim := (1, 1, 1) } }
    let g := gangOf 7 [.comp 0, .comp 1]
    (let s := limited g
     s.gang 7 = some g ∧ g.die < 16 ∧ g.stage = 1 ∧ (s.queue g.die g.queue).qlim.1 ≠ 0 ∧
      g.stageStart + 1024 * (s.queue g.die g.queue).qlim.1 ≤ (s.die g.die).cycle ∧ g.all.Nodup ∧ (∀ c ∈ g.all, c.wf = true) ∧ g.queue < 16 ∧
      CoreId.comp 1 ∈ g.all ∧ (CoreId.comp 1).wf = true ∧ (s.core (.comp 1)).gang = some 7) ∧
    (∀ n ∈ [2, 3], let h := { g with stage := n, killed := decide (n = 3) }
     let s := limited h
     s.gang 7 = some h ∧ h.stage = n ∧ (s.queue h.die h.queue).qlim.1 ≠ 0 ∧ (s.queue h.die h.queue).qlim.2.1 ≠ 0 ∧ (s.queue h.die h.queue).qlim.2.2 ≠ 0 ∧
      h.stageStart + 1024 * (s.queue h.die h.queue).qlim.2.2 ≤ (s.die h.die).cycle ∧ h.expired = false ∧ (h.killed = false ∨ n = 3) ∧
      (s.queue h.die (recQueue h.record)).qcomp = 0) := by decide +kernel
theorem witness_GangsRun_ends :
    (let g := { gangOf 7 [.comp 0] with retired := [.comp 0] }
     let s := inGang [(0, { core with run := .stopped })] g
     s.gang 7 = some g ∧ g.started = true ∧ g.killed = false ∧ g.queue < 16 ∧ (∀ c ∈ g.all, c ∈ g.retired ∧ (s.core c).vq = [] ∧ (s.core c).ops = []) ∧
      recSink g.record = false) ∧
    (let g := gangOf 7 [.comp 0]
     let x := { sysCore with run := .parked, issue := { sysCore.issue with preempted := true } }
     let s := inGang [(0, x)] g
     s.resumable g = true ∧ (s.die g.die).launched ≠ some ((s.die g.die).cycle, g.queue / 4) ∧ CoreId.comp 0 ∉ g.retired ∧
      s.gangOf (.comp 0) = some g) := by decide +kernel
/-- A ring record of ring 5: modules 0 alone, deadline 100, start 102. -/
def ringRecord : List Byte := (recordWith 8 0).take 116 ++ [5, 0, 0, 1, 100, 0, 0, 0, 102, 0, 0, 0]
def ringGang (g : Gang) : Gang := { g with record := ringRecord, started := false }
def atTick (s : State) (t : Nat) : State := { s with module := { s.module with tick := t } }
theorem witness_GangsRun_ring :
    let g := ringGang (gangOf 7 [.comp 0])
    let past (t d : Nat) : Prop := 1 ≤ (t + 2 ^ 32 - d % 2 ^ 32) % 2 ^ 32 ∧ (t + 2 ^ 32 - d % 2 ^ 32) % 2 ^ 32 < 2 ^ 31
    (∀ t ∈ [100, 101], let s := atTick { st core with gangs := [g] } t
     s.gang 7 = some g ∧ recRing g.record = true ∧ g.started = false ∧ g.killed = false ∧ g.committed = false ∧
      (s.module.tick % 2 ^ 32 = recDeadline g.record ∨ past s.module.tick (recDeadline g.record)) ∧
      ringParts s.module.ringSize g.record = [0] ∧ s.module.reservations = [] ∧ mapGet s.module.ringCounted 5 = none ∧ (s.queue g.die (recQueue g.record)).qcomp = 0) ∧
    past (recDeadline g.record + 2 ^ 32 - 1) 98 ∧
    (let h := { g with committed := true }
     let s := atTick { st core with gangs := [h] } 102
     s.gang 7 = some h ∧ (s.die h.die).launched = none ∧ s.levelOpen h.die (h.queue / 4) = true ∧ h.committed = true ∧ h.started = false ∧ h.killed = false ∧ s.module.tick % 2 ^ 32 = recStart h.record ∧
      (∀ c ∈ h.all, (s.core c).gang = none ∧ s.isFenced c = false)) ∧
    (let h := { g with committed := true, started := true, killed := true }
     recRing h.record = true ∧ h.aborted = false ∧ h.failedAt = none ∧ h.killed = true) ∧
    (let h := { g with committed := true, started := true }
     let f : Nat × Nat × Nat := (5, 1, 200)
     let s := atTick (inGang [(0, core)] h) 202
     f.1 = recRingNumber h.record ∧ f.2.1 ≠ s.module.number ∧ past s.module.tick (f.2.2 + 1) ∧
      past f.2.2 (recDeadline h.record + 2 ^ 32 - 1) ∧ h.aborted = false ∧ h.killed = false ∧
      h.failedAt = none ∧ h.all.Nodup ∧ (∀ c ∈ h.all, c.wf = true) ∧ CoreId.comp 0 ∉ h.retired) := by decide +kernel
/-- Die 0 with a record at the head of queue 0, ready for so long; every core of the die free. -/
def queued (r : List Byte) (age : Nat) : State :=
  let d : Die := { Die.reset with bootStep := 8 }
  { State.reset with
    released := [(0, 0x20_0000)]
    dies := [(0, { d with queues := d.queues.setIfInBounds 0 { d.queues[0] with records := [⟨1, r, none, age, false, none, false⟩] } })] }
theorem witness_RecordsLaunch :
    let r : Record := ⟨1, recordWith 0 0, none, 0, false, none, false⟩
    let s := queued r.bytes 0
    s.launchChoice 0 = some ((0, r), [(0, [.comp 0])]) ∧ (([(0, [CoreId.comp 0])] : List (Nat × List CoreId)).flatMap (fun m => m.2)).Nodup ∧
    (CoreId.comp 0).wf = true ∧ s.gangs = [] ∧ (s.core (.comp 0)).run = .free ∧
    (let t : State := { s with cores := [(0, { core with run := .parked })] }
     t.launchChoice 0 = some ((0, r), [(0, [.comp 0])]) ∧ (t.core (.comp 0)).run = .parked) := by decide +kernel
theorem witness_RecordsLaunch_waiting :
    (queued (recordWith 0 0) 65536).readyHead 0 0 = some (0, ⟨1, recordWith 0 0, none, 65536, false, none, false⟩) ∧
    (∀ t ∈ [100, 101], let r : Record := ⟨1, ringRecord, none, 0, false, none, false⟩
     let s := atTick (queued ringRecord 0) t
     let x := (s.module.tick + 2 ^ 32 - recDeadline r.bytes % 2 ^ 32) % 2 ^ 32
     s.readyHead 0 0 = some (0, r) ∧ recRing r.bytes = true ∧ r.gang = none ∧ r.hold = none ∧ s.unblocked 0 (0, r) = true ∧
      s.placement 0 r.bytes = some [(0, [.comp 0])] ∧ (if t = 100 then ¬ (1 ≤ x ∧ x < 2 ^ 31) else 1 ≤ x ∧ x < 2 ^ 31) ∧
      (s.queue 0 (recQueue r.bytes)).qcomp = 0 ∧ recQueue r.bytes = 0 ∧
      (let d := s.die 0
       let u := s.setDie 0 { d with queues := d.queues.setIfInBounds 0 { d.queues[0] with qcomp := 0x1000 } }
       u.readyHead 0 0 = some (0, r) ∧ u.unblocked 0 (0, r) = true ∧ u.placement 0 r.bytes = some [(0, [.comp 0])] ∧ u.wf = true ∧
       (u.queue 0 0).qcomp ≠ 0 ∧ u.mappable (0x1000 + 64 * ((u.queue 0 0).qcnt.toNat % 64)) 64 = true)) := by decide +kernel

/-! ## The host -/

theorem witness_HostActs_services :
    let s := st core
    let m := s.module
    (s.wf = true ∧ s.hostBusy 0 = false ∧ (s.die 0).bootStep = 8 ∧ m.thermalHold = false ∧ (State.reset.die 0).bootStep ≠ 8) ∧
    (physRange 0x1000 4096 = true ∧ physRange 0x4_0000_0000_0000 4096 = false ∧ (s.gangs.map (fun g => g.id)).Nodup) ∧
    (8 ≤ 4096 ∧ 4096 % 8 = 0 ∧ (0x4_0000_0000_0000 + 0x1_2000_0000 - 4096) % 8 = 0 ∧
      0x4_0000_0000_0000 + 0x1_2000_0000 - 4096 + 4096 ≤ 0x4_0000_0000_0000 + 0x1_2000_0000 ∧ ¬ 4104 ≤ 4096) ∧
    (recordOk (recordWith 0 0) = true ∧ recordOk (recordWith 32 0) = false ∧ (s.queue 0 (recQueue (recordWith 0 0))).records.length < 32) ∧
    ((CoreId.comp 0).wf = true ∧ dieOf (.comp 0) = 0) ∧
    (let e : StreamRequest := ⟨true, 65535, 0, 0, 0, 1, 0, true, 1, 4, 109⟩
     e.isOpen = true ∧ streamOk s e = true ∧ streamOk s { e with share := 0 } = false ∧
      (let b : Stream := ⟨e, [], [], [], 0, 4, 0⟩
       let t := { s with streams := [(65535, b)] }
       mapGet t.streams { e with isOpen := false }.number = some b ∧ streamBusy t b = false)) ∧
    (let e : RingEntry := (mapGet (s.core (.comp 0)).eng.ring ((5 : BitVec 32).toNat % 64)).getD ⟨0, 0, 7, 0⟩
     e.status < 8 ∧ e.origin < 4) ∧
    ((1 : BitVec 16) ≠ 0 ∧ m.inletHot = false) := by decide +kernel
theorem witness_HostActs_full :
    let d : Die := { Die.reset with bootStep := 8 }
    let q : TaskQueue := { d.queues[0] with records := List.replicate 32 ⟨1, recordWith 0 0, none, 0, false, none, false⟩ }
    let s := (st core).setDie 0 { d with queues := d.queues.setIfInBounds 0 q }
    s.wf = true ∧ (s.die 0).bootStep = 8 ∧ 32 ≤ (s.queue 0 (recQueue (recordWith 0 0))).records.length := by decide +kernel
/-- Die 0 with an MREAD of which 8 bytes are left, and with an MWRITE of 16. -/
theorem witness_HostActs_transactions : ∀ u ∈ ([⟨0, .mread 0x1000 16, List.replicate 8 1, 0⟩, ⟨0, .mwrite 0x1000 (List.replicate 16 2), List.replicate 16 2, 0⟩] :
    List Transaction),
    let s0 := st core
    let s := { s0 with module := { s0.module with torhar := [⟨1, .clock 1 1, [], 5⟩, u] } }
    s.module.torhar = [⟨1, .clock 1 1, [], 5⟩] ++ u :: [] ∧ u.die = 0 ∧ 0 ∈ u.dies ∧ (∀ e ∈ u.dies, e ∉ (⟨1, .clock 1 1, [], 5⟩ : Transaction).dies) ∧
    s.module.clockReplies = [] ∧ (s.die 0).arrived = [] ∧ s.recovers 0x1008 8 = false ∧ s.recovers 0x1000 8 = false ∧ s.hostBusy 0 = true := by decide +kernel
/-- A module whose core 0 keeps its weights at 1 MiB of its slice, with a clean copy of that page in LPDDR. -/
def cleaned : State :=
  let s := st { core with sys := { core.sys with privsz := 0x10_0000, xbase := 0x10_0000, xlimit := 0x18_0000 } }
  { s with module := { s.module with clean := [⟨sliceHome 0 0x10_0000, 4096, 0x1000⟩], recovering := [sliceHome 0 0x10_0000 / 4096] } }
theorem witness_HostActs_events :
    let h := sliceHome 0 0x10_0000
    (cleaned.wf = true ∧ (CoreId.comp 0).wf = true ∧ cleaned.isClean h = true ∧ timedReads (cleaned.core (.comp 0)) (.comp 0) h = false) ∧
    (st core).isClean h = false ∧ ¬ (Config.basinHome ≤ h) ∧ lpddrEnd ≤ h ∧
    ((h / 4096) ∈ cleaned.module.recovering ∧ cleaned.cleanCopy (h / 4096) = some ⟨h, 4096, 0x1000⟩) ∧
    (∀ p ∈ ([some 3, none] : List (Option Nat)), let s0 := (st core).setDie 0 { (st core).die 0 with change := [p, some 1] }
     let s := { s0 with module := { s0.module with clockReplies := [(1, 5, [1]), (2, 6, [0, 3]), (0, 7, [0])] } }
     (s.die 0).change = p :: [some 1] ∧ s.dieInWindow 0 = false ∧ (s.die 0).closed ≠ some (s.die 0).cycle ∧
      s.module.clockReplies = [(1, 5, [1])] ++ (2, 6, [0, 3]) :: [(0, 7, [0])] ∧ (∀ r ∈ ([(1, 5, [1])] : List (Nat × BitVec 16 × List Nat)), 0 ∉ r.2.2) ∧
      (∀ r ∈ ([(1, 5, [1])] ++ [(0, 7, [0])] : List (Nat × BitVec 16 × List Nat)), r.2.2 ≠ [])) ∧
    (∀ n ∈ ([94, 104] : List Nat), n < 105) ∧ (105 ∈ ([94, 105] : List Nat)) := by decide +kernel
/-- A page table at 0x10000 of LPDDR that maps block 1, which is clean and recovers to frame 5. -/
theorem witness_HostActs_frames :
    let t (a e : Nat) (s : State) : State := s.writeNum a 8 e
    let s := t 0x10008 0x11001 (t 0x11000 0x12001 (t 0x12000 0x13001 (t 0x13000 0x14001 (t 0x14000 0x1187 (st core)))))
    let s := s.setDie 0 { s.die 0 with roots := [(0, 0x10001)] }
    let s := { s with module := { s.module with clean := [⟨0x1000, 4096, 0x8000⟩], recovering := [1], frames := [(1, 5)] } }
    s.wf = true ∧ 0x1000 / 4096 ∈ s.module.recovering ∧ s.cleanCopy 1 = some ⟨0x1000, 4096, 0x8000⟩ ∧ 0x1000 < lpddrEnd ∧
    chosenFrame s 1 = 5 ∧ newFrame s 1 5 = (5, [0x14000]) ∧ 0x14000 % 8 = 0 ∧ 0x14000 / 4096 ≠ 5 ∧ (newFrame (st core) 1 5).2 = [] := by decide +kernel
theorem witness_HostActs_boot :
    let f := Firmware.reset
    (f.readable = true ∧ f.ed25519 = true ∧ f.mldsa = true ∧ f.rollback ≤ f.version ∧ f.systemOk = true ∧ f.systemCode = []) ∧
    ({ f with readable := false } : Firmware).readable = false ∧ ({ f with mldsa := false } : Firmware).mldsa = false ∧
    (let s0 := st core
     let s := { s0 with module := { s0.module with firmwares := [(3, { f with systemCode := [1, 2], rollback := 0 }), (4, { f with systemOk := false })] } }
     dieOf (.mem 24) = 3 ∧ CoreId.wf (.mem 24) = true ∧ ((mapGet s.module.firmwares 3).getD s.module.firmware).systemCode.length = 2 ∧
      ∀ e, e < 16 → 0x20_0000 ≤ ((mapGet s.module.firmwares e).getD s.module.firmware).trapvec.toNat ∧
        ((mapGet s.module.firmwares e).getD s.module.firmware).trapvec.toNat +
          ((mapGet s.module.firmwares e).getD s.module.firmware).systemCode.length ≤ 0x24_0000) := by decide +kernel

end Sys2Proof.Tests
end

/-! Proofs for the scalar instructions of section 4: upper immediates, jumps and calls, cursor moves (R84, R88, R94). -/

namespace Sys2Proof.Proofs
open Sys2Proof Sys2Proof.Machine Sys2Proof.Laws

/-! ## Words written out field by field (R25, R34) -/

/-- The number that two fields standing side by side make. -/
theorem toNat_append_eq_place_add {m n : Nat} (x : BitVec m) (y : BitVec n) : (x ++ y).toNat = place x n + y.toNat := by
  rw [BitVec.toNat_append, ← Nat.shiftLeft_add_eq_or_of_lt y.isLt, Nat.shiftLeft_eq, place]

theorem place_zero {n : Nat} (x : BitVec n) : place x 0 = x.toNat := by rw [place, pow_zero, mul_one]

/-- A word is its settle marker, its opcode and its bits [23:0] side by side (R25). -/
theorem wordOf_eq_append (S : Bool) (op : BitVec 7) (f : BitVec 24) {bits : Nat} (h : bits = f.toNat) :
    wordOf S op.toNat bits = BitVec.ofBool S ++ (op ++ f) := by
  apply BitVec.eq_of_toNat_eq
  have hword := (BitVec.ofBool S ++ (op ++ f)).isLt
  rw [toNat_append_eq_place_add, toNat_append_eq_place_add] at hword ⊢
  simp only [place, BitVec.toNat_ofBool] at hword ⊢
  rw [wordOf, BitVec.toNat_ofNat, h]
  omega

/-- Bits [23:0] of the U format (R25). -/
theorem placeU_eq_append (d : BitVec 5) (i : BitVec 19) : place d 19 + place i 0 = (d ++ i).toNat := by
  rw [toNat_append_eq_place_add, place_zero]

/-- Bits [23:0] of the I format (R25). -/
theorem placeI_eq_append (d a : BitVec 5) (i : BitVec 14) : place d 19 + place a 14 + place i 0 = (d ++ (a ++ i)).toNat := by
  rw [toNat_append_eq_place_add, toNat_append_eq_place_add, place_zero, Nat.add_assoc]

/-- Bits [23:0] of the R format with fn 0 (R25). -/
theorem placeR_eq_append (d a b : BitVec 5) :
    place d 19 + place a 14 + place b 9 = (d ++ (a ++ (b ++ 0#9))).toNat := by
  rw [toNat_append_eq_place_add, toNat_append_eq_place_add, toNat_append_eq_place_add, BitVec.toNat_zero]
  simp only [Nat.add_assoc, Nat.add_zero]

theorem encodeWord_lui (S : Bool) (d : BitVec 5) (i : BitVec 19) :
    encodeWord (.lui S d i) = some (BitVec.ofBool S ++ (0x11#7 ++ (d ++ i))) :=
  congrArg some (wordOf_eq_append S 0x11#7 (d ++ i) (placeU_eq_append d i))

theorem encodeWord_addpc (S : Bool) (d : BitVec 5) (i : BitVec 19) :
    encodeWord (.addpc S d i) = some (BitVec.ofBool S ++ (0x12#7 ++ (d ++ i))) :=
  congrArg some (wordOf_eq_append S 0x12#7 (d ++ i) (placeU_eq_append d i))

theorem encodeWord_j (S : Bool) (o : BitVec 24) : encodeWord (.j S o) = some (BitVec.ofBool S ++ (0x19#7 ++ o)) :=
  congrArg some (wordOf_eq_append S 0x19#7 o (place_zero o))

theorem encodeWord_jal (S : Bool) (o : BitVec 24) : encodeWord (.jal S o) = some (BitVec.ofBool S ++ (0x1A#7 ++ o)) :=
  congrArg some (wordOf_eq_append S 0x1A#7 o (place_zero o))

theorem encodeWord_cshift (S : Bool) (d a b : BitVec 5) :
    encodeWord (.cshift S d a b) = some (BitVec.ofBool S ++ (0x21#7 ++ (d ++ (a ++ (b ++ 0#9))))) :=
  congrArg some (wordOf_eq_append S 0x21#7 (d ++ (a ++ (b ++ 0#9))) (placeR_eq_append d a b))

theorem encodeWord_cshifti (S : Bool) (d a : BitVec 5) (i : BitVec 14) :
    encodeWord (.cshifti S d a i) = some (BitVec.ofBool S ++ (0x22#7 ++ (d ++ (a ++ i)))) :=
  congrArg some (wordOf_eq_append S 0x22#7 (d ++ (a ++ i)) (placeI_eq_append d a i))

/-! ## How a word ends whose operation completes: a register written, or a transfer with its link (R27, R78, R79) -/

/-- An operation that completes ends its word. -/
theorem runWord_ok {S : Bool} {body : Op Flow} {s s' : State} {flow : Flow} (h : body s = .ok (flow, s')) :
    runWord S body s = .next (retire S flow s s') := by
  rw [runWord, h]

/-- A word whose operation writes register d and moves on. -/
theorem runWord_register {S : Bool} {body : Op Flow} {d : BitVec 5} {v : Reg} {latency : Nat} {s : State} (hd : s.unbound d)
    (h : body s = .ok (.next 1, s.modCore s.cur (fun c => c.setRegAt d.toNat v (s.now s.cur + latency)))) :
    ∃ t, runWord S body s = .next t ∧ RegisterWord S d v latency s t :=
  ⟨_, runWord_ok h, register_word S d v latency s hd⟩

/-- `getField` on plain registers (R93). -/
theorem getField_plain {s : State} {d a : BitVec 5} (hd : s.unbound d) (ha : s.plain a) (f : Reg → Reg) :
    getField d a f s = .ok (.next 1, s.modCore s.cur (fun c => c.setRegAt d.toNat (f (s.greg a)) (s.now s.cur + 1))) := by
  have hbind := bindCheck_unbound (s := s) (rs := [a.toNat]) (ws := [d.toNat]) (by
    simp only [List.cons_append, List.nil_append, List.forall_mem_cons]; exact ⟨ha.1, hd, by simp⟩)
  simp [getField, hbind, readReg_plain ha, writeReg_unbound hd]

/-- No stream binds a register below g24 (R60). -/
theorem unbound_of_lt (s : State) {d : BitVec 5} (h : d.toNat < 24) : s.unbound d := by
  rw [State.unbound, Core.genOf, if_pos h]

/-- A word that transfers control with a link in register d. -/
theorem jump_word (S : Bool) (target : Word) {d : BitVec 5} (link : Reg) {s : State} (hd : s.unbound d) :
    Jumped S target d link s
      (retire S (.jump target) s (s.modCore s.cur (fun c => c.setRegAt d.toNat link (s.now s.cur + 1)))) := by
  rw [retire_jump]
  simp only [modCore_cur, core_modCore, modCore_now_eq]
  refine ⟨by simp, by simp, by simp, ⟨rfl, ?_, fun _ => rfl⟩, ?_, ?_⟩
  · intro c hc
    rw [core_setCore_ne _ _ hc, core_modCore_ne _ _ hc]
  · rw [core_setCore]
    exact onlyRegister_set (hu := hd) ..
  · rw [Wrote, core_setCore]
    split
    · rfl
    · next hne => exact setRegAt_reg _ link _ hd hne

/-- A word whose operation transfers control and leaves the state as it is: its link is one in g0, which is discarded (R50). -/
theorem runWord_jump {S : Bool} {body : Op Flow} {target : Word} {s : State} (h : body s = .ok (.jump target, s)) :
    ∃ t, runWord S body s = .next t ∧ Jumped S target 0 Reg.zero s t := by
  refine ⟨_, runWord_ok h, ?_⟩
  have hdiscard : retire S (.jump target) s (s.modCore s.cur (fun c => c.setRegAt 0 Reg.zero (s.now s.cur + 1))) =
      retire S (.jump target) s s := by
    have hset (x : Core) : x.setRegAt 0 Reg.zero (s.now s.cur + 1) = x := rfl
    simp only [hset, State.modCore, retire_jump, setCore_setCore, core_setCore, setCore_cur, setCore_now_eq]
  rw [← hdiscard]
  exact jump_word S target Reg.zero (unbound_of_lt s (d := 0) (by decide))

/-- A word whose operation writes a link to register d and transfers control. -/
theorem runWord_link {S : Bool} {body : Op Flow} {target : Word} {d : BitVec 5} {link : Reg} {s : State} (hd : s.unbound d)
    (h : body s = .ok (.jump target, s.modCore s.cur (fun c => c.setRegAt d.toNat link (s.now s.cur + 1)))) :
    ∃ t, runWord S body s = .next t ∧ Jumped S target d link s t :=
  ⟨_, runWord_ok h, jump_word S target link hd⟩

/-! ## Immediates that stand as words: `lui` and `addpc` (R84), `j` and `jal` (R88) -/

/-- A field extended and shifted left is its signed value times a power of two (R25). -/
theorem sextW_shiftLeft {n : Nat} (x : BitVec n) (k : Nat) : sextW x <<< k = BitVec.ofInt 64 (x.toInt * 2 ^ k) := by
  have hpow : BitVec.ofInt 64 (2 ^ k) = BitVec.twoPow 64 k := by
    have hcast : (2 : Int) ^ k = ((2 ^ k : Nat) : Int) := by push_cast; rfl
    rw [hcast, BitVec.ofInt_natCast]
    exact BitVec.eq_of_toNat_eq (by rw [BitVec.toNat_ofNat, BitVec.toNat_twoPow])
  rw [BitVec.shiftLeft_eq_mul_twoPow, BitVec.ofInt_mul, hpow, sextW, BitVec.signExtend]

/-- A field shifted left by two is four times its signed value (R27). -/
theorem sextW_shiftLeft_two {n : Nat} (x : BitVec n) : sextW x <<< 2 = BitVec.ofInt 64 (4 * x.toInt) := by
  rw [sextW_shiftLeft, mul_comm]
  rfl

/-- A destination bound to no stream is all that a word without sources has to check (R61). -/
theorem bindCheck_destination {s : State} {d : BitVec 5} (hd : s.unbound d) : bindCheck [] [d.toNat] s = .ok ((), s) :=
  bindCheck_unbound (List.forall_mem_singleton.mpr hd)

theorem lui_writes (S : Bool) {d : BitVec 5} (i : BitVec 19) {s : State} (hd : s.unbound d) :
    ∃ t, exec (.lui S d i) s = .next t ∧ RegisterWord S d ⟨false, 0, BitVec.ofInt 64 (i.toInt * 2 ^ 14)⟩ 1 s t := by
  show ∃ t, execLui S d i s = .next t ∧ _
  rw [execLui, ← sextW_shiftLeft]
  refine runWord_register hd ?_
  simp only [op_bind, op_pure, bindCheck_destination hd, writeWord_unbound hd, Reg.ofWord]

theorem addpc_writes (S : Bool) {d : BitVec 5} (i : BitVec 19) {s : State} (hd : s.unbound d) :
    ∃ t, exec (.addpc S d i) s = .next t ∧
      RegisterWord S d ⟨false, 0, (s.core s.cur).pc + BitVec.ofInt 64 (4 * i.toInt)⟩ 1 s t := by
  show ∃ t, execAddpc S d i s = .next t ∧ _
  rw [execAddpc, ← sextW_shiftLeft_two]
  refine runWord_register hd ?_
  simp only [op_bind, op_pure, op_getCore, bindCheck_destination hd, writeWord_unbound hd, Reg.ofWord]

/-- Settles O13: both words write their result to a register bound to no stream; the ranges are those of a signed 19-bit field. -/
theorem upperImmediates : Obligations.UpperImmediates := by
  unfold Obligations.UpperImmediates
  intro S d i s hd
  have hlo : -2 ^ 18 ≤ i.toInt := i.le_toInt
  have hhi : i.toInt < 2 ^ 18 := i.toInt_lt
  exact ⟨encodeWord_lui S d i, encodeWord_addpc S d i, lui_writes S i hd, by omega, addpc_writes S i hd, by omega, by omega⟩

/-- A target is the address of the word plus four times the signed offset (R27). -/
theorem branchTarget_eq (pc : Word) {n : Nat} (o : BitVec n) : branchTarget pc (sextW o) = pc + BitVec.ofInt 64 (4 * o.toInt) := by
  rw [branchTarget, sextW_shiftLeft_two]

theorem j_jumps (S : Bool) (o : BitVec 24) (s : State) :
    ∃ t, exec (.j S o) s = .next t ∧ Jumped S ((s.core s.cur).pc + BitVec.ofInt 64 (4 * o.toInt)) 0 Reg.zero s t := by
  show ∃ t, execJ S o s = .next t ∧ _
  rw [execJ, ← branchTarget_eq]
  exact runWord_jump (by simp only [op_bind, op_pure, op_getCore])

theorem jal_jumps (S : Bool) (o : BitVec 24) (s : State) :
    ∃ t, exec (.jal S o) s = .next t ∧
      Jumped S ((s.core s.cur).pc + BitVec.ofInt 64 (4 * o.toInt)) 1 ⟨false, 0, (s.core s.cur).pc + 4⟩ s t := by
  have hd : s.unbound 1 := unbound_of_lt s (by decide)
  have hlink : writeWord 1 ((s.core s.cur).pc + 4) 1 s = _ := writeWord_unbound hd ((s.core s.cur).pc + 4) 1
  show ∃ t, execJal S o s = .next t ∧ _
  rw [execJal, ← branchTarget_eq]
  refine runWord_link hd ?_
  simp only [op_bind, op_pure, op_getCore, hlink, Reg.ofWord]

/-- Settles O18: the link register g1 is bound to no stream in any state, so neither word has an operand that could fault. -/
theorem jumpsAndCalls : Obligations.JumpsAndCalls := by
  unfold Obligations.JumpsAndCalls
  intro S o s
  have hlo : -2 ^ 23 ≤ o.toInt := o.le_toInt
  have hhi : o.toInt < 2 ^ 23 := o.toInt_lt
  exact ⟨encodeWord_j S o, encodeWord_jal S o, j_jumps S o s, jal_jumps S o s, by omega, by omega⟩

/-! ## Cursor moves: `cshift` and `cshifti` (R54, R55, R94) -/

/-- Which bits a field at the low end replaces. -/
theorem getLsbD_setBits_low {n : Nat} (w : BitVec n) (len x i : Nat) (hi : i < n) :
    (setBits w 0 len x).getLsbD i = if i < len then x.testBit i else w.getLsbD i := by
  simp only [setBits, BitVec.shiftLeft_zero, BitVec.getLsbD_or, BitVec.getLsbD_and, BitVec.getLsbD_not, BitVec.getLsbD_ofNat,
    Nat.testBit_two_pow_sub_one, hi, decide_true, Bool.true_and]
  split <;> simp [*]

/-- The field replaced holds the low bits of what was put there. -/
theorem setBits_low_mod {n : Nat} (w : BitVec n) {len : Nat} (x : Nat) (h : len ≤ n) :
    (setBits w 0 len x).toNat % 2 ^ len = x % 2 ^ len := by
  apply Nat.eq_of_testBit_eq
  intro i
  rw [Nat.testBit_mod_two_pow, Nat.testBit_mod_two_pow]
  by_cases hi : i < len
  · rw [← BitVec.getLsbD, getLsbD_setBits_low w len x i (by omega), if_pos hi]
  · simp [hi]

/-- A field above the one replaced stands. -/
theorem extractLsb'_setBits_low {n : Nat} (w : BitVec n) {len k : Nat} (x : Nat) (h : len + k ≤ n) :
    (setBits w 0 len x).extractLsb' len k = w.extractLsb' len k := by
  apply BitVec.eq_of_getLsbD_eq
  intro i hi
  rw [BitVec.getLsbD_extractLsb', BitVec.getLsbD_extractLsb', getLsbD_setBits_low w len x _ (by omega), if_neg (by omega)]

/-- The cursor is word 0 modulo 2^57 (R53). -/
theorem cursor_eq_mod (r : Reg) : r.cursor = r.w0.toNat % 2 ^ 57 := by
  rw [Reg.cursor, bitsAt, BitVec.extractLsb'_toNat, Nat.shiftRight_zero]

/-- Every number less than m above the greatest one congruent to a up to c has that same greatest one. -/
theorem sub_emod_eq_of_range {a c c' m : Int} (hlo : c - (c - a) % m ≤ c') (hhi : c' < c - (c - a) % m + m) :
    c' - (c' - a) % m = c - (c - a) % m := by
  have hsplit : c' - a = (c' - (c - (c - a) % m)) + m * ((c - a) / m) := by
    have hdiv := Int.mul_ediv_add_emod (c - a) m
    omega
  rw [hsplit, Int.add_mul_emod_self_left, Int.emod_eq_of_lt (by omega) (by omega)]
  omega

/-- A cursor in the representable range decodes to the same base (R54, R55). -/
theorem baseAt_of_representable {r : Reg} {n : Nat} (h : r.representable n = true) : r.baseAt n = r.base := by
  have hgranule : (0 : Int) < (2 ^ r.SH : Nat) := by positivity
  rw [Reg.representable, decide_eq_true_eq, Reg.base, Reg.baseAt] at h
  obtain ⟨hlo, hhi⟩ := h
  rw [Nat.pow_add, Nat.mul_comm, Nat.cast_mul, ← add_mul] at hhi
  rw [Reg.base, Reg.baseAt, Reg.baseAt, Int.natCast_ediv n,
    sub_emod_eq_of_range (Int.le_ediv_of_mul_le hgranule hlo) (Int.ediv_lt_of_lt_mul hgranule hhi)]

/-- Word 0 of a register whose cursor has moved (R94). -/
theorem shift_w0 (v : Reg) (inc : Int) : (v.shift inc).w0 = setBits v.w0 0 57 (unsignedOf 57 (v.cursor + inc)) := by
  rw [Reg.shift]
  split <;> rfl

/-- The cursor after a move (R94). -/
theorem shift_cursor (v : Reg) (inc : Int) : (v.shift inc).cursor = unsignedOf 57 (v.cursor + inc) := by
  rw [cursor_eq_mod, shift_w0, setBits_low_mod _ _ (by omega)]
  exact Nat.mod_eq_of_lt (by rw [unsignedOf]; omega)

/-- A tagged operand whose new cursor is representable keeps all but its cursor (R94). -/
theorem shift_of_representable {v : Reg} {inc : Int} (ht : v.tag = true) (hr : v.representable (v.shift inc).cursor = true) :
    (v.shift inc).tag = true ∧ (v.shift inc).w1 = v.w1 ∧ (v.shift inc).base = v.base ∧ (v.shift inc).top = v.top := by
  have hshift : v.shift inc = { v with w0 := (v.shift inc).w0 } := by
    rw [shift_cursor] at hr
    rw [shift_w0, Reg.shift, ht, hr]
    rfl
  have hbase : (v.shift inc).base = v.base := by
    refine Eq.trans ?_ (baseAt_of_representable hr)
    rw [Reg.base, hshift]
    rfl
  refine ⟨?_, ?_, hbase, ?_⟩
  · rw [hshift, ht]
  · rw [hshift]
  · rw [Reg.top, Reg.top, hbase, hshift]
    rfl

/-- Any other result is untagged (R94). -/
theorem shift_of_not_representable {v : Reg} {inc : Int} (h : ¬ (v.tag = true ∧ v.representable (v.shift inc).cursor = true)) :
    (v.shift inc).tag = false ∧ (v.shift inc).w1 = 0 := by
  rw [shift_cursor, ← Bool.and_eq_true] at h
  rw [Reg.shift, if_neg h]
  exact ⟨rfl, rfl⟩

/-- The range of R55, in integers. -/
theorem representable_iff (r : Reg) (n : Nat) :
    r.representable n = true ↔ r.base ≤ n ∧ (n : Int) < r.base + 2 ^ (r.SH + 23) := by
  rw [Reg.representable, decide_eq_true_eq, Nat.cast_pow, Nat.cast_ofNat]

/-- The cursor after a move is the sum modulo 2^57 (R94). -/
theorem shift_cursor_mod (v : Reg) (inc : Int) :
    ((v.shift inc).w0.toNat % 2 ^ 57 : Int) = (v.w0.toNat % 2 ^ 57 + inc) % 2 ^ 57 := by
  have hcursor := shift_cursor v inc
  rw [cursor_eq_mod, cursor_eq_mod, unsignedOf] at hcursor
  omega

/-- R94 of an operand v and the result r of a move by inc. -/
def CursorMoved (v : Reg) (inc : Int) (r : Reg) : Prop :=
  (r.w0.toNat % 2 ^ 57 : Int) = (v.w0.toNat % 2 ^ 57 + inc) % 2 ^ 57 ∧ r.w0.extractLsb' 57 7 = v.w0.extractLsb' 57 7 ∧
    (v.tag = true ∧ v.base ≤ r.cursor ∧ (r.cursor : Int) < v.base + 2 ^ (v.SH + 23) →
      r.tag = true ∧ r.w1 = v.w1 ∧ r.base = v.base ∧ r.top = v.top) ∧
    (¬ (v.tag = true ∧ v.base ≤ r.cursor ∧ (r.cursor : Int) < v.base + 2 ^ (v.SH + 23)) → r.tag = false ∧ r.w1 = 0)

theorem shift_cursorMoved (v : Reg) (inc : Int) : CursorMoved v inc (v.shift inc) := by
  refine ⟨shift_cursor_mod v inc, ?_, ?_, ?_⟩
  · rw [shift_w0, extractLsb'_setBits_low _ _ (by omega)]
  · rw [← representable_iff]
    exact fun ⟨ht, hr⟩ => shift_of_representable ht hr
  · rw [← representable_iff]
    exact shift_of_not_representable

theorem cshift_writes (S : Bool) {d a b : BitVec 5} {s : State} (hd : s.unbound d) (ha : s.plain a) (hb : s.plain b) :
    ∃ t, exec (.cshift S d a b) s = .next t ∧ RegisterWord S d ((s.greg a).shift (s.gword b).toInt) 1 s t := by
  have hbind : bindCheck [a.toNat, b.toNat] [d.toNat] s = .ok ((), s) := bindCheck_unbound (by
    simp only [List.cons_append, List.nil_append, List.forall_mem_cons]; exact ⟨ha.1, hb.1, hd, by simp⟩)
  show ∃ t, execCshift S d a b s = .next t ∧ _
  rw [execCshift]
  refine runWord_register hd ?_
  simp only [op_bind, op_pure, hbind, readReg_plain ha, readWord_plain hb, writeReg_unbound hd]

theorem cshifti_writes (S : Bool) {d a : BitVec 5} (i : BitVec 14) {s : State} (hd : s.unbound d) (ha : s.plain a) :
    ∃ t, exec (.cshifti S d a i) s = .next t ∧ RegisterWord S d ((s.greg a).shift i.toInt) 1 s t :=
  runWord_register hd (getField_plain hd ha fun v => v.shift i.toInt)

/-- Settles O25: both words write the operand with its cursor moved, and a move keeps the bounds in the representable range. -/
theorem cursorMoves : Obligations.CursorMoves := by
  unfold Obligations.CursorMoves
  intro S d a b i s hd ha hb
  obtain ⟨t, hexec, hword⟩ := cshift_writes S hd ha hb
  obtain ⟨u, hexeci, hwordi⟩ := cshifti_writes S i hd ha
  exact ⟨encodeWord_cshift S d a b, encodeWord_cshifti S d a i,
    ⟨t, _, hexec, hword, shift_cursorMoved _ _⟩, ⟨u, _, hexeci, hwordi, shift_cursorMoved _ _⟩⟩

end Sys2Proof.Proofs
